-- ==== Sys2Proof/Word.lean ====
section
/-! DEFINITION. The words and the plainest types of the model (R1, R2). -/

namespace Sys2Proof

/-- A 64-bit register or word. -/
abbrev Word := BitVec 64
/-- An octet. -/
abbrev Byte := BitVec 8
/-- A count of arithmetic cycles (R5), or the stamp counter. -/
abbrev Ac := Nat

end Sys2Proof
end

