-- ==== Sys2Proof/Syntax.lean ====
section
/-! DEFINITION. The instructions and events of the package, one constructor for each row of the opcode table, with
operands at the widths of their fields (spec/01, 02, 06, 08). No meaning is given here. -/

namespace Sys2Proof

/-- s0 to s31 (R51). -/
abbrev SReg := Fin 32
/-- f0 to f15 (R51). -/
abbrev FReg := Fin 16
/-- p0 to p7 (R51). -/
abbrev PReg := Fin 8
/-- h0 to h15 (R157). -/
abbrev HReg := Fin 16
/-- bd0 to bd7 (R229). -/
abbrev BdReg := Fin 8
/-- e0 to e31 (R239). -/
abbrev EvReg := Fin 32
/-- Windrows 0 to 15 (R178). -/
abbrev Windrow := Fin 16

/-- The four issue heads of a control core, in the order in which their traps are taken (R13, R113). -/
inductive Head where
  | s | m | a | y
  deriving DecidableEq, Repr, Inhabited

/-- The opcode table. Fields carry the names of the table: d, a, b operands, g guard, lat the class code of R19, imm
the second word. A predicate destination is p with its condition or function c. -/
inductive Instr where

  /-- ADD (R56). Writes the 64-bit sum s[A] + s[B] to s[D], modulo 2^64, or clamped to the signed range under a SAT
      prefix. -/
  | add (d : SReg) (a : SReg) (b : SReg) (g : Bool) (lat : Fin 8)
  /-- SUB (R56). Writes s[A] - s[B] to s[D], modulo 2^64, or clamped to the signed range under a SAT prefix. -/
  | sub (d : SReg) (a : SReg) (b : SReg) (g : Bool) (lat : Fin 8)
  /-- MUL (R56). Writes the low 64 bits of s[A] x s[B] to s[D], or the clamped exact product under a SAT prefix. -/
  | mul (d : SReg) (a : SReg) (b : SReg) (g : Bool) (lat : Fin 8)
  /-- MULH (R56). Writes bits [127:64] of the signed 128-bit product of s[A] and s[B] to s[D]. -/
  | mulh (d : SReg) (a : SReg) (b : SReg) (g : Bool) (lat : Fin 8)
  /-- MULHU (R56). Writes bits [127:64] of the unsigned 128-bit product of s[A] and s[B] to s[D]. -/
  | mulhu (d : SReg) (a : SReg) (b : SReg) (g : Bool) (lat : Fin 8)
  /-- DIV (R58). Writes the signed quotient s[A] / s[B], rounded toward zero, to s[D]; division by zero gives all
      ones, or traps when DZT is set. -/
  | div (d : SReg) (a : SReg) (b : SReg) (g : Bool) (lat : Fin 8)
  /-- DIVU (R58). Writes the unsigned quotient of s[A] by s[B] to s[D]; division by zero gives all ones, or traps when
      DZT is set. -/
  | divu (d : SReg) (a : SReg) (b : SReg) (g : Bool) (lat : Fin 8)
  /-- REM (R58). Writes the signed remainder of s[A] by s[B], with the dividend's sign, to s[D]; division by zero
      gives s[A], or traps when DZT is set. -/
  | rem (d : SReg) (a : SReg) (b : SReg) (g : Bool) (lat : Fin 8)
  /-- REMU (R58). Writes the unsigned remainder of s[A] by s[B] to s[D]; division by zero gives s[A], or traps when
      DZT is set. -/
  | remu (d : SReg) (a : SReg) (b : SReg) (g : Bool) (lat : Fin 8)
  /-- AND (R56). Writes the bitwise AND of s[A] and s[B] to s[D]. -/
  | and (d : SReg) (a : SReg) (b : SReg) (g : Bool) (lat : Fin 8)
  /-- OR (R56). Writes the bitwise OR of s[A] and s[B] to s[D]. -/
  | or (d : SReg) (a : SReg) (b : SReg) (g : Bool) (lat : Fin 8)
  /-- XOR (R56). Writes the bitwise XOR of s[A] and s[B] to s[D]. -/
  | xor (d : SReg) (a : SReg) (b : SReg) (g : Bool) (lat : Fin 8)
  /-- ANDN (R56). Writes s[A] AND NOT s[B] to s[D]. -/
  | andn (d : SReg) (a : SReg) (b : SReg) (g : Bool) (lat : Fin 8)
  /-- SHL (R56). Writes s[A] shifted left by s[B][5:0], with zeros in, to s[D]. -/
  | shl (d : SReg) (a : SReg) (b : SReg) (g : Bool) (lat : Fin 8)
  /-- SHR (R56). Writes s[A] shifted right logically by s[B][5:0] to s[D]. -/
  | shr (d : SReg) (a : SReg) (b : SReg) (g : Bool) (lat : Fin 8)
  /-- SAR (R56). Writes s[A] shifted right arithmetically by s[B][5:0] to s[D]. -/
  | sar (d : SReg) (a : SReg) (b : SReg) (g : Bool) (lat : Fin 8)
  /-- MIN (R56). Writes the signed minimum of s[A] and s[B] to s[D]. -/
  | min (d : SReg) (a : SReg) (b : SReg) (g : Bool) (lat : Fin 8)
  /-- MAX (R56). Writes the signed maximum of s[A] and s[B] to s[D]. -/
  | max (d : SReg) (a : SReg) (b : SReg) (g : Bool) (lat : Fin 8)
  /-- MINU (R56). Writes the unsigned minimum of s[A] and s[B] to s[D]. -/
  | minu (d : SReg) (a : SReg) (b : SReg) (g : Bool) (lat : Fin 8)
  /-- MAXU (R56). Writes the unsigned maximum of s[A] and s[B] to s[D]. -/
  | maxu (d : SReg) (a : SReg) (b : SReg) (g : Bool) (lat : Fin 8)
  /-- ADDI (R59). Writes s[A] plus the sign-extended IMM32 to s[D], with SAT as for ADD. -/
  | addi (d : SReg) (a : SReg) (imm : BitVec 32) (g : Bool) (lat : Fin 8)
  /-- MULI (R59). Writes the low 64 bits of s[A] times the sign-extended IMM32 to s[D], with SAT as for MUL. -/
  | muli (d : SReg) (a : SReg) (imm : BitVec 32) (g : Bool) (lat : Fin 8)
  /-- ANDI (R59). Writes s[A] AND the sign-extended IMM32 to s[D]. -/
  | andi (d : SReg) (a : SReg) (imm : BitVec 32) (g : Bool) (lat : Fin 8)
  /-- ORI (R59). Writes s[A] OR the zero-extended IMM32 to s[D]. -/
  | ori (d : SReg) (a : SReg) (imm : BitVec 32) (g : Bool) (lat : Fin 8)
  /-- XORI (R59). Writes s[A] XOR the zero-extended IMM32 to s[D]. -/
  | xori (d : SReg) (a : SReg) (imm : BitVec 32) (g : Bool) (lat : Fin 8)
  /-- SHLI (R60). Writes s[A] shifted left by the immediate SH to s[D]. -/
  | shli (d : SReg) (a : SReg) (sh : Fin 64) (lat : Fin 8)
  /-- SHRI (R60). Writes s[A] shifted right logically by the immediate SH to s[D]. -/
  | shri (d : SReg) (a : SReg) (sh : Fin 64) (lat : Fin 8)
  /-- SARI (R60). Writes s[A] shifted right arithmetically by the immediate SH to s[D]. -/
  | sari (d : SReg) (a : SReg) (sh : Fin 64) (lat : Fin 8)
  /-- LI (R59). Writes the sign-extended IMM32 to s[D]. -/
  | li (d : SReg) (imm : BitVec 32) (g : Bool) (lat : Fin 8)
  /-- CLZ (R61). Writes the number of leading zero bits of s[A] to s[D], or 64 for zero. -/
  | clz (d : SReg) (a : SReg) (g : Bool) (lat : Fin 8)
  /-- CTZ (R61). Writes the number of trailing zero bits of s[A] to s[D], or 64 for zero. -/
  | ctz (d : SReg) (a : SReg) (g : Bool) (lat : Fin 8)
  /-- POPC (R61). Writes the number of one bits of s[A] to s[D]. -/
  | popc (d : SReg) (a : SReg) (g : Bool) (lat : Fin 8)
  /-- EXT (R62). Extracts the bit field that IMM32 specifies from s[A] and writes it to s[D], zero- or sign-extended. -/
  | ext (d : SReg) (a : SReg) (imm : BitVec 32) (g : Bool) (lat : Fin 8)
  /-- INS (R62). Inserts the low bits of s[A] into the field of s[D] that IMM32 specifies. -/
  | ins (d : SReg) (a : SReg) (imm : BitVec 32) (g : Bool) (lat : Fin 8)
  /-- SEL (R63). Writes s[A] to s[D] when p1 is true and s[B] otherwise. -/
  | sel (d : SReg) (a : SReg) (b : SReg) (lat : Fin 8)
  /-- MADI (R64). Writes s[A] times the sign-extended IMM32 plus s[B] to s[D], modulo 2^64 or clamped under SAT. -/
  | madi (d : SReg) (a : SReg) (b : SReg) (imm : BitVec 32) (g : Bool) (lat : Fin 8)
  /-- CMP (R65). Writes to a predicate the result of comparing s[A] with s[B] under the condition in D[4:3]. -/
  | cmp (c : Fin 4) (p : PReg) (a : SReg) (b : SReg) (g : Bool) (lat : Fin 8)
  /-- CMPI (R65). Writes to a predicate the result of comparing s[A] with the sign-extended IMM32 under the condition
      in D[4:3]. -/
  | cmpi (c : Fin 4) (p : PReg) (a : SReg) (imm : BitVec 32) (g : Bool) (lat : Fin 8)
  /-- FCMP (R66). Writes to a predicate the FP64 comparison eq, lt, le or un of f[A] with f[B]. -/
  | fcmp (c : Fin 4) (p : PReg) (a : FReg) (b : FReg) (g : Bool) (lat : Fin 8)
  /-- PLOG (R67). Writes the AND, OR or XOR of two optionally inverted predicates to a predicate. -/
  | plog (c : Fin 4) (p : PReg) (i : Bool) (x : PReg) (j : Bool) (y : PReg) (g : Bool) (lat : Fin 8)
  /-- FADD (R68). Writes the correctly rounded FP64 sum of f[A] and f[B] to f[D] under the prefix's mode, SAT and FTZ. -/
  | fadd (d : FReg) (a : FReg) (b : FReg) (g : Bool) (lat : Fin 8)
  /-- FSUB (R68). Writes the correctly rounded FP64 difference f[A] - f[B] to f[D]. -/
  | fsub (d : FReg) (a : FReg) (b : FReg) (g : Bool) (lat : Fin 8)
  /-- FMUL (R68). Writes the correctly rounded FP64 product of f[A] and f[B] to f[D]. -/
  | fmul (d : FReg) (a : FReg) (b : FReg) (g : Bool) (lat : Fin 8)
  /-- FFMA (R68). Writes f[A] x f[B] + f[D], rounded once into FP64, to f[D]. -/
  | ffma (d : FReg) (a : FReg) (b : FReg) (g : Bool) (lat : Fin 8)
  /-- FDIV (R68). Writes the correctly rounded FP64 quotient f[A] / f[B] to f[D], never trapping. -/
  | fdiv (d : FReg) (a : FReg) (b : FReg) (g : Bool) (lat : Fin 8)
  /-- FSQRT (R68). Writes the correctly rounded FP64 square root of f[A] to f[D]. -/
  | fsqrt (d : FReg) (a : FReg) (g : Bool) (lat : Fin 8)
  /-- FMIN (R69). Writes the lesser of f[A] and f[B] to f[D], with -0 below +0 and NaN giving the canonical NaN. -/
  | fmin (d : FReg) (a : FReg) (b : FReg) (g : Bool) (lat : Fin 8)
  /-- FMAX (R69). Writes the greater of f[A] and f[B] to f[D], with -0 below +0 and NaN giving the canonical NaN. -/
  | fmax (d : FReg) (a : FReg) (b : FReg) (g : Bool) (lat : Fin 8)
  /-- FCVT_RINT (R70). Rounds f[A] to an integral FP64 value under the mode into f[D]. -/
  | fcvtRint (d : FReg) (a : FReg) (g : Bool) (lat : Fin 8)
  /-- FCVT_ROUND32 (R70). Rounds f[A] to the nearest FP32 value under the mode, held exactly in FP64 in f[D]. -/
  | fcvtRound32 (d : FReg) (a : FReg) (g : Bool) (lat : Fin 8)
  /-- FCVT_TOINT (R71). Rounds f[A] to a signed 64-bit integer in s[D], with out-of-range and NaN handled per SAT. -/
  | fcvtToint (d : SReg) (a : FReg) (g : Bool) (lat : Fin 8)
  /-- FCVT_TOUINT (R71). Rounds f[A] to an unsigned 64-bit integer in s[D], with out-of-range and NaN handled per SAT. -/
  | fcvtTouint (d : SReg) (a : FReg) (g : Bool) (lat : Fin 8)
  /-- FCVT_FROMINT (R71). Rounds signed s[A] to FP64 in f[D]. -/
  | fcvtFromint (d : FReg) (a : SReg) (g : Bool) (lat : Fin 8)
  /-- FCVT_FROMUINT (R71). Rounds unsigned s[A] to FP64 in f[D]. -/
  | fcvtFromuint (d : FReg) (a : SReg) (g : Bool) (lat : Fin 8)
  /-- FCVT_TOFP32 (R70). Rounds f[A] into an FP32 pattern in s[D][31:0], zero above. -/
  | fcvtTofp32 (d : SReg) (a : FReg) (g : Bool) (lat : Fin 8)
  /-- FCVT_FROMFP32 (R70). Widens the FP32 pattern s[A][31:0] exactly into FP64 in f[D]. -/
  | fcvtFromfp32 (d : FReg) (a : SReg) (g : Bool) (lat : Fin 8)
  /-- FCVT_TOFP16 (R70). Rounds f[A] into an FP16 pattern in s[D][15:0]. -/
  | fcvtTofp16 (d : SReg) (a : FReg) (g : Bool) (lat : Fin 8)
  /-- FCVT_FROMFP16 (R70). Widens the FP16 pattern s[A][15:0] exactly into FP64 in f[D]. -/
  | fcvtFromfp16 (d : FReg) (a : SReg) (g : Bool) (lat : Fin 8)
  /-- FCVT_TOBF16 (R70). Rounds f[A] into a BF16 pattern in s[D][15:0]. -/
  | fcvtTobf16 (d : SReg) (a : FReg) (g : Bool) (lat : Fin 8)
  /-- FCVT_FROMBF16 (R70). Widens the BF16 pattern s[A][15:0] exactly into FP64 in f[D]. -/
  | fcvtFrombf16 (d : FReg) (a : SReg) (g : Bool) (lat : Fin 8)
  /-- FCVT_TOE4M3 (R70). Rounds f[A] into an E4M3 pattern in s[D][7:0]. -/
  | fcvtToe4m3 (d : SReg) (a : FReg) (g : Bool) (lat : Fin 8)
  /-- FCVT_FROME4M3 (R70). Widens the E4M3 pattern s[A][7:0] exactly into FP64 in f[D]. -/
  | fcvtFrome4m3 (d : FReg) (a : SReg) (g : Bool) (lat : Fin 8)
  /-- FCVT_TOE5M2 (R70). Rounds f[A] into an E5M2 pattern in s[D][7:0]. -/
  | fcvtToe5m2 (d : SReg) (a : FReg) (g : Bool) (lat : Fin 8)
  /-- FCVT_FROME5M2 (R70). Widens the E5M2 pattern s[A][7:0] exactly into FP64 in f[D]. -/
  | fcvtFrome5m2 (d : FReg) (a : SReg) (g : Bool) (lat : Fin 8)
  /-- FCVT_TOTAP8 (R132). Rounds f[A] into a TAP8 pattern in s[D][7:0]. -/
  | fcvtTotap8 (d : SReg) (a : FReg) (g : Bool) (lat : Fin 8)
  /-- FCVT_FROMTAP8 (R70). Widens the TAP8 pattern s[A][7:0] exactly into FP64 in f[D], NaR giving the canonical NaN. -/
  | fcvtFromtap8 (d : FReg) (a : SReg) (g : Bool) (lat : Fin 8)
  /-- FCVT_TOTAP6 (R132). Rounds f[A] into a TAP6 pattern in s[D][5:0]. -/
  | fcvtTotap6 (d : SReg) (a : FReg) (g : Bool) (lat : Fin 8)
  /-- FCVT_FROMTAP6 (R70). Widens the TAP6 pattern s[A][5:0] exactly into FP64 in f[D], NaR giving the canonical NaN. -/
  | fcvtFromtap6 (d : FReg) (a : SReg) (g : Bool) (lat : Fin 8)
  /-- FMVI (R72). Writes the FP32 value whose pattern is IMM32, widened exactly, to f[D]. -/
  | fmvi (d : FReg) (imm : BitVec 32) (g : Bool) (lat : Fin 8)
  /-- FMVF_TO_S (R72). Copies the 64 bits of f[A] unchanged into s[D]. -/
  | fmvfToS (d : SReg) (a : FReg) (g : Bool) (lat : Fin 8)
  /-- FMVF_TO_F (R72). Copies the 64 bits of s[A] unchanged into f[D]. -/
  | fmvfToF (d : FReg) (a : SReg) (g : Bool) (lat : Fin 8)
  /-- BR (R75). Branches by a signed word offset when p[P] XOR N is 1 and records the outcome in the branch-outcome
      queue. -/
  | br (off : Fin 4096) (n : Bool) (p : PReg)
  /-- BRP (R76). Private backward branch followed by S alone, recording nothing, while trailing heads wait at it until
      it falls through. -/
  | brp (off : Fin 4096) (n : Bool) (p : PReg)
  /-- DBRP (R78). Decrements s[A] and branches when the new value is positive, recording the outcome. -/
  | dbrp (a : SReg) (off : Fin 2048) (lat : Fin 8)
  /-- CALL (R79). Transfers to base plus a word offset and lands the return link in s[D], recording the outcome. -/
  | call (d : SReg) (a : SReg) (imm : BitVec 32) (g : Bool) (lat : Fin 8)
  /-- RET (R80). Transfers to the arena offset held in s[A] and records the outcome. -/
  | ret (a : SReg) (g : Bool)
  /-- NOP (R80). Issues with no effect. -/
  | nop (g : Bool)
  /-- SPLD (R82). Lands a 64-bit entry of the slot's spill memory in an s or f register. -/
  | spld (d : SReg) (cls : Bool) (slot : Fin 512) (g : Bool) (lat : Fin 8)
  /-- SPST (R82). Writes an s or f register into an entry of the slot's spill memory within its issue cycle. -/
  | spst (d : SReg) (cls : Bool) (slot : Fin 512) (g : Bool)
  /-- LDT (R83). Loads the aligned 64-bit tile-store word at s[A] + s[B] into s[D], trapping on a bad address. -/
  | ldt (d : SReg) (a : SReg) (b : SReg) (g : Bool) (lat : Fin 8)
  /-- STT (R83). Stores s[D] to the aligned tile-store word at s[A] + s[B], trapping on a bad address. -/
  | stt (d : SReg) (a : SReg) (b : SReg) (g : Bool)
  /-- POPF (R86). Removes the oldest element of an engine FIFO and lands it in s[D], acquiring that element. -/
  | popf (d : SReg) (fifo : Fin 32) (g : Bool) (lat : Fin 8)
  /-- PUSHF (R87). Appends s[A] to an xo FIFO, or 8 bytes to a command assembly buffer whose sixteenth push enqueues
      the record. -/
  | pushf (a : SReg) (fifo : Fin 32) (g : Bool)
  /-- SYSR (R90). Lands a system register, zero-extended, in s[D], subject to the privilege check. -/
  | sysr (d : SReg) (sys : Fin 1024) (g : Bool) (lat : Fin 8)
  /-- SYSW (R90). Writes the low bits of s[D] to a writable system register that has no behaviour of its own, subject
      to the privilege check. -/
  | sysw (d : SReg) (sys : Fin 1024) (g : Bool)
  /-- SYSW_SLIPWIN (R90). Writes slipwin clamped to 1 to 256, holding heads that are beyond the new window. -/
  | syswSlipwin (d : SReg) (g : Bool)
  /-- SYSW_TRAPPC_S (R117). Writes trappc.s and all trailing trap PCs, empties the branch-outcome queue and zeroes
      every slip position. -/
  | syswTrappcS (d : SReg) (g : Bool)
  /-- SYSW_TSTATUS (R90). Writes tstatus, changing only DZT in user mode. -/
  | syswTstatus (d : SReg) (g : Bool)
  /-- TRAP (R91). Raises the software trap with a code and s[A] as trapval, resuming after the TRAP. -/
  | trap (code : Fin 32) (a : SReg) (g : Bool)
  /-- TRET (R92). Returns the slot to user mode, restoring the user bank and resuming every head at its trap PC. -/
  | tret (g : Bool)
  /-- PFX (R27). Finds its target by forward scan and issues with it as one unit under the given rounding, SAT and
      FTZ, or raises an orphan-prefix trap. -/
  | pfx (ftz : Bool) (sat : Bool) (rm : Fin 8) (head : Fin 8)
  /-- SAFF (R164). Builds an affine stream command from a tile-store template, patches it and enqueues it, writing the
      handle. -/
  | saff (d : HReg) (a : SReg) (b : SReg) (g : Bool)
  /-- SAFFW (R164). Builds and enqueues an affine stream command whose destination side enumerates. -/
  | saffw (d : HReg) (a : SReg) (b : SReg) (g : Bool)
  /-- SIND (R164). Builds and enqueues an indirect read command linked to the index producer named by h[B]. -/
  | sind (d : HReg) (a : SReg) (b : HReg) (g : Bool)
  /-- SINDW (R164). Builds and enqueues an indirect write command linked to the index producer named by h[B]. -/
  | sindw (d : HReg) (a : SReg) (b : HReg) (g : Bool)
  /-- SREC (R164). Builds and enqueues a recurrence stream command. -/
  | srec (d : HReg) (a : SReg) (b : SReg) (g : Bool)
  /-- SFILL (R164). Builds and enqueues a fill command with IMM32 as its pattern. -/
  | sfill (d : HReg) (a : SReg) (b : SReg) (imm : BitVec 32) (g : Bool)
  /-- SMC (R164). Builds and enqueues a multicast stream command. -/
  | smc (d : HReg) (a : SReg) (b : SReg) (g : Bool)
  /-- SGROW (R164). Builds and enqueues a row-gather command linked to the index producer named by h[B]. -/
  | sgrow (d : HReg) (a : SReg) (b : HReg) (g : Bool)
  /-- SRED (R164). Builds and enqueues a reduction command, writing its FMT rounding bits from the prefix. -/
  | sred (d : HReg) (a : SReg) (b : SReg) (g : Bool)
  /-- SATM (R164). Builds and enqueues an atomic read-modify-write command, writing its FMT rounding bits from the
      prefix. -/
  | satm (d : HReg) (a : SReg) (b : SReg) (g : Bool)
  /-- SCPY (R164). Builds and enqueues a copy command. -/
  | scpy (d : HReg) (a : SReg) (b : SReg) (g : Bool)
  /-- SBAR (R164). Builds and enqueues a stream barrier command. -/
  | sbar (d : HReg) (a : SReg) (b : SReg) (g : Bool)
  /-- SWIN_DECL (R179). Declares a windrow with a base, slot size and slot count, all slots free. -/
  | swinDecl (d : Windrow) (a : SReg) (cnt : Fin 256) (sz : Fin 2048) (g : Bool)
  /-- SWIN_TAKE (R179). Waits until n slots are filled, then moves n counts from FILLED to FREE and advances RP. -/
  | swinTake (d : Windrow) (cnt : Fin 256) (g : Bool)
  /-- SWIN_GIVE (R179). Waits until n slots are free, then moves n counts from FREE to FILLED and advances WP. -/
  | swinGive (d : Windrow) (cnt : Fin 256) (g : Bool)
  /-- STAP (R164). Builds and enqueues a tap command on the command named by h[B]. -/
  | stap (d : HReg) (a : SReg) (b : HReg) (g : Bool)
  /-- SFILT (R164). Builds and enqueues a route-filter installation command. -/
  | sfilt (d : HReg) (a : SReg) (b : SReg) (g : Bool)
  /-- SMETA (R164). Builds and enqueues a sparsity-metadata stream command. -/
  | smeta (d : HReg) (a : SReg) (b : SReg) (g : Bool)
  /-- STOK (R164). Builds and enqueues a single control-token command with s[B] as payload and IMM32 as event select. -/
  | stok (d : HReg) (a : SReg) (b : SReg) (imm : BitVec 32) (g : Bool)
  /-- SCLOSE (R180). Ends the command named by h[D] at its next element boundary. -/
  | sclose (d : HReg) (g : Bool)
  /-- SQRY_COMMAND (R181). Posts the current status of the command named by h[D] to sts. -/
  | sqryCommand (d : HReg) (g : Bool)
  /-- SQRY_WINDROW (R181). Posts a windrow answer with FREE, FILLED, RP and WP to sts. -/
  | sqryWindrow (d : Windrow) (g : Bool)
  /-- SDESC (R177). Builds and enqueues a stream command with the template's own KIND. -/
  | sdesc (d : HReg) (a : SReg) (b : SReg) (g : Bool)
  /-- ACFG (R217). Checks a block offset and queues a CFG command for the slot's quadrant. -/
  | acfg (a : SReg) (b : SReg) (imm : BitVec 32) (g : Bool)
  /-- ARUN (R217). Queues a RUN command for the slot's quadrant. -/
  | arun (b : SReg) (g : Bool)
  /-- ADRN (R217). Queues a DRN command for the slot's quadrant. -/
  | adrn (b : SReg) (g : Bool)
  /-- AQUI (R217). Queues a QUI command, waiting for quiescence or probing at once. -/
  | aqui (k : Bool) (b : SReg) (g : Bool)
  /-- AMRK (R217). Queues an MRK command with an input-port mask. -/
  | amrk (a : SReg) (b : SReg) (g : Bool)
  /-- APRT (R217). Queues a PRT command asking about one port. -/
  | aprt (a : SReg) (b : SReg) (g : Bool)
  /-- CHBD (R229). Writes the bond value s[A][10:0] to bd[D]. -/
  | chbd (d : BdReg) (a : SReg) (g : Bool)
  /-- CHORD (R230). Queues an ORD command loading chain steps from the arena. -/
  | chord (a : SReg) (b : SReg) (imm : BitVec 32) (g : Bool)
  /-- CHRUN (R217). Queues a CRUN command with a step range, the bond registers and the prefix's RM and FTZ. -/
  | chrun (a : SReg) (b : SReg) (g : Bool)
  /-- CHSV (R217). Queues a CSAV command saving the chain boundary to tile store. -/
  | chsv (a : SReg) (b : SReg) (g : Bool)
  /-- CHLD (R217). Queues a CLOD command loading the chain boundary from tile store. -/
  | chld (a : SReg) (b : SReg) (g : Bool)
  /-- ENCO (R217). Queues an EOPN command opening an encode channel. -/
  | enco (ch : Fin 4) (a : SReg) (b : SReg) (g : Bool)
  /-- ENCF (R235). Queues an EFRM command, copying its stamp and binding from the descriptor. -/
  | encf (ch : Fin 4) (a : SReg) (b : SReg) (g : Bool)
  /-- ENCC (R217). Queues an ECLS command closing an encode channel. -/
  | encc (ch : Fin 4) (b : SReg) (g : Bool)
  /-- EVSIG (R239). Releases the slot's stores and adds n to counted event e[D], saturating. -/
  | evsig (d : EvReg) (a : SReg) (g : Bool)
  /-- EVWAIT (R239). Issues a wait for counted event e[D] to reach n. -/
  | evwait (d : EvReg) (a : SReg) (g : Bool)
  /-- EVCLR (R239). Sets counted event e[D] to n. -/
  | evclr (d : EvReg) (a : SReg) (g : Bool)
  /-- BARI (R243). Sets a barrier's COUNT, clears POISON and completes the phase if ARRIVED already reaches it. -/
  | bari (imm : BitVec 32) (g : Bool)
  /-- BARA (R242). Sends an arrival of the given weight to a barrier, as a release at its scope. -/
  | bara (a : SReg) (b : SReg) (g : Bool)
  /-- BARW (R244). Issues a wait for a barrier phase beyond q or for poison. -/
  | barw (k : Bool) (a : SReg) (b : SReg) (g : Bool)
  /-- BARQ (R245). Posts a barrier answer with the fields at the barrier's home. -/
  | barq (a : SReg) (g : Bool)
  /-- FENCE (R246). Completes when earlier reads and writes have performed at the scope, acting as acquire and
      release. -/
  | fence (scope : Fin 8) (g : Bool)
  /-- ACQ (R246). Completes when earlier LDT and POPF have performed, ordering later accesses at the scope. -/
  | acq (scope : Fin 8) (g : Bool)
  /-- REL (R246). Completes when earlier STT and PUSHF have performed at the scope, ordering later releases after
      them. -/
  | rel (scope : Fin 8) (g : Bool)
  /-- TENQ (R250). Checks and releases, then sends a 64-byte enqueue packet on VC7 to a destination queue. -/
  | tenq (k : Bool) (a : SReg) (b : SReg) (g : Bool)
  /-- TEND (R248). Waits for the slot's commands, discards leftovers, releases, commits any journal, performs deferred
      acts and ends the task. -/
  | tend (a : SReg) (g : Bool)
  /-- TYLD (R249). Saves the task as at pre-emption and returns its record to the tail of its class. -/
  | tyld (g : Bool)
  /-- TSPWN (R251). Sends an enqueue packet to the slot's own die dispatcher without VC7 reservation. -/
  | tspwn (k : Bool) (a : SReg) (g : Bool)
  /-- TPOLL_TASK (R252). Posts a task answer with PREQ, PAST, restarts and time to deadline. -/
  | tpollTask (g : Bool)
  /-- TPOLL_DIE (R252). Posts a die answer with free slots and waiting tasks. -/
  | tpollDie (g : Bool)
  /-- LKPRB (R253). Posts a lock-probe answer for one granule of a declared set without touching it. -/
  | lkprb (a : SReg) (b : SReg) (g : Bool)
  /-- STAMP (R255). Holds the Y head until STC reaches s[A], or completes at once if already past, raising schedule
      miss when MISS is set. -/
  | stamp (k : Bool) (a : SReg) (g : Bool)
  /-- DLN (R256). Lowers the task's deadline to base plus offset, raising the deadline cause at once if already past. -/
  | dln (a : SReg) (imm : BitVec 32) (g : Bool)
  /-- DIAG (R35). Raises an illegal-encoding trap unless the slot's diagnostic enable is set. -/
  | diag (g : Bool)
  -- The events: steps of engines, homes, dispatchers and firmware. They have no words.
  /-- RESULT_LAND (R52). A result in flight is written to its destination register within its latency class. -/
  | resultLand (k : Nat)
  /-- TILE_STORE_BANK_GRANT (R109). A waiting LDT or STT is granted its tile-store bank after the stream engine
      yields. -/
  | tileStoreBankGrant (conflict : Bool)
  /-- TRAP_ENTRY (R114). A synchronous or pending asynchronous trap is taken: heads stop, results land, trap PCs and
      cause are written and the slot enters supervisor mode. -/
  | trapEntry
  /-- STREAM_DEQUEUE (R159). The head of the stream queue takes a free in-flight slot and is checked, being rejected
      on the first failing check. -/
  | streamDequeue
  /-- START_STAMP_REACHED (R160). At ac STAMP a command issues its first element, or takes schedule miss or starts
      late as LATE gives. -/
  | startStampReached (seq : Nat)
  /-- SAFF_COMMAND (R166). Once its waits are met, reads elements from EP0 and writes them to EP1 in enumeration
      order. -/
  | saffCommand (seq : Nat)
  /-- SAFFW_COMMAND (R166). Once its waits are met, takes elements from EP0 and writes them to the enumerated EP1
      positions. -/
  | saffwCommand (seq : Nat)
  /-- SIND_COMMAND (R167). Reads EP0 elements at positions given by linked indices and delivers them to EP1. -/
  | sindCommand (seq : Nat)
  /-- SINDW_COMMAND (R167). Writes EP0 elements to EP1 positions given by linked indices. -/
  | sindwCommand (seq : Nat)
  /-- SREC_COMMAND (R168). Sends initial tokens, loops N tokens from an output port back to an input port and sends
      the last I to the final endpoint. -/
  | srecCommand (seq : Nat)
  /-- SFILL_COMMAND (R169). Writes the AUX0 pattern to each element of EP1. -/
  | sfillCommand (seq : Nat)
  /-- SMC_COMMAND (R170). Multicasts EP0's elements to every granted destination of its set on a multicast tree. -/
  | smcCommand (seq : Nat)
  /-- SGROW_COMMAND (R167). Reads one row of elements for each linked index and delivers them to EP1. -/
  | sgrowCommand (seq : Nat)
  /-- SRED_COMMAND (R171). Sends each source element as a read-modify-write update to its destination's home. -/
  | sredCommand (seq : Nat)
  /-- SATM_COMMAND (R171). Sends atomic updates to destination elements and returns the old values to the AUX0
      endpoint. -/
  | satmCommand (seq : Nat)
  /-- SCPY_COMMAND (R172). Copies EP0's enumerated elements densely into EP1. -/
  | scpyCommand (seq : Nat)
  /-- SBAR_COMMAND (R173). Waits until every earlier writing command of the slot has retired, then retires. -/
  | sbarCommand (seq : Nat)
  /-- STAP_COMMAND (R174). Sets a tap that arrives on its barrier when the tapped command's last-element marker
      reaches its destination. -/
  | stapCommand (seq : Nat)
  /-- SFILT_COMMAND (R349). Installs a route-filter entry in every router on the route from EP0 to EP1. -/
  | sfiltCommand (seq : Nat)
  /-- SMETA_COMMAND (R166). Streams sparsity metadata from EP0 to an MMS4 metadata port. -/
  | smetaCommand (seq : Nat)
  /-- STOK_COMMAND (R176). Sends one control token carrying AUX0 to EP1 and optionally requests an event increment
      there. -/
  | stokCommand (seq : Nat)
  /-- STREAM_TOKEN_TRANSFER (R162). A running command moves one token or 64 bytes against a credit toward its
      destination. -/
  | streamTokenTransfer (seq : Nat)
  /-- STREAM_RETIRE (R182). A command that has performed its writes retires, signals its events, arrives on its
      binding and posts any completion record. -/
  | streamRetire (seq : Nat)
  /-- REMOTE_TOKEN_ARRIVAL (R176). A STOK token or remote-port element reaches its destination slot, incrementing the
      requested event, or is dropped with a fault when no task runs there. -/
  | remoteTokenArrival (k : Nat)
  /-- PORT_TOKEN_ENTRY (R276). A token or marker enters an input port, taking TAG = PR, a marker advancing PR. -/
  | portTokenEntry (port : Nat)
  /-- BARE_MARKER_DISCARD (R266). A bare last-element marker is removed in the ac it reaches the head of an input
      port. -/
  | bareMarkerDiscard (port : Nat)
  /-- TOKEN_BUFFER_ENTRY (R271). A result on an inter-group link or to an output port enters its buffer after its
      latency and hops. -/
  | tokenBufferEntry (k : Nat)
  /-- GROUP_FIRING (R273). A ready group takes its head tokens and each of its slots executes DLY ac later. -/
  | groupFiring (group : Nat)
  /-- MARKER_FIRING (R277). A group passes marker r through its MT = 0 slots, which perform their marker actions,
      snapshot and send the marker on. -/
  | markerFiring (group : Nat)
  /-- MARKER_THROUGH (R277). An MT = 1 slot takes the first marker of a round at any operand and sends it on without
      snapshot. -/
  | markerThrough (slot : Nat) (opnd : Nat)
  /-- MMS4_PHASE (R202). An MMS4 slot takes the tokens of phase 1 or 2 of its step when they stand at its operand
      heads. -/
  | mms4Phase (slot : Nat)
  /-- MATRIX_STEP_LAND (R204). A matrix step's sum lands on the accumulator at the end of its last ac and kb advances. -/
  | matrixStepLand (slot : Nat)
  /-- IRREGULAR_EMIT (R211). An irregular operator emits its next token from its run or emission queue, one per ac. -/
  | irregularEmit (slot : Nat)
  /-- ENGINE_COMMAND_DEQUEUE (R221). An array, chain or encode command leaves its queue for its engine or channel and
      is checked. -/
  | engineCommandDequeue (queue : Nat)
  /-- CFG (R223). Loads a block into the quadrant's configuration store, resetting operator state and discarding port
      tokens. -/
  | cfg
  /-- RUN (R224). Puts the quadrant in RUN so it takes tokens and fires. -/
  | run
  /-- DRN (R225). Stops the quadrant's input ports and lets the region fire to drained. -/
  | drn
  /-- REGION_DRAINED (R225). The draining region can fire no more, enters DRAINED and DRN retires. -/
  | regionDrained
  /-- QUI (R226). Asks for the region's state and quiescence, probing at once or waiting. -/
  | qui
  /-- QUI_ANSWER (R226). Once the region is quiescent, the QUI answer is posted to sts. -/
  | quiAnswer
  /-- MRK (R227). Appends an end-of-round marker to each input port of its mask. -/
  | mrk
  /-- PRT (R228). Posts an answer about one port's tokens, marker and bound command. -/
  | prt
  /-- ORD (R230). Copies chain steps from the arena into the order program. -/
  | ord
  /-- CRUN (R231). Starts running steps FIRST to LAST of the order program on the boundary. -/
  | crun
  /-- CHAIN_STEP_KEEP (R423). Executes a KEEP step, extending the tail extent by I. -/
  | chainStepKeep
  /-- CHAIN_STEP_SUM_INPUT (R412). Executes a SUM-INPUT step contracting the input index into the kept extent, pushing
      elements if asked. -/
  | chainStepSumInput
  /-- CHAIN_STEP_PAIR (R423). Executes a PAIR step contracting both physical indices. -/
  | chainStepPair
  /-- CSAV (R232). Writes the boundary as an image to tile store. -/
  | csav
  /-- CLOD (R232). Checks an image and loads it as the boundary. -/
  | clod
  /-- EOPN (R452). Checks a parameter block and opens an encode channel on the engine with the most free rate. -/
  | eopn (channel : Nat)
  /-- EFRM (R455). Encodes one 4:2:0 frame into a bitstream, then signals and arrives. -/
  | efrm (channel : Nat)
  /-- ECLS (R234). Waits for the channel's earlier frames, then closes the channel. -/
  | ecls (channel : Nat)
  /-- EVWAIT_COMPLETE (R239). A waiting EVWAIT takes n counts from its event and acquires. -/
  | evwaitComplete
  /-- BARW_COMPLETE (R244). A waiting BARW completes on a new phase or poison, acquiring and optionally posting an
      answer. -/
  | barwComplete
  /-- STAMP_COMPLETE (R255). STC reaches the stamp and the Y head is released. -/
  | stampComplete
  /-- TENQ_PLACED (R250). A reserved enqueue packet is placed at its destination, completing TENQ and posting any
      acknowledgement. -/
  | tenqPlaced
  /-- BARRIER_ARRIVAL (R242). An arrival of weight n is applied at the barrier's home, advancing phases as COUNT is
      reached. -/
  | barrierArrival (k : Nat)
  /-- HOME_RMW_APPLY (R307). A read-modify-write update arriving at its home is applied in home order, recorded in a
      round buffer, or journalled. -/
  | homeRmwApply (k : Nat)
  /-- ROUND_BUFFER_APPLY (R308). At completion of cut r the home re-executes the round buffer's updates and the
      delayed signals of their commands are given. -/
  | roundBufferApply
  /-- GRANULE_TOUCH (R398). An access reaching a granule's lock home acquires it, proceeds, waits or wounds the
      holder. -/
  | granuleTouch (k : Nat)
  /-- WOUND (R405). A wound reaches the holder, discarding its commands, journal and deferred acts and releasing its
      granules. -/
  | wound (k : Nat)
  /-- FAULT_REPAIR (R328). Fault service resolves a withholding notice by repatching the extent or faulting the
      command fatally. -/
  | faultRepair (k : Nat)
  /-- SHOOT_DOWN (R329). A generator applies a VC6 message clearing P of an extent and acknowledges after its old
      accesses perform. -/
  | shootDown (k : Nat)
  /-- REPATCH (R329). A generator applies a VC6 message writing new extent words and acknowledges. -/
  | repatch (k : Nat)
  /-- INVALIDATION (R330). The package manager shoots down, collects acknowledgements, moves data and repatches an
      extent. -/
  | invalidation (k : Nat)
  /-- DRAIN_LIMIT_EXPIRY (R327). A withholding count reaching the drain limit gates the task, rolls back its region
      and saves it to wait for service. -/
  | drainLimitExpiry
  /-- CONFIG_SCRUB (R339). The scrubber reads configuration words, correcting single-bit errors and freezing and
      reloading a corrupted region. -/
  | configScrub
  /-- STATION_FAILURE (R358). A failed UALink station's traffic moves to the die's other stations, or unreachable
      streams fault. -/
  | stationFailure (die : Nat) (station : Nat)
  /-- TAIL (R382). A host write of a queue's TAIL register makes new packets fetchable or sets ERR, landing in a
      shadow while switched out. -/
  | tail (queue : Nat) (value : Nat)
  /-- REGISTER_WRITE (R382). Firmware writes a control register that has no behaviour of its own, such as a limit or
      ERR. -/
  | registerWrite (reg : Nat) (value : Nat)
  /-- PACKET_FETCH (R382). The package dispatcher fetches a launch packet from a ring and enqueues its record or
      refuses it. -/
  | packetFetch (queue : Nat)
  /-- ENQUEUE_PACKET_ARRIVAL (R384). An enqueue packet is placed in an enqueue queue and its template is read to form
      a record. -/
  | enqueuePacketArrival (k : Nat)
  /-- RACK_PACKET_ARRIVAL (R385). A launch packet on a rack queue is accepted or refused and answered with a residency
      report. -/
  | rackPacketArrival (queue : Nat) (packet : Nat)
  /-- SWITCH_OUT (R383). A host queue is switched out, stopping fetch and freezing PROGRESS. -/
  | switchOut (queue : Nat)
  /-- SWITCH_IN (R383). A host queue is switched in, its shadow becoming TAIL and being checked. -/
  | switchIn (queue : Nat)
  /-- BATCH_HANDOUT (R387). The package dispatcher chooses a record and hands a batch of its tasks to a die. -/
  | batchHandout
  /-- TASK_DISPATCH (R388). A die dispatcher takes the front task of the best class for a free slot. -/
  | taskDispatch (die : Nat)
  /-- TASK_BIND (R389). The loader forms the region table, loads the block, writes the image and sets entry registers. -/
  | taskBind
  /-- TASK_ENTRY (R392). The bound task's heads make their first issue, at START or late as LATE gives. -/
  | taskEntry
  /-- PREEMPTION_REQUEST (R390). A die dispatcher requests pre-emption of a running task of a higher class, setting
      PREQ. -/
  | preemptionRequest (die : Nat)
  /-- SOURCE_GATING (R439). After GRACE, the task's heads stop, sources stop at element boundaries and the region
      fires to gating quiescence. -/
  | sourceGating
  /-- GATING_LIMIT_EXPIRY (R441). The gating limit expires and the region part of the record takes the last complete
      cut. -/
  | gatingLimitExpiry
  /-- TASK_RESTORE (R448). A saved task is rebuilt on a slot of its die and resumes, held deliveries forwarded. -/
  | taskRestore
  /-- DEADLINE_EXPIRY (R393). STC reaches a task's deadline and cause 0x10 becomes pending. -/
  | deadlineExpiry
  /-- ABORT (R393). Firmware aborts a task, discarding its commands, journal and tokens and ending it with code 0x01. -/
  | abort
  /-- REMOTE_EVENT_INCREMENT (R378). A completion event word naming another package takes effect there on arrival. -/
  | remoteEventIncrement (k : Nat)
  /-- SESSION_RELEASE (R451). System software releases a session, which is discarded once no record or saved task
      names it. -/
  | sessionRelease (sid : Nat)
  /-- POWER_GOOD (R467). Power-good puts the package in stage 0 with STC held at 0. -/
  | powerGood
  /-- FIRMWARE_VERIFY (R470). A die's firmware image is checked against fused key digests, signatures and SVN,
      entering stage 1 or failing. -/
  | firmwareVerify (die : Nat)
  /-- HBM_TRAINING_COMPLETE (R467). A die's stacks finish training and the die enters stage 2 once allowed. -/
  | hbmTrainingComplete (die : Nat)
  /-- LINK_TRAINING_COMPLETE (R467). UALink and Ultra Ethernet train and the pod descriptor is read, entering stage 3. -/
  | linkTrainingComplete
  /-- FIRMWARE_UPDATE (R470). A signed update image is verified and loaded or refused whole. -/
  | firmwareUpdate
  /-- ATTESTATION_REQUEST (R471). The package manager returns a signed attestation report with digests, SVNs,
      retirement and a nonce. -/
  | attestationRequest (nonce : Nat)
  /-- AGEING_SAMPLE (R472). Monitors are sampled every 2^28 ac and margins replanned, marking failing parts for
      retirement. -/
  | ageingSample
  /-- RETIREMENT (R463). A marked PE or tile is retired once no task is bound there. -/
  | retirement (k : Nat)
  /-- SOFT_TEMPERATURE_LIMIT (R473). A die passing its soft temperature limit receives no further batches until
      cooled. -/
  | softTemperatureLimit (die : Nat)
  /-- HARD_TEMPERATURE_LIMIT (R473). At the hard temperature limit the package removes power and restarts at stage 0. -/
  | hardTemperatureLimit
  /-- PACKAGE_LEAVES_POD (R361). A destination package leaves the pod, so a TENQ whose reservation was granted is not
      placed and with ACK = 1 answers RESULT 11. -/
  | packageLeavesPod (pkg : Nat)
  deriving DecidableEq, Repr, Inhabited

end Sys2Proof
end

