-- ==== Sys2Proof/WellFormed.lean ====
section
/-! DEFINITION. The checks of an instruction beside its fixed bits: the latency class, predicate destinations and the
reserved values of used fields (R20, R31). An instruction that fails one is an illegal encoding. -/

namespace Sys2Proof

/-- R19: the class a LAT code names, in S issue cycles. -/
def latClass (l : Fin 8) : Nat :=
  match l.val with
  | 0 => 1 | 1 => 2 | 2 => 3 | 3 => 4 | 4 => 6 | 5 => 8 | 6 => 12 | _ => 16

/-- R13: the objects of a barrier level, by SCOPE code (R155); none for a reserved code. -/
def scopeObjects : Nat → Nat
  | 1 => 16 | 2 => 16 | 3 => 64 | 4 => 64 | 5 => 32 | _ => 0


/-- The encoded class and the least class of an instruction that has a result (R20, R55). -/
def Instr.classes : Instr → Option (Nat × Nat)
  | .add _ _ _ _ lat => some (latClass lat, 1)
  | .sub _ _ _ _ lat => some (latClass lat, 1)
  | .mul _ _ _ _ lat => some (latClass lat, 3)
  | .mulh _ _ _ _ lat => some (latClass lat, 3)
  | .mulhu _ _ _ _ lat => some (latClass lat, 3)
  | .div _ _ _ _ lat => some (latClass lat, 16)
  | .divu _ _ _ _ lat => some (latClass lat, 16)
  | .rem _ _ _ _ lat => some (latClass lat, 16)
  | .remu _ _ _ _ lat => some (latClass lat, 16)
  | .and _ _ _ _ lat => some (latClass lat, 1)
  | .or _ _ _ _ lat => some (latClass lat, 1)
  | .xor _ _ _ _ lat => some (latClass lat, 1)
  | .andn _ _ _ _ lat => some (latClass lat, 1)
  | .shl _ _ _ _ lat => some (latClass lat, 1)
  | .shr _ _ _ _ lat => some (latClass lat, 1)
  | .sar _ _ _ _ lat => some (latClass lat, 1)
  | .min _ _ _ _ lat => some (latClass lat, 1)
  | .max _ _ _ _ lat => some (latClass lat, 1)
  | .minu _ _ _ _ lat => some (latClass lat, 1)
  | .maxu _ _ _ _ lat => some (latClass lat, 1)
  | .addi _ _ _ _ lat => some (latClass lat, 1)
  | .muli _ _ _ _ lat => some (latClass lat, 3)
  | .andi _ _ _ _ lat => some (latClass lat, 1)
  | .ori _ _ _ _ lat => some (latClass lat, 1)
  | .xori _ _ _ _ lat => some (latClass lat, 1)
  | .shli _ _ _ lat => some (latClass lat, 1)
  | .shri _ _ _ lat => some (latClass lat, 1)
  | .sari _ _ _ lat => some (latClass lat, 1)
  | .li _ _ _ lat => some (latClass lat, 1)
  | .clz _ _ _ lat => some (latClass lat, 1)
  | .ctz _ _ _ lat => some (latClass lat, 1)
  | .popc _ _ _ lat => some (latClass lat, 1)
  | .ext _ _ _ _ lat => some (latClass lat, 1)
  | .ins _ _ _ _ lat => some (latClass lat, 1)
  | .sel _ _ _ lat => some (latClass lat, 1)
  | .madi _ _ _ _ _ lat => some (latClass lat, 3)
  | .cmp _ _ _ _ _ lat => some (latClass lat, 1)
  | .cmpi _ _ _ _ _ lat => some (latClass lat, 1)
  | .fcmp _ _ _ _ _ lat => some (latClass lat, 2)
  | .plog _ _ _ _ _ _ _ lat => some (latClass lat, 1)
  | .fadd _ _ _ _ lat => some (latClass lat, 4)
  | .fsub _ _ _ _ lat => some (latClass lat, 4)
  | .fmul _ _ _ _ lat => some (latClass lat, 4)
  | .ffma _ _ _ _ lat => some (latClass lat, 4)
  | .fdiv _ _ _ _ lat => some (latClass lat, 12)
  | .fsqrt _ _ _ lat => some (latClass lat, 16)
  | .fmin _ _ _ _ lat => some (latClass lat, 2)
  | .fmax _ _ _ _ lat => some (latClass lat, 2)
  | .fcvtRint _ _ _ lat => some (latClass lat, 4)
  | .fcvtRound32 _ _ _ lat => some (latClass lat, 4)
  | .fcvtToint _ _ _ lat => some (latClass lat, 4)
  | .fcvtTouint _ _ _ lat => some (latClass lat, 4)
  | .fcvtFromint _ _ _ lat => some (latClass lat, 4)
  | .fcvtFromuint _ _ _ lat => some (latClass lat, 4)
  | .fcvtTofp32 _ _ _ lat => some (latClass lat, 4)
  | .fcvtFromfp32 _ _ _ lat => some (latClass lat, 4)
  | .fcvtTofp16 _ _ _ lat => some (latClass lat, 4)
  | .fcvtFromfp16 _ _ _ lat => some (latClass lat, 4)
  | .fcvtTobf16 _ _ _ lat => some (latClass lat, 4)
  | .fcvtFrombf16 _ _ _ lat => some (latClass lat, 4)
  | .fcvtToe4m3 _ _ _ lat => some (latClass lat, 4)
  | .fcvtFrome4m3 _ _ _ lat => some (latClass lat, 4)
  | .fcvtToe5m2 _ _ _ lat => some (latClass lat, 4)
  | .fcvtFrome5m2 _ _ _ lat => some (latClass lat, 4)
  | .fcvtTotap8 _ _ _ lat => some (latClass lat, 4)
  | .fcvtFromtap8 _ _ _ lat => some (latClass lat, 4)
  | .fcvtTotap6 _ _ _ lat => some (latClass lat, 4)
  | .fcvtFromtap6 _ _ _ lat => some (latClass lat, 4)
  | .fmvi _ _ _ lat => some (latClass lat, 1)
  | .fmvfToS _ _ _ lat => some (latClass lat, 1)
  | .fmvfToF _ _ _ lat => some (latClass lat, 1)
  | .dbrp _ _ lat => some (latClass lat, 1)
  | .call _ _ _ _ lat => some (latClass lat, 1)
  | .spld _ _ _ _ lat => some (latClass lat, 1)
  | .ldt _ _ _ _ lat => some (latClass lat, 4)
  | .popf _ _ _ lat => some (latClass lat, 2)
  | .sysr _ _ _ lat => some (latClass lat, 1)
  | .br _ _ _ => none
  | .brp _ _ _ => none
  | .ret _ _ => none
  | .nop _ => none
  | .spst _ _ _ _ => none
  | .stt _ _ _ _ => none
  | .pushf _ _ _ => none
  | .sysw _ _ _ => none
  | .syswSlipwin _ _ => none
  | .syswTrappcS _ _ => none
  | .syswTstatus _ _ => none
  | .trap _ _ _ => none
  | .tret _ => none
  | .pfx _ _ _ _ => none
  | .saff _ _ _ _ => none
  | .saffw _ _ _ _ => none
  | .sind _ _ _ _ => none
  | .sindw _ _ _ _ => none
  | .srec _ _ _ _ => none
  | .sfill _ _ _ _ _ => none
  | .smc _ _ _ _ => none
  | .sgrow _ _ _ _ => none
  | .sred _ _ _ _ => none
  | .satm _ _ _ _ => none
  | .scpy _ _ _ _ => none
  | .sbar _ _ _ _ => none
  | .swinDecl _ _ _ _ _ => none
  | .swinTake _ _ _ => none
  | .swinGive _ _ _ => none
  | .stap _ _ _ _ => none
  | .sfilt _ _ _ _ => none
  | .smeta _ _ _ _ => none
  | .stok _ _ _ _ _ => none
  | .sclose _ _ => none
  | .sqryCommand _ _ => none
  | .sqryWindrow _ _ => none
  | .sdesc _ _ _ _ => none
  | .acfg _ _ _ _ => none
  | .arun _ _ => none
  | .adrn _ _ => none
  | .aqui _ _ _ => none
  | .amrk _ _ _ => none
  | .aprt _ _ _ => none
  | .chbd _ _ _ => none
  | .chord _ _ _ _ => none
  | .chrun _ _ _ => none
  | .chsv _ _ _ => none
  | .chld _ _ _ => none
  | .enco _ _ _ _ => none
  | .encf _ _ _ _ => none
  | .encc _ _ _ => none
  | .evsig _ _ _ => none
  | .evwait _ _ _ => none
  | .evclr _ _ _ => none
  | .bari _ _ => none
  | .bara _ _ _ => none
  | .barw _ _ _ _ => none
  | .barq _ _ => none
  | .fence _ _ => none
  | .acq _ _ => none
  | .rel _ _ => none
  | .tenq _ _ _ _ => none
  | .tend _ _ => none
  | .tyld _ => none
  | .tspwn _ _ _ => none
  | .tpollTask _ => none
  | .tpollDie _ => none
  | .lkprb _ _ _ => none
  | .stamp _ _ _ => none
  | .dln _ _ _ => none
  | .diag _ => none
  | .resultLand _ => none
  | .tileStoreBankGrant _ => none
  | .trapEntry => none
  | .streamDequeue => none
  | .startStampReached _ => none
  | .saffCommand _ => none
  | .saffwCommand _ => none
  | .sindCommand _ => none
  | .sindwCommand _ => none
  | .srecCommand _ => none
  | .sfillCommand _ => none
  | .smcCommand _ => none
  | .sgrowCommand _ => none
  | .sredCommand _ => none
  | .satmCommand _ => none
  | .scpyCommand _ => none
  | .sbarCommand _ => none
  | .stapCommand _ => none
  | .sfiltCommand _ => none
  | .smetaCommand _ => none
  | .stokCommand _ => none
  | .streamTokenTransfer _ => none
  | .streamRetire _ => none
  | .remoteTokenArrival _ => none
  | .portTokenEntry _ => none
  | .bareMarkerDiscard _ => none
  | .tokenBufferEntry _ => none
  | .groupFiring _ => none
  | .markerFiring _ => none
  | .markerThrough _ _ => none
  | .mms4Phase _ => none
  | .matrixStepLand _ => none
  | .irregularEmit _ => none
  | .engineCommandDequeue _ => none
  | .cfg => none
  | .run => none
  | .drn => none
  | .regionDrained => none
  | .qui => none
  | .quiAnswer => none
  | .mrk => none
  | .prt => none
  | .ord => none
  | .crun => none
  | .chainStepKeep => none
  | .chainStepSumInput => none
  | .chainStepPair => none
  | .csav => none
  | .clod => none
  | .eopn _ => none
  | .efrm _ => none
  | .ecls _ => none
  | .evwaitComplete => none
  | .barwComplete => none
  | .stampComplete => none
  | .tenqPlaced => none
  | .barrierArrival _ => none
  | .homeRmwApply _ => none
  | .roundBufferApply => none
  | .granuleTouch _ => none
  | .wound _ => none
  | .faultRepair _ => none
  | .shootDown _ => none
  | .repatch _ => none
  | .invalidation _ => none
  | .drainLimitExpiry => none
  | .configScrub => none
  | .stationFailure _ _ => none
  | .tail _ _ => none
  | .registerWrite _ _ => none
  | .packetFetch _ => none
  | .enqueuePacketArrival _ => none
  | .rackPacketArrival _ _ => none
  | .switchOut _ => none
  | .switchIn _ => none
  | .batchHandout => none
  | .taskDispatch _ => none
  | .taskBind => none
  | .taskEntry => none
  | .preemptionRequest _ => none
  | .sourceGating => none
  | .gatingLimitExpiry => none
  | .taskRestore => none
  | .deadlineExpiry => none
  | .abort => none
  | .remoteEventIncrement _ => none
  | .sessionRelease _ => none
  | .powerGood => none
  | .firmwareVerify _ => none
  | .hbmTrainingComplete _ => none
  | .linkTrainingComplete => none
  | .firmwareUpdate => none
  | .attestationRequest _ => none
  | .ageingSample => none
  | .retirement _ => none
  | .softTemperatureLimit _ => none
  | .hardTemperatureLimit => none
  | .packageLeavesPod _ => none

/-- The head that executes an instruction; a prefix goes with the head it names; an event has none. -/
def Instr.head? : Instr → Option Head
  | .pfx _ _ _ t => if t.val = 0 then some .s else if t.val = 1 then some .m else if t.val = 2 then some .a else none
  | .add _ _ _ _ _ => some .s
  | .sub _ _ _ _ _ => some .s
  | .mul _ _ _ _ _ => some .s
  | .mulh _ _ _ _ _ => some .s
  | .mulhu _ _ _ _ _ => some .s
  | .div _ _ _ _ _ => some .s
  | .divu _ _ _ _ _ => some .s
  | .rem _ _ _ _ _ => some .s
  | .remu _ _ _ _ _ => some .s
  | .and _ _ _ _ _ => some .s
  | .or _ _ _ _ _ => some .s
  | .xor _ _ _ _ _ => some .s
  | .andn _ _ _ _ _ => some .s
  | .shl _ _ _ _ _ => some .s
  | .shr _ _ _ _ _ => some .s
  | .sar _ _ _ _ _ => some .s
  | .min _ _ _ _ _ => some .s
  | .max _ _ _ _ _ => some .s
  | .minu _ _ _ _ _ => some .s
  | .maxu _ _ _ _ _ => some .s
  | .addi _ _ _ _ _ => some .s
  | .muli _ _ _ _ _ => some .s
  | .andi _ _ _ _ _ => some .s
  | .ori _ _ _ _ _ => some .s
  | .xori _ _ _ _ _ => some .s
  | .shli _ _ _ _ => some .s
  | .shri _ _ _ _ => some .s
  | .sari _ _ _ _ => some .s
  | .li _ _ _ _ => some .s
  | .clz _ _ _ _ => some .s
  | .ctz _ _ _ _ => some .s
  | .popc _ _ _ _ => some .s
  | .ext _ _ _ _ _ => some .s
  | .ins _ _ _ _ _ => some .s
  | .sel _ _ _ _ => some .s
  | .madi _ _ _ _ _ _ => some .s
  | .cmp _ _ _ _ _ _ => some .s
  | .cmpi _ _ _ _ _ _ => some .s
  | .fcmp _ _ _ _ _ _ => some .s
  | .plog _ _ _ _ _ _ _ _ => some .s
  | .fadd _ _ _ _ _ => some .s
  | .fsub _ _ _ _ _ => some .s
  | .fmul _ _ _ _ _ => some .s
  | .ffma _ _ _ _ _ => some .s
  | .fdiv _ _ _ _ _ => some .s
  | .fsqrt _ _ _ _ => some .s
  | .fmin _ _ _ _ _ => some .s
  | .fmax _ _ _ _ _ => some .s
  | .fcvtRint _ _ _ _ => some .s
  | .fcvtRound32 _ _ _ _ => some .s
  | .fcvtToint _ _ _ _ => some .s
  | .fcvtTouint _ _ _ _ => some .s
  | .fcvtFromint _ _ _ _ => some .s
  | .fcvtFromuint _ _ _ _ => some .s
  | .fcvtTofp32 _ _ _ _ => some .s
  | .fcvtFromfp32 _ _ _ _ => some .s
  | .fcvtTofp16 _ _ _ _ => some .s
  | .fcvtFromfp16 _ _ _ _ => some .s
  | .fcvtTobf16 _ _ _ _ => some .s
  | .fcvtFrombf16 _ _ _ _ => some .s
  | .fcvtToe4m3 _ _ _ _ => some .s
  | .fcvtFrome4m3 _ _ _ _ => some .s
  | .fcvtToe5m2 _ _ _ _ => some .s
  | .fcvtFrome5m2 _ _ _ _ => some .s
  | .fcvtTotap8 _ _ _ _ => some .s
  | .fcvtFromtap8 _ _ _ _ => some .s
  | .fcvtTotap6 _ _ _ _ => some .s
  | .fcvtFromtap6 _ _ _ _ => some .s
  | .fmvi _ _ _ _ => some .s
  | .fmvfToS _ _ _ _ => some .s
  | .fmvfToF _ _ _ _ => some .s
  | .br _ _ _ => some .s
  | .brp _ _ _ => some .s
  | .dbrp _ _ _ => some .s
  | .call _ _ _ _ _ => some .s
  | .ret _ _ => some .s
  | .nop _ => some .s
  | .spld _ _ _ _ _ => some .s
  | .spst _ _ _ _ => some .s
  | .ldt _ _ _ _ _ => some .s
  | .stt _ _ _ _ => some .s
  | .popf _ _ _ _ => some .s
  | .pushf _ _ _ => some .s
  | .sysr _ _ _ _ => some .s
  | .sysw _ _ _ => some .s
  | .syswSlipwin _ _ => some .s
  | .syswTrappcS _ _ => some .s
  | .syswTstatus _ _ => some .s
  | .trap _ _ _ => some .s
  | .tret _ => some .s
  | .saff _ _ _ _ => some .m
  | .saffw _ _ _ _ => some .m
  | .sind _ _ _ _ => some .m
  | .sindw _ _ _ _ => some .m
  | .srec _ _ _ _ => some .m
  | .sfill _ _ _ _ _ => some .m
  | .smc _ _ _ _ => some .m
  | .sgrow _ _ _ _ => some .m
  | .sred _ _ _ _ => some .m
  | .satm _ _ _ _ => some .m
  | .scpy _ _ _ _ => some .m
  | .sbar _ _ _ _ => some .m
  | .swinDecl _ _ _ _ _ => some .m
  | .swinTake _ _ _ => some .m
  | .swinGive _ _ _ => some .m
  | .stap _ _ _ _ => some .m
  | .sfilt _ _ _ _ => some .m
  | .smeta _ _ _ _ => some .m
  | .stok _ _ _ _ _ => some .m
  | .sclose _ _ => some .m
  | .sqryCommand _ _ => some .m
  | .sqryWindrow _ _ => some .m
  | .sdesc _ _ _ _ => some .m
  | .acfg _ _ _ _ => some .a
  | .arun _ _ => some .a
  | .adrn _ _ => some .a
  | .aqui _ _ _ => some .a
  | .amrk _ _ _ => some .a
  | .aprt _ _ _ => some .a
  | .chbd _ _ _ => some .a
  | .chord _ _ _ _ => some .a
  | .chrun _ _ _ => some .a
  | .chsv _ _ _ => some .a
  | .chld _ _ _ => some .a
  | .enco _ _ _ _ => some .a
  | .encf _ _ _ _ => some .a
  | .encc _ _ _ => some .a
  | .evsig _ _ _ => some .y
  | .evwait _ _ _ => some .y
  | .evclr _ _ _ => some .y
  | .bari _ _ => some .y
  | .bara _ _ _ => some .y
  | .barw _ _ _ _ => some .y
  | .barq _ _ => some .y
  | .fence _ _ => some .y
  | .acq _ _ => some .y
  | .rel _ _ => some .y
  | .tenq _ _ _ _ => some .y
  | .tend _ _ => some .y
  | .tyld _ => some .y
  | .tspwn _ _ _ => some .y
  | .tpollTask _ => some .y
  | .tpollDie _ => some .y
  | .lkprb _ _ _ => some .y
  | .stamp _ _ _ => some .y
  | .dln _ _ _ => some .y
  | .diag _ => some .y
  | .resultLand _ => none
  | .tileStoreBankGrant _ => none
  | .trapEntry => none
  | .streamDequeue => none
  | .startStampReached _ => none
  | .saffCommand _ => none
  | .saffwCommand _ => none
  | .sindCommand _ => none
  | .sindwCommand _ => none
  | .srecCommand _ => none
  | .sfillCommand _ => none
  | .smcCommand _ => none
  | .sgrowCommand _ => none
  | .sredCommand _ => none
  | .satmCommand _ => none
  | .scpyCommand _ => none
  | .sbarCommand _ => none
  | .stapCommand _ => none
  | .sfiltCommand _ => none
  | .smetaCommand _ => none
  | .stokCommand _ => none
  | .streamTokenTransfer _ => none
  | .streamRetire _ => none
  | .remoteTokenArrival _ => none
  | .portTokenEntry _ => none
  | .bareMarkerDiscard _ => none
  | .tokenBufferEntry _ => none
  | .groupFiring _ => none
  | .markerFiring _ => none
  | .markerThrough _ _ => none
  | .mms4Phase _ => none
  | .matrixStepLand _ => none
  | .irregularEmit _ => none
  | .engineCommandDequeue _ => none
  | .cfg => none
  | .run => none
  | .drn => none
  | .regionDrained => none
  | .qui => none
  | .quiAnswer => none
  | .mrk => none
  | .prt => none
  | .ord => none
  | .crun => none
  | .chainStepKeep => none
  | .chainStepSumInput => none
  | .chainStepPair => none
  | .csav => none
  | .clod => none
  | .eopn _ => none
  | .efrm _ => none
  | .ecls _ => none
  | .evwaitComplete => none
  | .barwComplete => none
  | .stampComplete => none
  | .tenqPlaced => none
  | .barrierArrival _ => none
  | .homeRmwApply _ => none
  | .roundBufferApply => none
  | .granuleTouch _ => none
  | .wound _ => none
  | .faultRepair _ => none
  | .shootDown _ => none
  | .repatch _ => none
  | .invalidation _ => none
  | .drainLimitExpiry => none
  | .configScrub => none
  | .stationFailure _ _ => none
  | .tail _ _ => none
  | .registerWrite _ _ => none
  | .packetFetch _ => none
  | .enqueuePacketArrival _ => none
  | .rackPacketArrival _ _ => none
  | .switchOut _ => none
  | .switchIn _ => none
  | .batchHandout => none
  | .taskDispatch _ => none
  | .taskBind => none
  | .taskEntry => none
  | .preemptionRequest _ => none
  | .sourceGating => none
  | .gatingLimitExpiry => none
  | .taskRestore => none
  | .deadlineExpiry => none
  | .abort => none
  | .remoteEventIncrement _ => none
  | .sessionRelease _ => none
  | .powerGood => none
  | .firmwareVerify _ => none
  | .hbmTrainingComplete _ => none
  | .linkTrainingComplete => none
  | .firmwareUpdate => none
  | .attestationRequest _ => none
  | .ageingSample => none
  | .retirement _ => none
  | .softTemperatureLimit _ => none
  | .hardTemperatureLimit => none
  | .packageLeavesPod _ => none

/-- An instruction of two words (R33). -/
def Instr.long : Instr → Bool
  | .add _ _ _ _ _ => false
  | .sub _ _ _ _ _ => false
  | .mul _ _ _ _ _ => false
  | .mulh _ _ _ _ _ => false
  | .mulhu _ _ _ _ _ => false
  | .div _ _ _ _ _ => false
  | .divu _ _ _ _ _ => false
  | .rem _ _ _ _ _ => false
  | .remu _ _ _ _ _ => false
  | .and _ _ _ _ _ => false
  | .or _ _ _ _ _ => false
  | .xor _ _ _ _ _ => false
  | .andn _ _ _ _ _ => false
  | .shl _ _ _ _ _ => false
  | .shr _ _ _ _ _ => false
  | .sar _ _ _ _ _ => false
  | .min _ _ _ _ _ => false
  | .max _ _ _ _ _ => false
  | .minu _ _ _ _ _ => false
  | .maxu _ _ _ _ _ => false
  | .addi _ _ _ _ _ => true
  | .muli _ _ _ _ _ => true
  | .andi _ _ _ _ _ => true
  | .ori _ _ _ _ _ => true
  | .xori _ _ _ _ _ => true
  | .shli _ _ _ _ => false
  | .shri _ _ _ _ => false
  | .sari _ _ _ _ => false
  | .li _ _ _ _ => true
  | .clz _ _ _ _ => false
  | .ctz _ _ _ _ => false
  | .popc _ _ _ _ => false
  | .ext _ _ _ _ _ => true
  | .ins _ _ _ _ _ => true
  | .sel _ _ _ _ => false
  | .madi _ _ _ _ _ _ => true
  | .cmp _ _ _ _ _ _ => false
  | .cmpi _ _ _ _ _ _ => true
  | .fcmp _ _ _ _ _ _ => false
  | .plog _ _ _ _ _ _ _ _ => false
  | .fadd _ _ _ _ _ => false
  | .fsub _ _ _ _ _ => false
  | .fmul _ _ _ _ _ => false
  | .ffma _ _ _ _ _ => false
  | .fdiv _ _ _ _ _ => false
  | .fsqrt _ _ _ _ => false
  | .fmin _ _ _ _ _ => false
  | .fmax _ _ _ _ _ => false
  | .fcvtRint _ _ _ _ => false
  | .fcvtRound32 _ _ _ _ => false
  | .fcvtToint _ _ _ _ => false
  | .fcvtTouint _ _ _ _ => false
  | .fcvtFromint _ _ _ _ => false
  | .fcvtFromuint _ _ _ _ => false
  | .fcvtTofp32 _ _ _ _ => false
  | .fcvtFromfp32 _ _ _ _ => false
  | .fcvtTofp16 _ _ _ _ => false
  | .fcvtFromfp16 _ _ _ _ => false
  | .fcvtTobf16 _ _ _ _ => false
  | .fcvtFrombf16 _ _ _ _ => false
  | .fcvtToe4m3 _ _ _ _ => false
  | .fcvtFrome4m3 _ _ _ _ => false
  | .fcvtToe5m2 _ _ _ _ => false
  | .fcvtFrome5m2 _ _ _ _ => false
  | .fcvtTotap8 _ _ _ _ => false
  | .fcvtFromtap8 _ _ _ _ => false
  | .fcvtTotap6 _ _ _ _ => false
  | .fcvtFromtap6 _ _ _ _ => false
  | .fmvi _ _ _ _ => true
  | .fmvfToS _ _ _ _ => false
  | .fmvfToF _ _ _ _ => false
  | .br _ _ _ => false
  | .brp _ _ _ => false
  | .dbrp _ _ _ => false
  | .call _ _ _ _ _ => true
  | .ret _ _ => false
  | .nop _ => false
  | .spld _ _ _ _ _ => false
  | .spst _ _ _ _ => false
  | .ldt _ _ _ _ _ => false
  | .stt _ _ _ _ => false
  | .popf _ _ _ _ => false
  | .pushf _ _ _ => false
  | .sysr _ _ _ _ => false
  | .sysw _ _ _ => false
  | .syswSlipwin _ _ => false
  | .syswTrappcS _ _ => false
  | .syswTstatus _ _ => false
  | .trap _ _ _ => false
  | .tret _ => false
  | .pfx _ _ _ _ => false
  | .saff _ _ _ _ => false
  | .saffw _ _ _ _ => false
  | .sind _ _ _ _ => false
  | .sindw _ _ _ _ => false
  | .srec _ _ _ _ => false
  | .sfill _ _ _ _ _ => true
  | .smc _ _ _ _ => false
  | .sgrow _ _ _ _ => false
  | .sred _ _ _ _ => false
  | .satm _ _ _ _ => false
  | .scpy _ _ _ _ => false
  | .sbar _ _ _ _ => false
  | .swinDecl _ _ _ _ _ => true
  | .swinTake _ _ _ => true
  | .swinGive _ _ _ => true
  | .stap _ _ _ _ => false
  | .sfilt _ _ _ _ => false
  | .smeta _ _ _ _ => false
  | .stok _ _ _ _ _ => true
  | .sclose _ _ => false
  | .sqryCommand _ _ => false
  | .sqryWindrow _ _ => false
  | .sdesc _ _ _ _ => false
  | .acfg _ _ _ _ => true
  | .arun _ _ => false
  | .adrn _ _ => false
  | .aqui _ _ _ => false
  | .amrk _ _ _ => false
  | .aprt _ _ _ => false
  | .chbd _ _ _ => false
  | .chord _ _ _ _ => true
  | .chrun _ _ _ => false
  | .chsv _ _ _ => false
  | .chld _ _ _ => false
  | .enco _ _ _ _ => false
  | .encf _ _ _ _ => false
  | .encc _ _ _ => false
  | .evsig _ _ _ => false
  | .evwait _ _ _ => false
  | .evclr _ _ _ => false
  | .bari _ _ => true
  | .bara _ _ _ => false
  | .barw _ _ _ _ => false
  | .barq _ _ => false
  | .fence _ _ => false
  | .acq _ _ => false
  | .rel _ _ => false
  | .tenq _ _ _ _ => false
  | .tend _ _ => false
  | .tyld _ => false
  | .tspwn _ _ _ => false
  | .tpollTask _ => false
  | .tpollDie _ => false
  | .lkprb _ _ _ => false
  | .stamp _ _ _ => false
  | .dln _ _ _ => true
  | .diag _ => false
  | .resultLand _ => false
  | .tileStoreBankGrant _ => false
  | .trapEntry => false
  | .streamDequeue => false
  | .startStampReached _ => false
  | .saffCommand _ => false
  | .saffwCommand _ => false
  | .sindCommand _ => false
  | .sindwCommand _ => false
  | .srecCommand _ => false
  | .sfillCommand _ => false
  | .smcCommand _ => false
  | .sgrowCommand _ => false
  | .sredCommand _ => false
  | .satmCommand _ => false
  | .scpyCommand _ => false
  | .sbarCommand _ => false
  | .stapCommand _ => false
  | .sfiltCommand _ => false
  | .smetaCommand _ => false
  | .stokCommand _ => false
  | .streamTokenTransfer _ => false
  | .streamRetire _ => false
  | .remoteTokenArrival _ => false
  | .portTokenEntry _ => false
  | .bareMarkerDiscard _ => false
  | .tokenBufferEntry _ => false
  | .groupFiring _ => false
  | .markerFiring _ => false
  | .markerThrough _ _ => false
  | .mms4Phase _ => false
  | .matrixStepLand _ => false
  | .irregularEmit _ => false
  | .engineCommandDequeue _ => false
  | .cfg => false
  | .run => false
  | .drn => false
  | .regionDrained => false
  | .qui => false
  | .quiAnswer => false
  | .mrk => false
  | .prt => false
  | .ord => false
  | .crun => false
  | .chainStepKeep => false
  | .chainStepSumInput => false
  | .chainStepPair => false
  | .csav => false
  | .clod => false
  | .eopn _ => false
  | .efrm _ => false
  | .ecls _ => false
  | .evwaitComplete => false
  | .barwComplete => false
  | .stampComplete => false
  | .tenqPlaced => false
  | .barrierArrival _ => false
  | .homeRmwApply _ => false
  | .roundBufferApply => false
  | .granuleTouch _ => false
  | .wound _ => false
  | .faultRepair _ => false
  | .shootDown _ => false
  | .repatch _ => false
  | .invalidation _ => false
  | .drainLimitExpiry => false
  | .configScrub => false
  | .stationFailure _ _ => false
  | .tail _ _ => false
  | .registerWrite _ _ => false
  | .packetFetch _ => false
  | .enqueuePacketArrival _ => false
  | .rackPacketArrival _ _ => false
  | .switchOut _ => false
  | .switchIn _ => false
  | .batchHandout => false
  | .taskDispatch _ => false
  | .taskBind => false
  | .taskEntry => false
  | .preemptionRequest _ => false
  | .sourceGating => false
  | .gatingLimitExpiry => false
  | .taskRestore => false
  | .deadlineExpiry => false
  | .abort => false
  | .remoteEventIncrement _ => false
  | .sessionRelease _ => false
  | .powerGood => false
  | .firmwareVerify _ => false
  | .hbmTrainingComplete _ => false
  | .linkTrainingComplete => false
  | .firmwareUpdate => false
  | .attestationRequest _ => false
  | .ageingSample => false
  | .retirement _ => false
  | .softTemperatureLimit _ => false
  | .hardTemperatureLimit => false
  | .packageLeavesPod _ => false

/-- The guard bit of an instruction, where its layout has one (R22). -/
def Instr.guard : Instr → Bool
  | .add _ _ _ g _ => g
  | .sub _ _ _ g _ => g
  | .mul _ _ _ g _ => g
  | .mulh _ _ _ g _ => g
  | .mulhu _ _ _ g _ => g
  | .div _ _ _ g _ => g
  | .divu _ _ _ g _ => g
  | .rem _ _ _ g _ => g
  | .remu _ _ _ g _ => g
  | .and _ _ _ g _ => g
  | .or _ _ _ g _ => g
  | .xor _ _ _ g _ => g
  | .andn _ _ _ g _ => g
  | .shl _ _ _ g _ => g
  | .shr _ _ _ g _ => g
  | .sar _ _ _ g _ => g
  | .min _ _ _ g _ => g
  | .max _ _ _ g _ => g
  | .minu _ _ _ g _ => g
  | .maxu _ _ _ g _ => g
  | .addi _ _ _ g _ => g
  | .muli _ _ _ g _ => g
  | .andi _ _ _ g _ => g
  | .ori _ _ _ g _ => g
  | .xori _ _ _ g _ => g
  | .shli _ _ _ _ => false
  | .shri _ _ _ _ => false
  | .sari _ _ _ _ => false
  | .li _ _ g _ => g
  | .clz _ _ g _ => g
  | .ctz _ _ g _ => g
  | .popc _ _ g _ => g
  | .ext _ _ _ g _ => g
  | .ins _ _ _ g _ => g
  | .sel _ _ _ _ => false
  | .madi _ _ _ _ g _ => g
  | .cmp _ _ _ _ g _ => g
  | .cmpi _ _ _ _ g _ => g
  | .fcmp _ _ _ _ g _ => g
  | .plog _ _ _ _ _ _ g _ => g
  | .fadd _ _ _ g _ => g
  | .fsub _ _ _ g _ => g
  | .fmul _ _ _ g _ => g
  | .ffma _ _ _ g _ => g
  | .fdiv _ _ _ g _ => g
  | .fsqrt _ _ g _ => g
  | .fmin _ _ _ g _ => g
  | .fmax _ _ _ g _ => g
  | .fcvtRint _ _ g _ => g
  | .fcvtRound32 _ _ g _ => g
  | .fcvtToint _ _ g _ => g
  | .fcvtTouint _ _ g _ => g
  | .fcvtFromint _ _ g _ => g
  | .fcvtFromuint _ _ g _ => g
  | .fcvtTofp32 _ _ g _ => g
  | .fcvtFromfp32 _ _ g _ => g
  | .fcvtTofp16 _ _ g _ => g
  | .fcvtFromfp16 _ _ g _ => g
  | .fcvtTobf16 _ _ g _ => g
  | .fcvtFrombf16 _ _ g _ => g
  | .fcvtToe4m3 _ _ g _ => g
  | .fcvtFrome4m3 _ _ g _ => g
  | .fcvtToe5m2 _ _ g _ => g
  | .fcvtFrome5m2 _ _ g _ => g
  | .fcvtTotap8 _ _ g _ => g
  | .fcvtFromtap8 _ _ g _ => g
  | .fcvtTotap6 _ _ g _ => g
  | .fcvtFromtap6 _ _ g _ => g
  | .fmvi _ _ g _ => g
  | .fmvfToS _ _ g _ => g
  | .fmvfToF _ _ g _ => g
  | .br _ _ _ => false
  | .brp _ _ _ => false
  | .dbrp _ _ _ => false
  | .call _ _ _ g _ => g
  | .ret _ g => g
  | .nop g => g
  | .spld _ _ _ g _ => g
  | .spst _ _ _ g => g
  | .ldt _ _ _ g _ => g
  | .stt _ _ _ g => g
  | .popf _ _ g _ => g
  | .pushf _ _ g => g
  | .sysr _ _ g _ => g
  | .sysw _ _ g => g
  | .syswSlipwin _ g => g
  | .syswTrappcS _ g => g
  | .syswTstatus _ g => g
  | .trap _ _ g => g
  | .tret g => g
  | .pfx _ _ _ _ => false
  | .saff _ _ _ g => g
  | .saffw _ _ _ g => g
  | .sind _ _ _ g => g
  | .sindw _ _ _ g => g
  | .srec _ _ _ g => g
  | .sfill _ _ _ _ g => g
  | .smc _ _ _ g => g
  | .sgrow _ _ _ g => g
  | .sred _ _ _ g => g
  | .satm _ _ _ g => g
  | .scpy _ _ _ g => g
  | .sbar _ _ _ g => g
  | .swinDecl _ _ _ _ g => g
  | .swinTake _ _ g => g
  | .swinGive _ _ g => g
  | .stap _ _ _ g => g
  | .sfilt _ _ _ g => g
  | .smeta _ _ _ g => g
  | .stok _ _ _ _ g => g
  | .sclose _ g => g
  | .sqryCommand _ g => g
  | .sqryWindrow _ g => g
  | .sdesc _ _ _ g => g
  | .acfg _ _ _ g => g
  | .arun _ g => g
  | .adrn _ g => g
  | .aqui _ _ g => g
  | .amrk _ _ g => g
  | .aprt _ _ g => g
  | .chbd _ _ g => g
  | .chord _ _ _ g => g
  | .chrun _ _ g => g
  | .chsv _ _ g => g
  | .chld _ _ g => g
  | .enco _ _ _ g => g
  | .encf _ _ _ g => g
  | .encc _ _ g => g
  | .evsig _ _ g => g
  | .evwait _ _ g => g
  | .evclr _ _ g => g
  | .bari _ g => g
  | .bara _ _ g => g
  | .barw _ _ _ g => g
  | .barq _ g => g
  | .fence _ g => g
  | .acq _ g => g
  | .rel _ g => g
  | .tenq _ _ _ g => g
  | .tend _ g => g
  | .tyld g => g
  | .tspwn _ _ g => g
  | .tpollTask g => g
  | .tpollDie g => g
  | .lkprb _ _ g => g
  | .stamp _ _ g => g
  | .dln _ _ g => g
  | .diag g => g
  | .resultLand _ => false
  | .tileStoreBankGrant _ => false
  | .trapEntry => false
  | .streamDequeue => false
  | .startStampReached _ => false
  | .saffCommand _ => false
  | .saffwCommand _ => false
  | .sindCommand _ => false
  | .sindwCommand _ => false
  | .srecCommand _ => false
  | .sfillCommand _ => false
  | .smcCommand _ => false
  | .sgrowCommand _ => false
  | .sredCommand _ => false
  | .satmCommand _ => false
  | .scpyCommand _ => false
  | .sbarCommand _ => false
  | .stapCommand _ => false
  | .sfiltCommand _ => false
  | .smetaCommand _ => false
  | .stokCommand _ => false
  | .streamTokenTransfer _ => false
  | .streamRetire _ => false
  | .remoteTokenArrival _ => false
  | .portTokenEntry _ => false
  | .bareMarkerDiscard _ => false
  | .tokenBufferEntry _ => false
  | .groupFiring _ => false
  | .markerFiring _ => false
  | .markerThrough _ _ => false
  | .mms4Phase _ => false
  | .matrixStepLand _ => false
  | .irregularEmit _ => false
  | .engineCommandDequeue _ => false
  | .cfg => false
  | .run => false
  | .drn => false
  | .regionDrained => false
  | .qui => false
  | .quiAnswer => false
  | .mrk => false
  | .prt => false
  | .ord => false
  | .crun => false
  | .chainStepKeep => false
  | .chainStepSumInput => false
  | .chainStepPair => false
  | .csav => false
  | .clod => false
  | .eopn _ => false
  | .efrm _ => false
  | .ecls _ => false
  | .evwaitComplete => false
  | .barwComplete => false
  | .stampComplete => false
  | .tenqPlaced => false
  | .barrierArrival _ => false
  | .homeRmwApply _ => false
  | .roundBufferApply => false
  | .granuleTouch _ => false
  | .wound _ => false
  | .faultRepair _ => false
  | .shootDown _ => false
  | .repatch _ => false
  | .invalidation _ => false
  | .drainLimitExpiry => false
  | .configScrub => false
  | .stationFailure _ _ => false
  | .tail _ _ => false
  | .registerWrite _ _ => false
  | .packetFetch _ => false
  | .enqueuePacketArrival _ => false
  | .rackPacketArrival _ _ => false
  | .switchOut _ => false
  | .switchIn _ => false
  | .batchHandout => false
  | .taskDispatch _ => false
  | .taskBind => false
  | .taskEntry => false
  | .preemptionRequest _ => false
  | .sourceGating => false
  | .gatingLimitExpiry => false
  | .taskRestore => false
  | .deadlineExpiry => false
  | .abort => false
  | .remoteEventIncrement _ => false
  | .sessionRelease _ => false
  | .powerGood => false
  | .firmwareVerify _ => false
  | .hbmTrainingComplete _ => false
  | .linkTrainingComplete => false
  | .firmwareUpdate => false
  | .attestationRequest _ => false
  | .ageingSample => false
  | .retirement _ => false
  | .softTemperatureLimit _ => false
  | .hardTemperatureLimit => false
  | .packageLeavesPod _ => false

/-- R62: a field specification; SGN is for EXT alone. -/
def fieldSpecOk (signed : Bool) (v : Nat) : Bool :=
  v / 8192 == 0 && decide (v % 64 + v / 64 % 64 + 1 ≤ 64) && (signed || v / 4096 % 2 == 0)

/-- R243: a barrier specification. -/
def barSpecOk (v : Nat) : Bool :=
  v / 2 ^ 22 % 128 == 0 && decide (v / 65536 % 64 < scopeObjects (v / 2 ^ 29)) && v % 65536 != 0

/-- R230: a chain step specification. -/
def chordSpecOk (v : Nat) : Bool :=
  v / 2 ^ 21 == 0 && v / 64 % 1024 == 0 && decide (1 ≤ v % 64) && decide (v % 64 ≤ 32)

/-- The reserved values of used fields, instruction by instruction. -/
def Instr.fieldsOk : Instr → Bool
  | .cmp _ p _ _ _ _ => p != 0
  | .cmpi _ p _ _ _ _ => p != 0
  | .fcmp _ p _ _ _ _ => p != 0
  | .plog c p _ _ _ _ _ _ => p != 0 && c != 3
  | .ext _ _ imm _ _ => fieldSpecOk true imm.toNat
  | .ins _ _ imm _ _ => fieldSpecOk false imm.toNat
  | .brp off _ _ => decide (2048 ≤ off.val)
  | .dbrp a _ _ => a != 0
  | .spld d cls _ _ _ => !cls || decide (d.val < 16)
  | .spst d cls _ _ => !cls || decide (d.val < 16)
  | .popf _ fifo _ _ => fifo.val == 3 || fifo.val == 4 || (decide (8 ≤ fifo.val) && decide (fifo.val ≤ 11))
  | .pushf _ fifo _ => decide (fifo.val ≤ 2) || (decide (12 ≤ fifo.val) && decide (fifo.val ≤ 15))
  | .sysr _ sys _ _ => decide (sys.val < 16)
  | .sysw _ sys _ => sys.val == 5 || sys.val == 6 || sys.val == 8 || sys.val == 9 || sys.val == 10 || sys.val == 14
  | .pfx _ _ rm t => decide (rm.val < 5) && decide (t.val < 3)
  | .swinDecl _ _ _ sz _ => decide (1 ≤ sz.val) && decide (sz.val ≤ 1024)
  | .stok _ _ _ imm _ => imm.toNat / 32 % 2 ^ 26 == 0
  | .chord _ _ imm _ => chordSpecOk imm.toNat
  | .bari imm _ => barSpecOk imm.toNat
  | .fence scope _ => decide (1 ≤ scope.val) && decide (scope.val ≤ 5)
  | .acq scope _ => decide (1 ≤ scope.val) && decide (scope.val ≤ 5)
  | .rel scope _ => decide (1 ≤ scope.val) && decide (scope.val ≤ 5)
  | _ => true

/-- R20: the encoded class is not below the least one. -/
def Instr.latOk (i : Instr) : Bool :=
  match i.classes with
  | some (c, m) => decide (m ≤ c)
  | none => true

/-- The checks of R31 that the fixed bits of the encoding do not make. -/
def Instr.wf (i : Instr) : Bool := i.latOk && i.fieldsOk

end Sys2Proof
end

