-- ==== Sys2Proof/Decode.lean ====
section
/-! DEFINITION. Control words to instructions and back (spec/01 R15 to R35, spec/02 R55, spec/06 R163, spec/08 R216
and R236). Decoding is total: every pair of words gives an instruction or a named reason. -/

namespace Sys2Proof

/-- Why words are no instruction (R31). Every one of these is the illegal-encoding trap at the head that executes. -/
inductive Reject where
  | badLs | badTag | unassigned | lengthMismatch | latency | unusedField | reservedValue | truncated
  deriving DecidableEq, Repr

/-- The fields of a control word (R16, R21) with the second word of a 64-bit instruction. -/
structure Fields where
  ls : Nat
  tag : Nat
  op : Nat
  lat : Nat
  d : Nat
  a : Nat
  b : Nat
  g : Nat
  imm : Nat
  deriving DecidableEq, Repr

/-- R16, R21: the fields of first word w; x is the second word and counts only when LS says there is one. -/
def unpack (w x : Nat) : Fields :=
  ⟨w % 4, w / 4 % 8, w / 32 % 256, w / 8192 % 8, w / 134217728 % 32, w / 4194304 % 32, w / 131072 % 32,
    w / 65536 % 2, if w % 4 = 1 then x % 4294967296 else 0⟩

/-- The first and the second word that hold the fields. -/
def pack (f : Fields) : Nat × Nat :=
  (f.ls + f.tag * 4 + f.op * 32 + f.lat * 8192 + f.g * 65536 + f.b * 131072 + f.a * 4194304 + f.d * 134217728, f.imm)

def reg5 (v : Nat) : Fin 32 := Fin.ofNat 32 v
def reg4 (v : Nat) : Fin 16 := Fin.ofNat 16 v
def reg3 (v : Nat) : Fin 8 := Fin.ofNat 8 v
def reg2 (v : Nat) : Fin 4 := Fin.ofNat 4 v
def bit (v : Nat) : Bool := v % 2 == 1

/-- An operand field whose value must lie below n (R51, R163, R216). -/
def below (n v : Nat) (k : Except Reject Instr) : Except Reject Instr := if v < n then k else .error .reservedValue
/-- An operand field the instruction does not use must be zero (R23). -/
def unused (v : Nat) (k : Except Reject Instr) : Except Reject Instr := if v = 0 then k else .error .unusedField
/-- An instruction without a result carries LAT = 000 (R20). -/
def noLat (v : Nat) (k : Except Reject Instr) : Except Reject Instr := if v = 0 then k else .error .latency
/-- An opcode of one word (R24). -/
def short (f : Fields) (k : Except Reject Instr) : Except Reject Instr :=
  if f.ls = 0 then k else .error .lengthMismatch
/-- An opcode of two words (R24). -/
def long (f : Fields) (k : Except Reject Instr) : Except Reject Instr :=
  if f.ls = 1 then k else .error .lengthMismatch


/-- The words of the S head, by opcode (R55). -/
def decodeS (f : Fields) : Except Reject Instr :=
  match f.op with
  | 0x01 => short f <| .ok (.add (reg5 f.d) (reg5 f.a) (reg5 f.b) (bit f.g) (reg3 f.lat))
  | 0x02 => short f <| .ok (.sub (reg5 f.d) (reg5 f.a) (reg5 f.b) (bit f.g) (reg3 f.lat))
  | 0x03 => short f <| .ok (.mul (reg5 f.d) (reg5 f.a) (reg5 f.b) (bit f.g) (reg3 f.lat))
  | 0x04 => short f <| .ok (.mulh (reg5 f.d) (reg5 f.a) (reg5 f.b) (bit f.g) (reg3 f.lat))
  | 0x05 => short f <| .ok (.mulhu (reg5 f.d) (reg5 f.a) (reg5 f.b) (bit f.g) (reg3 f.lat))
  | 0x06 => short f <| .ok (.div (reg5 f.d) (reg5 f.a) (reg5 f.b) (bit f.g) (reg3 f.lat))
  | 0x07 => short f <| .ok (.divu (reg5 f.d) (reg5 f.a) (reg5 f.b) (bit f.g) (reg3 f.lat))
  | 0x08 => short f <| .ok (.rem (reg5 f.d) (reg5 f.a) (reg5 f.b) (bit f.g) (reg3 f.lat))
  | 0x09 => short f <| .ok (.remu (reg5 f.d) (reg5 f.a) (reg5 f.b) (bit f.g) (reg3 f.lat))
  | 0x0A => short f <| .ok (.and (reg5 f.d) (reg5 f.a) (reg5 f.b) (bit f.g) (reg3 f.lat))
  | 0x0B => short f <| .ok (.or (reg5 f.d) (reg5 f.a) (reg5 f.b) (bit f.g) (reg3 f.lat))
  | 0x0C => short f <| .ok (.xor (reg5 f.d) (reg5 f.a) (reg5 f.b) (bit f.g) (reg3 f.lat))
  | 0x0D => short f <| .ok (.andn (reg5 f.d) (reg5 f.a) (reg5 f.b) (bit f.g) (reg3 f.lat))
  | 0x0E => short f <| .ok (.shl (reg5 f.d) (reg5 f.a) (reg5 f.b) (bit f.g) (reg3 f.lat))
  | 0x0F => short f <| .ok (.shr (reg5 f.d) (reg5 f.a) (reg5 f.b) (bit f.g) (reg3 f.lat))
  | 0x10 => short f <| .ok (.sar (reg5 f.d) (reg5 f.a) (reg5 f.b) (bit f.g) (reg3 f.lat))
  | 0x11 => short f <| .ok (.min (reg5 f.d) (reg5 f.a) (reg5 f.b) (bit f.g) (reg3 f.lat))
  | 0x12 => short f <| .ok (.max (reg5 f.d) (reg5 f.a) (reg5 f.b) (bit f.g) (reg3 f.lat))
  | 0x13 => short f <| .ok (.minu (reg5 f.d) (reg5 f.a) (reg5 f.b) (bit f.g) (reg3 f.lat))
  | 0x14 => short f <| .ok (.maxu (reg5 f.d) (reg5 f.a) (reg5 f.b) (bit f.g) (reg3 f.lat))
  | 0x18 => long f <| unused f.b <| .ok (.addi (reg5 f.d) (reg5 f.a) (BitVec.ofNat 32 f.imm) (bit f.g) (reg3 f.lat))
  | 0x19 => long f <| unused f.b <| .ok (.muli (reg5 f.d) (reg5 f.a) (BitVec.ofNat 32 f.imm) (bit f.g) (reg3 f.lat))
  | 0x1A => long f <| unused f.b <| .ok (.andi (reg5 f.d) (reg5 f.a) (BitVec.ofNat 32 f.imm) (bit f.g) (reg3 f.lat))
  | 0x1B => long f <| unused f.b <| .ok (.ori (reg5 f.d) (reg5 f.a) (BitVec.ofNat 32 f.imm) (bit f.g) (reg3 f.lat))
  | 0x1C => long f <| unused f.b <| .ok (.xori (reg5 f.d) (reg5 f.a) (BitVec.ofNat 32 f.imm) (bit f.g) (reg3 f.lat))
  | 0x1D => short f <| .ok (.shli (reg5 f.d) (reg5 f.a) (Fin.ofNat 64 (f.b * 2 + f.g)) (reg3 f.lat))
  | 0x1E => short f <| .ok (.shri (reg5 f.d) (reg5 f.a) (Fin.ofNat 64 (f.b * 2 + f.g)) (reg3 f.lat))
  | 0x1F => short f <| .ok (.sari (reg5 f.d) (reg5 f.a) (Fin.ofNat 64 (f.b * 2 + f.g)) (reg3 f.lat))
  | 0x20 => long f <| unused f.a <| unused f.b <| .ok (.li (reg5 f.d) (BitVec.ofNat 32 f.imm) (bit f.g) (reg3 f.lat))
  | 0x21 => short f <| unused f.b <| .ok (.clz (reg5 f.d) (reg5 f.a) (bit f.g) (reg3 f.lat))
  | 0x22 => short f <| unused f.b <| .ok (.ctz (reg5 f.d) (reg5 f.a) (bit f.g) (reg3 f.lat))
  | 0x23 => short f <| unused f.b <| .ok (.popc (reg5 f.d) (reg5 f.a) (bit f.g) (reg3 f.lat))
  | 0x24 => long f <| unused f.b <| .ok (.ext (reg5 f.d) (reg5 f.a) (BitVec.ofNat 32 f.imm) (bit f.g) (reg3 f.lat))
  | 0x25 => long f <| unused f.b <| .ok (.ins (reg5 f.d) (reg5 f.a) (BitVec.ofNat 32 f.imm) (bit f.g) (reg3 f.lat))
  | 0x26 => short f <| unused f.g <| .ok (.sel (reg5 f.d) (reg5 f.a) (reg5 f.b) (reg3 f.lat))
  | 0x27 => long f <| .ok (.madi (reg5 f.d) (reg5 f.a) (reg5 f.b) (BitVec.ofNat 32 f.imm) (bit f.g) (reg3 f.lat))
  | 0x28 => short f <| .ok (.cmp (reg2 (f.d / 8)) (reg3 f.d) (reg5 f.a) (reg5 f.b) (bit f.g) (reg3 f.lat))
  | 0x29 => long f <| unused f.b <| .ok (.cmpi (reg2 (f.d / 8)) (reg3 f.d) (reg5 f.a) (BitVec.ofNat 32 f.imm) (bit f.g) (reg3 f.lat))
  | 0x2A => short f <| below 16 f.a <| below 16 f.b <| .ok (.fcmp (reg2 (f.d / 8)) (reg3 f.d) (reg4 f.a) (reg4 f.b) (bit f.g) (reg3 f.lat))
  | 0x2B => short f <| unused (f.a / 8 % 2) <| unused (f.b / 8 % 2) <| .ok (.plog (reg2 (f.d / 8)) (reg3 f.d) (bit (f.a / 16)) (reg3 f.a) (bit (f.b / 16)) (reg3 f.b) (bit f.g) (reg3 f.lat))
  | 0x30 => short f <| below 16 f.d <| below 16 f.a <| below 16 f.b <| .ok (.fadd (reg4 f.d) (reg4 f.a) (reg4 f.b) (bit f.g) (reg3 f.lat))
  | 0x31 => short f <| below 16 f.d <| below 16 f.a <| below 16 f.b <| .ok (.fsub (reg4 f.d) (reg4 f.a) (reg4 f.b) (bit f.g) (reg3 f.lat))
  | 0x32 => short f <| below 16 f.d <| below 16 f.a <| below 16 f.b <| .ok (.fmul (reg4 f.d) (reg4 f.a) (reg4 f.b) (bit f.g) (reg3 f.lat))
  | 0x33 => short f <| below 16 f.d <| below 16 f.a <| below 16 f.b <| .ok (.ffma (reg4 f.d) (reg4 f.a) (reg4 f.b) (bit f.g) (reg3 f.lat))
  | 0x34 => short f <| below 16 f.d <| below 16 f.a <| below 16 f.b <| .ok (.fdiv (reg4 f.d) (reg4 f.a) (reg4 f.b) (bit f.g) (reg3 f.lat))
  | 0x35 => short f <| below 16 f.d <| below 16 f.a <| unused f.b <| .ok (.fsqrt (reg4 f.d) (reg4 f.a) (bit f.g) (reg3 f.lat))
  | 0x36 => short f <| below 16 f.d <| below 16 f.a <| below 16 f.b <| .ok (.fmin (reg4 f.d) (reg4 f.a) (reg4 f.b) (bit f.g) (reg3 f.lat))
  | 0x37 => short f <| below 16 f.d <| below 16 f.a <| below 16 f.b <| .ok (.fmax (reg4 f.d) (reg4 f.a) (reg4 f.b) (bit f.g) (reg3 f.lat))
  | 0x38 => 
    match f.b with
    | 0 => short f <| below 16 f.d <| below 16 f.a <| .ok (.fcvtRint (reg4 f.d) (reg4 f.a) (bit f.g) (reg3 f.lat))
    | 1 => short f <| below 16 f.d <| below 16 f.a <| .ok (.fcvtRound32 (reg4 f.d) (reg4 f.a) (bit f.g) (reg3 f.lat))
    | 2 => short f <| below 16 f.a <| .ok (.fcvtToint (reg5 f.d) (reg4 f.a) (bit f.g) (reg3 f.lat))
    | 3 => short f <| below 16 f.a <| .ok (.fcvtTouint (reg5 f.d) (reg4 f.a) (bit f.g) (reg3 f.lat))
    | 4 => short f <| below 16 f.d <| .ok (.fcvtFromint (reg4 f.d) (reg5 f.a) (bit f.g) (reg3 f.lat))
    | 5 => short f <| below 16 f.d <| .ok (.fcvtFromuint (reg4 f.d) (reg5 f.a) (bit f.g) (reg3 f.lat))
    | 6 => short f <| below 16 f.a <| .ok (.fcvtTofp32 (reg5 f.d) (reg4 f.a) (bit f.g) (reg3 f.lat))
    | 7 => short f <| below 16 f.d <| .ok (.fcvtFromfp32 (reg4 f.d) (reg5 f.a) (bit f.g) (reg3 f.lat))
    | 8 => short f <| below 16 f.a <| .ok (.fcvtTofp16 (reg5 f.d) (reg4 f.a) (bit f.g) (reg3 f.lat))
    | 9 => short f <| below 16 f.d <| .ok (.fcvtFromfp16 (reg4 f.d) (reg5 f.a) (bit f.g) (reg3 f.lat))
    | 10 => short f <| below 16 f.a <| .ok (.fcvtTobf16 (reg5 f.d) (reg4 f.a) (bit f.g) (reg3 f.lat))
    | 11 => short f <| below 16 f.d <| .ok (.fcvtFrombf16 (reg4 f.d) (reg5 f.a) (bit f.g) (reg3 f.lat))
    | 12 => short f <| below 16 f.a <| .ok (.fcvtToe4m3 (reg5 f.d) (reg4 f.a) (bit f.g) (reg3 f.lat))
    | 13 => short f <| below 16 f.d <| .ok (.fcvtFrome4m3 (reg4 f.d) (reg5 f.a) (bit f.g) (reg3 f.lat))
    | 14 => short f <| below 16 f.a <| .ok (.fcvtToe5m2 (reg5 f.d) (reg4 f.a) (bit f.g) (reg3 f.lat))
    | 15 => short f <| below 16 f.d <| .ok (.fcvtFrome5m2 (reg4 f.d) (reg5 f.a) (bit f.g) (reg3 f.lat))
    | 16 => short f <| below 16 f.a <| .ok (.fcvtTotap8 (reg5 f.d) (reg4 f.a) (bit f.g) (reg3 f.lat))
    | 17 => short f <| below 16 f.d <| .ok (.fcvtFromtap8 (reg4 f.d) (reg5 f.a) (bit f.g) (reg3 f.lat))
    | 18 => short f <| below 16 f.a <| .ok (.fcvtTotap6 (reg5 f.d) (reg4 f.a) (bit f.g) (reg3 f.lat))
    | 19 => short f <| below 16 f.d <| .ok (.fcvtFromtap6 (reg4 f.d) (reg5 f.a) (bit f.g) (reg3 f.lat))
    | _ => .error .reservedValue
  | 0x39 => long f <| below 16 f.d <| unused f.a <| unused f.b <| .ok (.fmvi (reg4 f.d) (BitVec.ofNat 32 f.imm) (bit f.g) (reg3 f.lat))
  | 0x3A => 
    match f.b with
    | 0 => short f <| below 16 f.a <| .ok (.fmvfToS (reg5 f.d) (reg4 f.a) (bit f.g) (reg3 f.lat))
    | 1 => short f <| below 16 f.d <| .ok (.fmvfToF (reg4 f.d) (reg5 f.a) (bit f.g) (reg3 f.lat))
    | _ => .error .reservedValue
  | 0x40 => short f <| noLat f.lat <| .ok (.br (Fin.ofNat 4096 (f.d * 128 + f.a * 4 + f.b / 8)) (bit (f.b / 4)) (reg3 (f.b % 4 * 2 + f.g)))
  | 0x41 => short f <| noLat f.lat <| .ok (.brp (Fin.ofNat 4096 (f.d * 128 + f.a * 4 + f.b / 8)) (bit (f.b / 4)) (reg3 (f.b % 4 * 2 + f.g)))
  | 0x42 => short f <| .ok (.dbrp (reg5 f.d) (Fin.ofNat 2048 (f.a * 64 + f.b * 2 + f.g)) (reg3 f.lat))
  | 0x43 => long f <| unused f.b <| .ok (.call (reg5 f.d) (reg5 f.a) (BitVec.ofNat 32 f.imm) (bit f.g) (reg3 f.lat))
  | 0x44 => short f <| unused f.d <| unused f.b <| noLat f.lat <| .ok (.ret (reg5 f.a) (bit f.g))
  | 0x45 => short f <| unused f.d <| unused f.a <| unused f.b <| noLat f.lat <| .ok (.nop (bit f.g))
  | 0x48 => short f <| .ok (.spld (reg5 f.d) (bit (f.a / 16)) (Fin.ofNat 512 (f.a * 32 + f.b)) (bit f.g) (reg3 f.lat))
  | 0x49 => short f <| noLat f.lat <| .ok (.spst (reg5 f.d) (bit (f.a / 16)) (Fin.ofNat 512 (f.a * 32 + f.b)) (bit f.g))
  | 0x4A => short f <| .ok (.ldt (reg5 f.d) (reg5 f.a) (reg5 f.b) (bit f.g) (reg3 f.lat))
  | 0x4B => short f <| noLat f.lat <| .ok (.stt (reg5 f.d) (reg5 f.a) (reg5 f.b) (bit f.g))
  | 0x4C => short f <| unused f.a <| .ok (.popf (reg5 f.d) (reg5 f.b) (bit f.g) (reg3 f.lat))
  | 0x4D => short f <| unused f.d <| noLat f.lat <| .ok (.pushf (reg5 f.a) (reg5 f.b) (bit f.g))
  | 0x50 => short f <| .ok (.sysr (reg5 f.d) (Fin.ofNat 1024 (f.a * 32 + f.b)) (bit f.g) (reg3 f.lat))
  | 0x51 => 
    match f.a * 32 + f.b with
    | 1 => short f <| noLat f.lat <| .ok (.syswSlipwin (reg5 f.d) (bit f.g))
    | 7 => short f <| noLat f.lat <| .ok (.syswTrappcS (reg5 f.d) (bit f.g))
    | 15 => short f <| noLat f.lat <| .ok (.syswTstatus (reg5 f.d) (bit f.g))
    | _ => short f <| noLat f.lat <| .ok (.sysw (reg5 f.d) (Fin.ofNat 1024 (f.a * 32 + f.b)) (bit f.g))
  | 0x52 => short f <| unused f.b <| noLat f.lat <| .ok (.trap (reg5 f.d) (reg5 f.a) (bit f.g))
  | 0x53 => short f <| unused f.d <| unused f.a <| unused f.b <| noLat f.lat <| .ok (.tret (bit f.g))
  | _ => .error .unassigned

/-- The words of the M head, by opcode (R163). -/
def decodeM (f : Fields) : Except Reject Instr :=
  match f.op with
  | 0x60 => short f <| below 16 f.d <| noLat f.lat <| .ok (.saff (reg4 f.d) (reg5 f.a) (reg5 f.b) (bit f.g))
  | 0x61 => short f <| below 16 f.d <| noLat f.lat <| .ok (.saffw (reg4 f.d) (reg5 f.a) (reg5 f.b) (bit f.g))
  | 0x62 => short f <| below 16 f.d <| below 16 f.b <| noLat f.lat <| .ok (.sind (reg4 f.d) (reg5 f.a) (reg4 f.b) (bit f.g))
  | 0x63 => short f <| below 16 f.d <| below 16 f.b <| noLat f.lat <| .ok (.sindw (reg4 f.d) (reg5 f.a) (reg4 f.b) (bit f.g))
  | 0x64 => short f <| below 16 f.d <| noLat f.lat <| .ok (.srec (reg4 f.d) (reg5 f.a) (reg5 f.b) (bit f.g))
  | 0x65 => long f <| below 16 f.d <| noLat f.lat <| .ok (.sfill (reg4 f.d) (reg5 f.a) (reg5 f.b) (BitVec.ofNat 32 f.imm) (bit f.g))
  | 0x66 => short f <| below 16 f.d <| noLat f.lat <| .ok (.smc (reg4 f.d) (reg5 f.a) (reg5 f.b) (bit f.g))
  | 0x67 => short f <| below 16 f.d <| below 16 f.b <| noLat f.lat <| .ok (.sgrow (reg4 f.d) (reg5 f.a) (reg4 f.b) (bit f.g))
  | 0x68 => short f <| below 16 f.d <| noLat f.lat <| .ok (.sred (reg4 f.d) (reg5 f.a) (reg5 f.b) (bit f.g))
  | 0x69 => short f <| below 16 f.d <| noLat f.lat <| .ok (.satm (reg4 f.d) (reg5 f.a) (reg5 f.b) (bit f.g))
  | 0x6A => short f <| below 16 f.d <| noLat f.lat <| .ok (.scpy (reg4 f.d) (reg5 f.a) (reg5 f.b) (bit f.g))
  | 0x6B => short f <| below 16 f.d <| noLat f.lat <| .ok (.sbar (reg4 f.d) (reg5 f.a) (reg5 f.b) (bit f.g))
  | 0x6C => 
    match f.imm / 2 ^ 30 with
    | 0 => long f <| below 16 f.d <| unused f.b <| unused (f.imm / 2 ^ 24 % 64) <| unused (f.imm / 2 ^ 11 % 32) <| noLat f.lat <| .ok (.swinDecl (reg4 f.d) (reg5 f.a) (Fin.ofNat 256 (f.imm / 65536)) (Fin.ofNat 2048 f.imm) (bit f.g))
    | 1 => long f <| below 16 f.d <| unused f.a <| unused f.b <| unused (f.imm / 2 ^ 24 % 64) <| unused (f.imm / 2 ^ 11 % 32) <| unused (f.imm % 2048) <| noLat f.lat <| .ok (.swinTake (reg4 f.d) (Fin.ofNat 256 (f.imm / 65536)) (bit f.g))
    | 2 => long f <| below 16 f.d <| unused f.a <| unused f.b <| unused (f.imm / 2 ^ 24 % 64) <| unused (f.imm / 2 ^ 11 % 32) <| unused (f.imm % 2048) <| noLat f.lat <| .ok (.swinGive (reg4 f.d) (Fin.ofNat 256 (f.imm / 65536)) (bit f.g))
    | _ => .error .reservedValue
  | 0x6D => short f <| below 16 f.d <| below 16 f.b <| noLat f.lat <| .ok (.stap (reg4 f.d) (reg5 f.a) (reg4 f.b) (bit f.g))
  | 0x6E => short f <| below 16 f.d <| noLat f.lat <| .ok (.sfilt (reg4 f.d) (reg5 f.a) (reg5 f.b) (bit f.g))
  | 0x6F => short f <| below 16 f.d <| noLat f.lat <| .ok (.smeta (reg4 f.d) (reg5 f.a) (reg5 f.b) (bit f.g))
  | 0x70 => long f <| below 16 f.d <| noLat f.lat <| .ok (.stok (reg4 f.d) (reg5 f.a) (reg5 f.b) (BitVec.ofNat 32 f.imm) (bit f.g))
  | 0x71 => short f <| below 16 f.d <| unused f.a <| unused f.b <| noLat f.lat <| .ok (.sclose (reg4 f.d) (bit f.g))
  | 0x72 => 
    match f.b with
    | 0 => short f <| below 16 f.d <| unused f.a <| noLat f.lat <| .ok (.sqryCommand (reg4 f.d) (bit f.g))
    | 1 => short f <| below 16 f.d <| unused f.a <| noLat f.lat <| .ok (.sqryWindrow (reg4 f.d) (bit f.g))
    | _ => .error .reservedValue
  | 0x73 => short f <| below 16 f.d <| noLat f.lat <| .ok (.sdesc (reg4 f.d) (reg5 f.a) (reg5 f.b) (bit f.g))
  | _ => .error .unassigned

/-- The words of the A head, by opcode (R216). -/
def decodeA (f : Fields) : Except Reject Instr :=
  match f.op with
  | 0x80 => long f <| unused f.d <| noLat f.lat <| .ok (.acfg (reg5 f.a) (reg5 f.b) (BitVec.ofNat 32 f.imm) (bit f.g))
  | 0x81 => short f <| unused f.d <| unused f.a <| noLat f.lat <| .ok (.arun (reg5 f.b) (bit f.g))
  | 0x82 => short f <| unused f.d <| unused f.a <| noLat f.lat <| .ok (.adrn (reg5 f.b) (bit f.g))
  | 0x83 => short f <| below 2 f.d <| unused f.a <| noLat f.lat <| .ok (.aqui (bit f.d) (reg5 f.b) (bit f.g))
  | 0x84 => short f <| unused f.d <| noLat f.lat <| .ok (.amrk (reg5 f.a) (reg5 f.b) (bit f.g))
  | 0x85 => short f <| unused f.d <| noLat f.lat <| .ok (.aprt (reg5 f.a) (reg5 f.b) (bit f.g))
  | 0x88 => short f <| below 8 f.d <| unused f.b <| noLat f.lat <| .ok (.chbd (reg3 f.d) (reg5 f.a) (bit f.g))
  | 0x89 => long f <| unused f.d <| noLat f.lat <| .ok (.chord (reg5 f.a) (reg5 f.b) (BitVec.ofNat 32 f.imm) (bit f.g))
  | 0x8A => short f <| unused f.d <| noLat f.lat <| .ok (.chrun (reg5 f.a) (reg5 f.b) (bit f.g))
  | 0x8B => short f <| unused f.d <| noLat f.lat <| .ok (.chsv (reg5 f.a) (reg5 f.b) (bit f.g))
  | 0x8C => short f <| unused f.d <| noLat f.lat <| .ok (.chld (reg5 f.a) (reg5 f.b) (bit f.g))
  | 0x90 => short f <| below 4 f.d <| noLat f.lat <| .ok (.enco (reg2 f.d) (reg5 f.a) (reg5 f.b) (bit f.g))
  | 0x91 => short f <| below 4 f.d <| noLat f.lat <| .ok (.encf (reg2 f.d) (reg5 f.a) (reg5 f.b) (bit f.g))
  | 0x92 => short f <| below 4 f.d <| unused f.a <| noLat f.lat <| .ok (.encc (reg2 f.d) (reg5 f.b) (bit f.g))
  | _ => .error .unassigned

/-- The words of the Y head, by opcode (R236). -/
def decodeY (f : Fields) : Except Reject Instr :=
  match f.op with
  | 0xA0 => short f <| unused f.b <| noLat f.lat <| .ok (.evsig (reg5 f.d) (reg5 f.a) (bit f.g))
  | 0xA1 => short f <| unused f.b <| noLat f.lat <| .ok (.evwait (reg5 f.d) (reg5 f.a) (bit f.g))
  | 0xA2 => short f <| unused f.b <| noLat f.lat <| .ok (.evclr (reg5 f.d) (reg5 f.a) (bit f.g))
  | 0xA4 => long f <| unused f.d <| unused f.a <| unused f.b <| noLat f.lat <| .ok (.bari (BitVec.ofNat 32 f.imm) (bit f.g))
  | 0xA5 => short f <| unused f.d <| noLat f.lat <| .ok (.bara (reg5 f.a) (reg5 f.b) (bit f.g))
  | 0xA6 => short f <| below 2 f.d <| noLat f.lat <| .ok (.barw (bit f.d) (reg5 f.a) (reg5 f.b) (bit f.g))
  | 0xA7 => short f <| unused f.d <| unused f.b <| noLat f.lat <| .ok (.barq (reg5 f.a) (bit f.g))
  | 0xA8 => short f <| below 8 f.d <| unused f.a <| unused f.b <| noLat f.lat <| .ok (.fence (reg3 f.d) (bit f.g))
  | 0xA9 => short f <| below 8 f.d <| unused f.a <| unused f.b <| noLat f.lat <| .ok (.acq (reg3 f.d) (bit f.g))
  | 0xAA => short f <| below 8 f.d <| unused f.a <| unused f.b <| noLat f.lat <| .ok (.rel (reg3 f.d) (bit f.g))
  | 0xAC => short f <| below 2 f.d <| noLat f.lat <| .ok (.tenq (bit f.d) (reg5 f.a) (reg5 f.b) (bit f.g))
  | 0xAD => short f <| unused f.d <| unused f.b <| noLat f.lat <| .ok (.tend (reg5 f.a) (bit f.g))
  | 0xAE => short f <| unused f.d <| unused f.a <| unused f.b <| noLat f.lat <| .ok (.tyld (bit f.g))
  | 0xAF => short f <| below 2 f.d <| unused f.b <| noLat f.lat <| .ok (.tspwn (bit f.d) (reg5 f.a) (bit f.g))
  | 0xB0 => 
    match f.d with
    | 0 => short f <| unused f.a <| unused f.b <| noLat f.lat <| .ok (.tpollTask (bit f.g))
    | 1 => short f <| unused f.a <| unused f.b <| noLat f.lat <| .ok (.tpollDie (bit f.g))
    | _ => .error .reservedValue
  | 0xB1 => short f <| unused f.d <| noLat f.lat <| .ok (.lkprb (reg5 f.a) (reg5 f.b) (bit f.g))
  | 0xB2 => short f <| below 2 f.d <| unused f.b <| noLat f.lat <| .ok (.stamp (bit f.d) (reg5 f.a) (bit f.g))
  | 0xB3 => long f <| unused f.d <| unused f.b <| noLat f.lat <| .ok (.dln (reg5 f.a) (BitVec.ofNat 32 f.imm) (bit f.g))
  | 0xBF => short f <| unused f.d <| unused f.a <| unused f.b <| noLat f.lat <| .ok (.diag (bit f.g))
  | _ => .error .unassigned

/-- A prefix word (R25): bits [31:10] are zero; bits [9:5] stand in the low bits of OP. -/
def decodePfx (f : Fields) : Except Reject Instr :=
  below 32 f.op <| unused f.lat <| unused f.d <| unused f.a <| unused f.b <| unused f.g <|
    .ok (.pfx (bit (f.op / 16)) (bit (f.op / 8)) (reg3 f.op) (reg3 f.tag))

/-- R16 to R18: the fields to an instruction. A word of LS 11 or of TAG 1xx belongs to no head. -/
def decodeFields (f : Fields) : Except Reject Instr :=
  match f.ls with
  | 2 => decodePfx f
  | 3 => .error .badLs
  | _ =>
    match f.tag with
    | 0 => decodeS f
    | 1 => decodeM f
    | 2 => decodeA f
    | 3 => decodeY f
    | _ => .error .badTag

/-- The instruction whose first word is w and whose second word, if it has one, is x. -/
def decode (w x : Nat) : Except Reject Instr := decodeFields (unpack w x)


/-- The fields of an instruction, from the same tables; an event has no words. -/
def encodeFields : Instr → Option Fields
  | .pfx ftz sat rm head => some ⟨2, head.val, ftz.toNat * 16 + sat.toNat * 8 + rm.val, 0, 0, 0, 0, 0, 0⟩
  | .add d a b g lat => some ⟨0, 0, 0x01, lat.val, d.val, a.val, b.val, g.toNat, 0⟩
  | .sub d a b g lat => some ⟨0, 0, 0x02, lat.val, d.val, a.val, b.val, g.toNat, 0⟩
  | .mul d a b g lat => some ⟨0, 0, 0x03, lat.val, d.val, a.val, b.val, g.toNat, 0⟩
  | .mulh d a b g lat => some ⟨0, 0, 0x04, lat.val, d.val, a.val, b.val, g.toNat, 0⟩
  | .mulhu d a b g lat => some ⟨0, 0, 0x05, lat.val, d.val, a.val, b.val, g.toNat, 0⟩
  | .div d a b g lat => some ⟨0, 0, 0x06, lat.val, d.val, a.val, b.val, g.toNat, 0⟩
  | .divu d a b g lat => some ⟨0, 0, 0x07, lat.val, d.val, a.val, b.val, g.toNat, 0⟩
  | .rem d a b g lat => some ⟨0, 0, 0x08, lat.val, d.val, a.val, b.val, g.toNat, 0⟩
  | .remu d a b g lat => some ⟨0, 0, 0x09, lat.val, d.val, a.val, b.val, g.toNat, 0⟩
  | .and d a b g lat => some ⟨0, 0, 0x0A, lat.val, d.val, a.val, b.val, g.toNat, 0⟩
  | .or d a b g lat => some ⟨0, 0, 0x0B, lat.val, d.val, a.val, b.val, g.toNat, 0⟩
  | .xor d a b g lat => some ⟨0, 0, 0x0C, lat.val, d.val, a.val, b.val, g.toNat, 0⟩
  | .andn d a b g lat => some ⟨0, 0, 0x0D, lat.val, d.val, a.val, b.val, g.toNat, 0⟩
  | .shl d a b g lat => some ⟨0, 0, 0x0E, lat.val, d.val, a.val, b.val, g.toNat, 0⟩
  | .shr d a b g lat => some ⟨0, 0, 0x0F, lat.val, d.val, a.val, b.val, g.toNat, 0⟩
  | .sar d a b g lat => some ⟨0, 0, 0x10, lat.val, d.val, a.val, b.val, g.toNat, 0⟩
  | .min d a b g lat => some ⟨0, 0, 0x11, lat.val, d.val, a.val, b.val, g.toNat, 0⟩
  | .max d a b g lat => some ⟨0, 0, 0x12, lat.val, d.val, a.val, b.val, g.toNat, 0⟩
  | .minu d a b g lat => some ⟨0, 0, 0x13, lat.val, d.val, a.val, b.val, g.toNat, 0⟩
  | .maxu d a b g lat => some ⟨0, 0, 0x14, lat.val, d.val, a.val, b.val, g.toNat, 0⟩
  | .addi d a imm g lat => some ⟨1, 0, 0x18, lat.val, d.val, a.val, 0, g.toNat, imm.toNat⟩
  | .muli d a imm g lat => some ⟨1, 0, 0x19, lat.val, d.val, a.val, 0, g.toNat, imm.toNat⟩
  | .andi d a imm g lat => some ⟨1, 0, 0x1A, lat.val, d.val, a.val, 0, g.toNat, imm.toNat⟩
  | .ori d a imm g lat => some ⟨1, 0, 0x1B, lat.val, d.val, a.val, 0, g.toNat, imm.toNat⟩
  | .xori d a imm g lat => some ⟨1, 0, 0x1C, lat.val, d.val, a.val, 0, g.toNat, imm.toNat⟩
  | .shli d a sh lat => some ⟨0, 0, 0x1D, lat.val, d.val, a.val, sh.val / 2, sh.val % 2, 0⟩
  | .shri d a sh lat => some ⟨0, 0, 0x1E, lat.val, d.val, a.val, sh.val / 2, sh.val % 2, 0⟩
  | .sari d a sh lat => some ⟨0, 0, 0x1F, lat.val, d.val, a.val, sh.val / 2, sh.val % 2, 0⟩
  | .li d imm g lat => some ⟨1, 0, 0x20, lat.val, d.val, 0, 0, g.toNat, imm.toNat⟩
  | .clz d a g lat => some ⟨0, 0, 0x21, lat.val, d.val, a.val, 0, g.toNat, 0⟩
  | .ctz d a g lat => some ⟨0, 0, 0x22, lat.val, d.val, a.val, 0, g.toNat, 0⟩
  | .popc d a g lat => some ⟨0, 0, 0x23, lat.val, d.val, a.val, 0, g.toNat, 0⟩
  | .ext d a imm g lat => some ⟨1, 0, 0x24, lat.val, d.val, a.val, 0, g.toNat, imm.toNat⟩
  | .ins d a imm g lat => some ⟨1, 0, 0x25, lat.val, d.val, a.val, 0, g.toNat, imm.toNat⟩
  | .sel d a b lat => some ⟨0, 0, 0x26, lat.val, d.val, a.val, b.val, 0, 0⟩
  | .madi d a b imm g lat => some ⟨1, 0, 0x27, lat.val, d.val, a.val, b.val, g.toNat, imm.toNat⟩
  | .cmp c p a b g lat => some ⟨0, 0, 0x28, lat.val, c.val * 8 + p.val, a.val, b.val, g.toNat, 0⟩
  | .cmpi c p a imm g lat => some ⟨1, 0, 0x29, lat.val, c.val * 8 + p.val, a.val, 0, g.toNat, imm.toNat⟩
  | .fcmp c p a b g lat => some ⟨0, 0, 0x2A, lat.val, c.val * 8 + p.val, a.val, b.val, g.toNat, 0⟩
  | .plog c p i x j y g lat => some ⟨0, 0, 0x2B, lat.val, c.val * 8 + p.val, i.toNat * 16 + x.val, j.toNat * 16 + y.val, g.toNat, 0⟩
  | .fadd d a b g lat => some ⟨0, 0, 0x30, lat.val, d.val, a.val, b.val, g.toNat, 0⟩
  | .fsub d a b g lat => some ⟨0, 0, 0x31, lat.val, d.val, a.val, b.val, g.toNat, 0⟩
  | .fmul d a b g lat => some ⟨0, 0, 0x32, lat.val, d.val, a.val, b.val, g.toNat, 0⟩
  | .ffma d a b g lat => some ⟨0, 0, 0x33, lat.val, d.val, a.val, b.val, g.toNat, 0⟩
  | .fdiv d a b g lat => some ⟨0, 0, 0x34, lat.val, d.val, a.val, b.val, g.toNat, 0⟩
  | .fsqrt d a g lat => some ⟨0, 0, 0x35, lat.val, d.val, a.val, 0, g.toNat, 0⟩
  | .fmin d a b g lat => some ⟨0, 0, 0x36, lat.val, d.val, a.val, b.val, g.toNat, 0⟩
  | .fmax d a b g lat => some ⟨0, 0, 0x37, lat.val, d.val, a.val, b.val, g.toNat, 0⟩
  | .fcvtRint d a g lat => some ⟨0, 0, 0x38, lat.val, d.val, a.val, 0, g.toNat, 0⟩
  | .fcvtRound32 d a g lat => some ⟨0, 0, 0x38, lat.val, d.val, a.val, 1, g.toNat, 0⟩
  | .fcvtToint d a g lat => some ⟨0, 0, 0x38, lat.val, d.val, a.val, 2, g.toNat, 0⟩
  | .fcvtTouint d a g lat => some ⟨0, 0, 0x38, lat.val, d.val, a.val, 3, g.toNat, 0⟩
  | .fcvtFromint d a g lat => some ⟨0, 0, 0x38, lat.val, d.val, a.val, 4, g.toNat, 0⟩
  | .fcvtFromuint d a g lat => some ⟨0, 0, 0x38, lat.val, d.val, a.val, 5, g.toNat, 0⟩
  | .fcvtTofp32 d a g lat => some ⟨0, 0, 0x38, lat.val, d.val, a.val, 6, g.toNat, 0⟩
  | .fcvtFromfp32 d a g lat => some ⟨0, 0, 0x38, lat.val, d.val, a.val, 7, g.toNat, 0⟩
  | .fcvtTofp16 d a g lat => some ⟨0, 0, 0x38, lat.val, d.val, a.val, 8, g.toNat, 0⟩
  | .fcvtFromfp16 d a g lat => some ⟨0, 0, 0x38, lat.val, d.val, a.val, 9, g.toNat, 0⟩
  | .fcvtTobf16 d a g lat => some ⟨0, 0, 0x38, lat.val, d.val, a.val, 10, g.toNat, 0⟩
  | .fcvtFrombf16 d a g lat => some ⟨0, 0, 0x38, lat.val, d.val, a.val, 11, g.toNat, 0⟩
  | .fcvtToe4m3 d a g lat => some ⟨0, 0, 0x38, lat.val, d.val, a.val, 12, g.toNat, 0⟩
  | .fcvtFrome4m3 d a g lat => some ⟨0, 0, 0x38, lat.val, d.val, a.val, 13, g.toNat, 0⟩
  | .fcvtToe5m2 d a g lat => some ⟨0, 0, 0x38, lat.val, d.val, a.val, 14, g.toNat, 0⟩
  | .fcvtFrome5m2 d a g lat => some ⟨0, 0, 0x38, lat.val, d.val, a.val, 15, g.toNat, 0⟩
  | .fcvtTotap8 d a g lat => some ⟨0, 0, 0x38, lat.val, d.val, a.val, 16, g.toNat, 0⟩
  | .fcvtFromtap8 d a g lat => some ⟨0, 0, 0x38, lat.val, d.val, a.val, 17, g.toNat, 0⟩
  | .fcvtTotap6 d a g lat => some ⟨0, 0, 0x38, lat.val, d.val, a.val, 18, g.toNat, 0⟩
  | .fcvtFromtap6 d a g lat => some ⟨0, 0, 0x38, lat.val, d.val, a.val, 19, g.toNat, 0⟩
  | .fmvi d imm g lat => some ⟨1, 0, 0x39, lat.val, d.val, 0, 0, g.toNat, imm.toNat⟩
  | .fmvfToS d a g lat => some ⟨0, 0, 0x3A, lat.val, d.val, a.val, 0, g.toNat, 0⟩
  | .fmvfToF d a g lat => some ⟨0, 0, 0x3A, lat.val, d.val, a.val, 1, g.toNat, 0⟩
  | .br off n p => some ⟨0, 0, 0x40, 0, off.val / 128, off.val / 4 % 32, off.val % 4 * 8 + n.toNat * 4 + p.val / 2, p.val % 2, 0⟩
  | .brp off n p => some ⟨0, 0, 0x41, 0, off.val / 128, off.val / 4 % 32, off.val % 4 * 8 + n.toNat * 4 + p.val / 2, p.val % 2, 0⟩
  | .dbrp a off lat => some ⟨0, 0, 0x42, lat.val, a.val, off.val / 64, off.val / 2 % 32, off.val % 2, 0⟩
  | .call d a imm g lat => some ⟨1, 0, 0x43, lat.val, d.val, a.val, 0, g.toNat, imm.toNat⟩
  | .ret a g => some ⟨0, 0, 0x44, 0, 0, a.val, 0, g.toNat, 0⟩
  | .nop g => some ⟨0, 0, 0x45, 0, 0, 0, 0, g.toNat, 0⟩
  | .spld d cls slot g lat => some ⟨0, 0, 0x48, lat.val, d.val, cls.toNat * 16 + slot.val / 32, slot.val % 32, g.toNat, 0⟩
  | .spst d cls slot g => some ⟨0, 0, 0x49, 0, d.val, cls.toNat * 16 + slot.val / 32, slot.val % 32, g.toNat, 0⟩
  | .ldt d a b g lat => some ⟨0, 0, 0x4A, lat.val, d.val, a.val, b.val, g.toNat, 0⟩
  | .stt d a b g => some ⟨0, 0, 0x4B, 0, d.val, a.val, b.val, g.toNat, 0⟩
  | .popf d fifo g lat => some ⟨0, 0, 0x4C, lat.val, d.val, 0, fifo.val, g.toNat, 0⟩
  | .pushf a fifo g => some ⟨0, 0, 0x4D, 0, 0, a.val, fifo.val, g.toNat, 0⟩
  | .sysr d sys g lat => some ⟨0, 0, 0x50, lat.val, d.val, sys.val / 32, sys.val % 32, g.toNat, 0⟩
  | .sysw d sys g => some ⟨0, 0, 0x51, 0, d.val, sys.val / 32, sys.val % 32, g.toNat, 0⟩
  | .syswSlipwin d g => some ⟨0, 0, 0x51, 0, d.val, 0, 1, g.toNat, 0⟩
  | .syswTrappcS d g => some ⟨0, 0, 0x51, 0, d.val, 0, 7, g.toNat, 0⟩
  | .syswTstatus d g => some ⟨0, 0, 0x51, 0, d.val, 0, 15, g.toNat, 0⟩
  | .trap code a g => some ⟨0, 0, 0x52, 0, code.val, a.val, 0, g.toNat, 0⟩
  | .tret g => some ⟨0, 0, 0x53, 0, 0, 0, 0, g.toNat, 0⟩
  | .saff d a b g => some ⟨0, 1, 0x60, 0, d.val, a.val, b.val, g.toNat, 0⟩
  | .saffw d a b g => some ⟨0, 1, 0x61, 0, d.val, a.val, b.val, g.toNat, 0⟩
  | .sind d a b g => some ⟨0, 1, 0x62, 0, d.val, a.val, b.val, g.toNat, 0⟩
  | .sindw d a b g => some ⟨0, 1, 0x63, 0, d.val, a.val, b.val, g.toNat, 0⟩
  | .srec d a b g => some ⟨0, 1, 0x64, 0, d.val, a.val, b.val, g.toNat, 0⟩
  | .sfill d a b imm g => some ⟨1, 1, 0x65, 0, d.val, a.val, b.val, g.toNat, imm.toNat⟩
  | .smc d a b g => some ⟨0, 1, 0x66, 0, d.val, a.val, b.val, g.toNat, 0⟩
  | .sgrow d a b g => some ⟨0, 1, 0x67, 0, d.val, a.val, b.val, g.toNat, 0⟩
  | .sred d a b g => some ⟨0, 1, 0x68, 0, d.val, a.val, b.val, g.toNat, 0⟩
  | .satm d a b g => some ⟨0, 1, 0x69, 0, d.val, a.val, b.val, g.toNat, 0⟩
  | .scpy d a b g => some ⟨0, 1, 0x6A, 0, d.val, a.val, b.val, g.toNat, 0⟩
  | .sbar d a b g => some ⟨0, 1, 0x6B, 0, d.val, a.val, b.val, g.toNat, 0⟩
  | .swinDecl d a cnt sz g => some ⟨1, 1, 0x6C, 0, d.val, a.val, 0, g.toNat, cnt.val * 65536 + sz.val⟩
  | .swinTake d cnt g => some ⟨1, 1, 0x6C, 0, d.val, 0, 0, g.toNat, 1 * 2 ^ 30 + cnt.val * 65536⟩
  | .swinGive d cnt g => some ⟨1, 1, 0x6C, 0, d.val, 0, 0, g.toNat, 2 * 2 ^ 30 + cnt.val * 65536⟩
  | .stap d a b g => some ⟨0, 1, 0x6D, 0, d.val, a.val, b.val, g.toNat, 0⟩
  | .sfilt d a b g => some ⟨0, 1, 0x6E, 0, d.val, a.val, b.val, g.toNat, 0⟩
  | .smeta d a b g => some ⟨0, 1, 0x6F, 0, d.val, a.val, b.val, g.toNat, 0⟩
  | .stok d a b imm g => some ⟨1, 1, 0x70, 0, d.val, a.val, b.val, g.toNat, imm.toNat⟩
  | .sclose d g => some ⟨0, 1, 0x71, 0, d.val, 0, 0, g.toNat, 0⟩
  | .sqryCommand d g => some ⟨0, 1, 0x72, 0, d.val, 0, 0, g.toNat, 0⟩
  | .sqryWindrow d g => some ⟨0, 1, 0x72, 0, d.val, 0, 1, g.toNat, 0⟩
  | .sdesc d a b g => some ⟨0, 1, 0x73, 0, d.val, a.val, b.val, g.toNat, 0⟩
  | .acfg a b imm g => some ⟨1, 2, 0x80, 0, 0, a.val, b.val, g.toNat, imm.toNat⟩
  | .arun b g => some ⟨0, 2, 0x81, 0, 0, 0, b.val, g.toNat, 0⟩
  | .adrn b g => some ⟨0, 2, 0x82, 0, 0, 0, b.val, g.toNat, 0⟩
  | .aqui k b g => some ⟨0, 2, 0x83, 0, k.toNat, 0, b.val, g.toNat, 0⟩
  | .amrk a b g => some ⟨0, 2, 0x84, 0, 0, a.val, b.val, g.toNat, 0⟩
  | .aprt a b g => some ⟨0, 2, 0x85, 0, 0, a.val, b.val, g.toNat, 0⟩
  | .chbd d a g => some ⟨0, 2, 0x88, 0, d.val, a.val, 0, g.toNat, 0⟩
  | .chord a b imm g => some ⟨1, 2, 0x89, 0, 0, a.val, b.val, g.toNat, imm.toNat⟩
  | .chrun a b g => some ⟨0, 2, 0x8A, 0, 0, a.val, b.val, g.toNat, 0⟩
  | .chsv a b g => some ⟨0, 2, 0x8B, 0, 0, a.val, b.val, g.toNat, 0⟩
  | .chld a b g => some ⟨0, 2, 0x8C, 0, 0, a.val, b.val, g.toNat, 0⟩
  | .enco ch a b g => some ⟨0, 2, 0x90, 0, ch.val, a.val, b.val, g.toNat, 0⟩
  | .encf ch a b g => some ⟨0, 2, 0x91, 0, ch.val, a.val, b.val, g.toNat, 0⟩
  | .encc ch b g => some ⟨0, 2, 0x92, 0, ch.val, 0, b.val, g.toNat, 0⟩
  | .evsig d a g => some ⟨0, 3, 0xA0, 0, d.val, a.val, 0, g.toNat, 0⟩
  | .evwait d a g => some ⟨0, 3, 0xA1, 0, d.val, a.val, 0, g.toNat, 0⟩
  | .evclr d a g => some ⟨0, 3, 0xA2, 0, d.val, a.val, 0, g.toNat, 0⟩
  | .bari imm g => some ⟨1, 3, 0xA4, 0, 0, 0, 0, g.toNat, imm.toNat⟩
  | .bara a b g => some ⟨0, 3, 0xA5, 0, 0, a.val, b.val, g.toNat, 0⟩
  | .barw k a b g => some ⟨0, 3, 0xA6, 0, k.toNat, a.val, b.val, g.toNat, 0⟩
  | .barq a g => some ⟨0, 3, 0xA7, 0, 0, a.val, 0, g.toNat, 0⟩
  | .fence scope g => some ⟨0, 3, 0xA8, 0, scope.val, 0, 0, g.toNat, 0⟩
  | .acq scope g => some ⟨0, 3, 0xA9, 0, scope.val, 0, 0, g.toNat, 0⟩
  | .rel scope g => some ⟨0, 3, 0xAA, 0, scope.val, 0, 0, g.toNat, 0⟩
  | .tenq k a b g => some ⟨0, 3, 0xAC, 0, k.toNat, a.val, b.val, g.toNat, 0⟩
  | .tend a g => some ⟨0, 3, 0xAD, 0, 0, a.val, 0, g.toNat, 0⟩
  | .tyld g => some ⟨0, 3, 0xAE, 0, 0, 0, 0, g.toNat, 0⟩
  | .tspwn k a g => some ⟨0, 3, 0xAF, 0, k.toNat, a.val, 0, g.toNat, 0⟩
  | .tpollTask g => some ⟨0, 3, 0xB0, 0, 0, 0, 0, g.toNat, 0⟩
  | .tpollDie g => some ⟨0, 3, 0xB0, 0, 1, 0, 0, g.toNat, 0⟩
  | .lkprb a b g => some ⟨0, 3, 0xB1, 0, 0, a.val, b.val, g.toNat, 0⟩
  | .stamp k a g => some ⟨0, 3, 0xB2, 0, k.toNat, a.val, 0, g.toNat, 0⟩
  | .dln a imm g => some ⟨1, 3, 0xB3, 0, 0, a.val, 0, g.toNat, imm.toNat⟩
  | .diag g => some ⟨0, 3, 0xBF, 0, 0, 0, 0, g.toNat, 0⟩
  | .resultLand _ => none
  | .tileStoreBankGrant _ => none
  | .trapEntry => none
  | .streamDequeue => none
  | .startStampReached _ => none
  | .saffCommand _ => none
  | .saffwCommand _ => none
  | .sindCommand _ => none
  | .sindwCommand _ => none
  | .srecCommand _ => none
  | .sfillCommand _ => none
  | .smcCommand _ => none
  | .sgrowCommand _ => none
  | .sredCommand _ => none
  | .satmCommand _ => none
  | .scpyCommand _ => none
  | .sbarCommand _ => none
  | .stapCommand _ => none
  | .sfiltCommand _ => none
  | .smetaCommand _ => none
  | .stokCommand _ => none
  | .streamTokenTransfer _ => none
  | .streamRetire _ => none
  | .remoteTokenArrival _ => none
  | .portTokenEntry _ => none
  | .bareMarkerDiscard _ => none
  | .tokenBufferEntry _ => none
  | .groupFiring _ => none
  | .markerFiring _ => none
  | .markerThrough _ _ => none
  | .mms4Phase _ => none
  | .matrixStepLand _ => none
  | .irregularEmit _ => none
  | .engineCommandDequeue _ => none
  | .cfg => none
  | .run => none
  | .drn => none
  | .regionDrained => none
  | .qui => none
  | .quiAnswer => none
  | .mrk => none
  | .prt => none
  | .ord => none
  | .crun => none
  | .chainStepKeep => none
  | .chainStepSumInput => none
  | .chainStepPair => none
  | .csav => none
  | .clod => none
  | .eopn _ => none
  | .efrm _ => none
  | .ecls _ => none
  | .evwaitComplete => none
  | .barwComplete => none
  | .stampComplete => none
  | .tenqPlaced => none
  | .barrierArrival _ => none
  | .homeRmwApply _ => none
  | .roundBufferApply => none
  | .granuleTouch _ => none
  | .wound _ => none
  | .faultRepair _ => none
  | .shootDown _ => none
  | .repatch _ => none
  | .invalidation _ => none
  | .drainLimitExpiry => none
  | .configScrub => none
  | .stationFailure _ _ => none
  | .tail _ _ => none
  | .registerWrite _ _ => none
  | .packetFetch _ => none
  | .enqueuePacketArrival _ => none
  | .rackPacketArrival _ _ => none
  | .switchOut _ => none
  | .switchIn _ => none
  | .batchHandout => none
  | .taskDispatch _ => none
  | .taskBind => none
  | .taskEntry => none
  | .preemptionRequest _ => none
  | .sourceGating => none
  | .gatingLimitExpiry => none
  | .taskRestore => none
  | .deadlineExpiry => none
  | .abort => none
  | .remoteEventIncrement _ => none
  | .sessionRelease _ => none
  | .powerGood => none
  | .firmwareVerify _ => none
  | .hbmTrainingComplete _ => none
  | .linkTrainingComplete => none
  | .firmwareUpdate => none
  | .attestationRequest _ => none
  | .ageingSample => none
  | .retirement _ => none
  | .softTemperatureLimit _ => none
  | .hardTemperatureLimit => none
  | .packageLeavesPod _ => none

/-- The words of an instruction: the first, and the second where it has one. -/
def encode (i : Instr) : Option (Nat × Option Nat) :=
  match encodeFields i with
  | some f => some ((pack f).1, if f.ls = 1 then some (pack f).2 else none)
  | none => none

/-- The n bytes of v, least significant first (R1). -/
def bytesOf : Nat → Nat → List (BitVec 8)
  | 0, _ => []
  | n + 1, v => BitVec.ofNat 8 v :: bytesOf n (v / 256)

/-- The value of little-endian bytes (R1). -/
def ofBytes : List (BitVec 8) → Nat
  | [] => 0
  | b :: bs => b.toNat + 256 * ofBytes bs

/-- R15: an instruction from the bytes that start at its address, with the bytes after it. -/
def decodeBytes (bs : List (BitVec 8)) : Except Reject (Instr × List (BitVec 8)) :=
  if bs.length < 4 then .error .truncated
  else
    let w := ofBytes (bs.take 4)
    if w % 4 = 1 then
      if bs.length < 8 then .error .truncated
      else
        match decode w (ofBytes ((bs.drop 4).take 4)) with
        | .ok i => .ok (i, bs.drop 8)
        | .error e => .error e
    else
      match decode w 0 with
      | .ok i => .ok (i, bs.drop 4)
      | .error e => .error e

/-- What the decoder reads from an instruction numbered as the opcode table numbers it: the first word in bits 31 to
0, the second above it, all bits above nbits zero. -/
def decodeTableWord (nbits w : Nat) : Option Instr :=
  match decodeBytes (bytesOf 8 (w % 2 ^ nbits)) with
  | .ok (i, _) => some i
  | .error _ => none

end Sys2Proof
end

