-- ==== Sys2Proof/Machine/Assoc.lean ====
section
/-! DEFINITION. Tables of plain data keyed by numbers: lists with strictly rising keys. -/

namespace Sys2Proof.Machine

/-- The value at a key, or d where the table holds none. -/
def aget {α : Type} (d : α) (k : Nat) : List (Nat × α) → α
  | [] => d
  | (j, v) :: rest => if j = k then v else aget d k rest

/-- Whether the table holds the key. -/
def ahas {α : Type} (k : Nat) : List (Nat × α) → Bool
  | [] => false
  | (j, _) :: rest => j == k || ahas k rest

/-- The table with v at key k. -/
def aset {α : Type} (k : Nat) (v : α) : List (Nat × α) → List (Nat × α)
  | [] => [(k, v)]
  | (j, w) :: rest => if k < j then (k, v) :: (j, w) :: rest else if k = j then (k, v) :: rest else (j, w) :: aset k v rest

/-- The table without key k. -/
def adel {α : Type} (k : Nat) : List (Nat × α) → List (Nat × α)
  | [] => []
  | (j, w) :: rest => if j = k then adel k rest else (j, w) :: adel k rest

/-- The table with the value at k changed; a key the table does not hold starts from d. -/
def amod {α : Type} (d : α) (k : Nat) (f : α → α) (l : List (Nat × α)) : List (Nat × α) := aset k (f (aget d k l)) l

/-- The list with element k changed. -/
def lmod {α : Type} (k : Nat) (f : α → α) : List α → List α
  | [] => []
  | x :: xs =>
    match k with
    | 0 => f x :: xs
    | k + 1 => x :: lmod k f xs

/-- The list without element k. -/
def ldel {α : Type} (k : Nat) : List α → List α
  | [] => []
  | x :: xs =>
    match k with
    | 0 => xs
    | k + 1 => x :: ldel k xs

/-- The list without its first element equal to x. -/
def lrem {α : Type} [DecidableEq α] (x : α) : List α → List α
  | [] => []
  | y :: ys => if y = x then ys else y :: lrem x ys

end Sys2Proof.Machine
end

