-- ==== Sys2Proof/Machine/Numbers.lean ====
section
/-! DEFINITION. Number formats, exact values and rounding (spec/05_numbers.md). An exact value is a NaN, an infinity or
(-1)^neg * m * 2^e; every operation is computed on exact values and rounded once by roundTo. -/

namespace Sys2Proof.Machine

/-- R25, R129: the rounding modes. -/
inductive RMode where
  | rne | rtz | rup | rdn | rna
  deriving DecidableEq, Repr, Inhabited

/-- R25: the mode an RM code names; the codes 5 to 7 are refused before this is read. -/
def RMode.ofCode : Nat → RMode
  | 1 => .rtz | 2 => .rup | 3 => .rdn | 4 => .rna | _ => .rne

/-- The modifiers of one operation (R135). -/
structure Mods where
  rm : RMode := .rne
  sat : Bool := false
  ftz : Bool := false
  deriving DecidableEq, Repr, Inhabited

/-- R121, R123, R124, R154: the formats of elements, lanes and registers. -/
inductive Fmt where
  | fp64 | fp32 | fp16 | bf16 | e4m3 | e5m2 | tap8 | tap6 | int8 | int4 | int32 | i64 | metad | octet
  deriving DecidableEq, Repr, Inhabited

/-- R154: the format an EFMT code names. -/
def Fmt.ofEfmt : Nat → Option Fmt
  | 1 => some .fp32 | 2 => some .fp16 | 3 => some .bf16 | 4 => some .e4m3 | 5 => some .e5m2 | 6 => some .tap8
  | 7 => some .tap6 | 8 => some .int8 | 9 => some .int4 | 10 => some .int32 | 11 => some .i64 | 12 => some .metad
  | 13 => some .octet | _ => none

/-- The width of a format in bits. -/
def Fmt.width : Fmt → Nat
  | .fp64 => 64 | .fp32 => 32 | .fp16 => 16 | .bf16 => 16 | .e4m3 => 8 | .e5m2 => 8 | .tap8 => 8 | .tap6 => 6
  | .int8 => 8 | .int4 => 4 | .int32 => 32 | .i64 => 64 | .metad => 32 | .octet => 8

/-- R146, R154: the lanes of a 64-byte token. -/
def Fmt.lanes (f : Fmt) : Nat := if f = .tap6 then 64 else 512 / f.width

/-- The exponent bits, fraction bits and bias of an IEEE format (R121). -/
def Fmt.ieee : Fmt → Option (Nat × Nat × Int)
  | .fp64 => some (11, 52, 1023) | .fp32 => some (8, 23, 127) | .fp16 => some (5, 10, 15) | .bf16 => some (8, 7, 127)
  | .e4m3 => some (4, 3, 7) | .e5m2 => some (5, 2, 15) | _ => none

/-- Body width of a tapered format (R124). -/
def Fmt.tapBody : Fmt → Option Nat
  | .tap8 => some 7 | .tap6 => some 5 | _ => none

/-- Width of a two's complement format that takes numbers (R123). -/
def Fmt.intBits : Fmt → Option Nat
  | .int8 => some 8 | .int4 => some 4 | .int32 => some 32 | .i64 => some 64 | _ => none

/-- The largest finite magnitude pattern of an IEEE format (R121). -/
def Fmt.maxFinite : Fmt → Nat
  | .fp64 => 0x7FEFFFFFFFFFFFFF | .fp32 => 0x7F7FFFFF | .fp16 => 0x7BFF | .bf16 => 0x7F7F | .e5m2 => 0x7B
  | .e4m3 => 0x7E | _ => 0

/-- R122: the canonical NaN. -/
def Fmt.canonicalNaN : Fmt → Nat
  | .fp64 => 0x7FF8000000000000 | .fp32 => 0x7FC00000 | .fp16 => 0x7E00 | .bf16 => 0x7FC0 | .e5m2 => 0x7E
  | .e4m3 => 0x7F | _ => 0

/-- An exact value (R7). -/
inductive FVal where
  | nan
  | inf (neg : Bool)
  | fin (neg : Bool) (m : Nat) (e : Int)
  deriving DecidableEq, Repr, Inhabited

namespace FVal

def zero : FVal := .fin false 0 0

def isNan : FVal → Bool
  | .nan => true | _ => false

def isZero : FVal → Bool
  | .fin _ 0 _ => true | _ => false

def isInf : FVal → Bool
  | .inf _ => true | _ => false

def sign : FVal → Bool
  | .nan => false | .inf n => n | .fin n _ _ => n

def neg : FVal → FVal
  | .nan => .nan | .inf n => .inf !n | .fin n m e => .fin (!n) m e

def abs : FVal → FVal
  | .nan => .nan | .inf _ => .inf false | .fin _ m e => .fin false m e

def ofInt (v : Int) : FVal := .fin (decide (v < 0)) v.natAbs 0

end FVal

/-- The integer of a sign and a magnitude. -/
def signed (neg : Bool) (m : Nat) : Int := if neg then -(m : Int) else m

/-- Two magnitudes at their common exponent. -/
def align (m1 : Nat) (e1 : Int) (m2 : Nat) (e2 : Int) : Nat × Nat × Int :=
  let e := min e1 e2
  (m1 * 2 ^ (e1 - e).toNat, m2 * 2 ^ (e2 - e).toNat, e)

/-- m1 * 2^e1 ≤ m2 * 2^e2. -/
def magLe (m1 : Nat) (e1 : Int) (m2 : Nat) (e2 : Int) : Bool :=
  let (a, b, _) := align m1 e1 m2 e2
  decide (a ≤ b)

namespace FVal

/-- The exact sum. Opposite infinities give a NaN; an exact zero sum of operands of opposite sign is +0, or -0 under
RDN (R129); equal signs keep theirs. -/
def add (rm : RMode) : FVal → FVal → FVal
  | .nan, _ => .nan
  | _, .nan => .nan
  | .inf n, .inf k => if n = k then .inf n else .nan
  | .inf n, _ => .inf n
  | _, .inf n => .inf n
  | .fin n m e, .fin k p f =>
    let (a, b, g) := align m e p f
    let v := signed n a + signed k b
    if v = 0 then .fin (if n = k then n else decide (rm = .rdn)) 0 0 else .fin (decide (v < 0)) v.natAbs g

/-- The exact product; 0 times an infinity is a NaN (R68, R137). -/
def mul : FVal → FVal → FVal
  | .nan, _ => .nan
  | _, .nan => .nan
  | .inf n, .inf k => .inf (n != k)
  | .inf n, .fin k m _ => if m = 0 then .nan else .inf (n != k)
  | .fin n m _, .inf k => if m = 0 then .nan else .inf (n != k)
  | .fin n m e, .fin k p f => .fin (n != k) (m * p) (e + f)

/-- The quotient, with one bit below the last that rounding reads standing for the exact remainder (R68). -/
def div : FVal → FVal → FVal
  | .nan, _ => .nan
  | _, .nan => .nan
  | .inf _, .inf _ => .nan
  | .inf n, .fin k _ _ => .inf (n != k)
  | .fin n _ _, .inf k => .fin (n != k) 0 0
  | .fin n m e, .fin k p f =>
    if p = 0 then (if m = 0 then .nan else .inf (n != k))
    else if m = 0 then .fin (n != k) 0 0
    else
      let s := 72 + p.log2
      let q := m * 2 ^ s / p
      let r := m * 2 ^ s % p
      .fin (n != k) (2 * q + (if r = 0 then 0 else 1)) (e - f - s - 1)

end FVal

/-- The integer square root of v, bit by bit from bit k down. -/
def isqrtFrom (v : Nat) : Nat → Nat → Nat
  | 0, r => if (r + 1) * (r + 1) ≤ v then r + 1 else r
  | k + 1, r =>
    let t := r + 2 ^ (k + 1)
    isqrtFrom v k (if t * t ≤ v then t else r)

def isqrt (v : Nat) : Nat := isqrtFrom v (v.log2 / 2 + 1) 0

/-- The square root; the square root of -0 is -0 and of any other negative value a NaN (R68). -/
def FVal.sqrt : FVal → FVal
  | .nan => .nan
  | .inf n => if n then .nan else .inf false
  | .fin n m e =>
    if m = 0 then .fin n 0 0
    else if n then .nan
    else
      let odd := (e % 2).toNat
      let v := m * 2 ^ odd * 2 ^ 144
      let r := isqrt v
      .fin false (2 * r + (if r * r = v then 0 else 1)) ((e - odd) / 2 - 72 - 1)

/-- The value times 2^k. -/
def FVal.scale (v : FVal) (k : Int) : FVal :=
  match v with
  | .fin n m e => .fin n m (e + k)
  | x => x

/-- a < b as numbers: zeros of either sign are equal; false on any NaN. -/
def FVal.lt : FVal → FVal → Bool
  | .nan, _ => false
  | _, .nan => false
  | .inf n, .inf k => n && !k
  | .inf n, _ => n
  | _, .inf n => !n
  | .fin n m e, .fin k p f =>
    let (a, b, _) := align m e p f
    decide (signed n a < signed k b)

/-- a = b as numbers: -0 equals +0. -/
def FVal.eqv : FVal → FVal → Bool
  | .nan, _ => false
  | _, .nan => false
  | .inf n, .inf k => n == k
  | .inf _, _ => false
  | _, .inf _ => false
  | .fin n m e, .fin k p f =>
    let (a, b, _) := align m e p f
    decide (signed n a = signed k b)

/-- The lesser operand, -0 below +0; any NaN gives a NaN (R69, R141, R171). -/
def FVal.min (a b : FVal) : FVal :=
  if a.isNan || b.isNan then .nan
  else if a.lt b then a else if b.lt a then b else if a.sign then a else b

/-- The greater operand, -0 below +0; any NaN gives a NaN (R69, R141, R171). -/
def FVal.max (a b : FVal) : FVal :=
  if a.isNan || b.isNan then .nan
  else if a.lt b then b else if b.lt a then a else if a.sign then b else a

/-- The two's complement value of the low b bits. -/
def toSigned (b v : Nat) : Int :=
  let u := v % 2 ^ b
  if b ≠ 0 ∧ 2 ^ (b - 1) ≤ u then (u : Int) - (2 ^ b : Nat) else u

/-- The low b bits of an integer. -/
def wrapInt (b : Nat) (v : Int) : Nat := (v % ((2 ^ b : Nat) : Int)).toNat

/-- The length of the run of bits equal to v at the top of an n-bit body. -/
def topRun (body : Nat) (v : Bool) : Nat → Nat
  | 0 => 0
  | n + 1 => if body.testBit n = v then topRun body v n + 1 else 0

/-- R124: the magnitude of a tapered body of w bits, other than the zero body, as m * 2^e. -/
def tapMag (w body : Nat) : Nat × Int :=
  let top := body.testBit (w - 1)
  let run := topRun body top w
  let k : Int := if top then (run : Int) - 1 else -(run : Int)
  let t := w - run - 1
  let e : Int := if t = 0 then 0 else ((body / 2 ^ (t - 1) % 2 : Nat) : Int)
  let fb := t - 1
  let f := body % 2 ^ fb
  (2 ^ fb + f, 2 * k + e - fb)

/-- R121 to R124, R128: the exact value of a pattern. An octet or a metadata word is read as an unsigned integer. -/
def Fmt.value (f : Fmt) (p : Nat) : FVal :=
  match f.ieee with
  | some (ew, fb, bias) =>
    let u := p % 2 ^ f.width
    let neg := u.testBit (f.width - 1)
    let e := u / 2 ^ fb % 2 ^ ew
    let m := u % 2 ^ fb
    if f = .e4m3 && e = 15 && m = 7 then .nan
    else if f ≠ .e4m3 && e = 2 ^ ew - 1 then (if m = 0 then .inf neg else .nan)
    else if e = 0 then .fin neg m (1 - bias - fb)
    else .fin neg (2 ^ fb + m) (e - bias - fb)
  | none =>
    match f.tapBody with
    | some w =>
      let body := p % 2 ^ w
      let neg := p.testBit w
      if body = 0 then (if neg then .nan else .zero)
      else
        let (m, e) := tapMag w body
        .fin neg m e
    | none =>
      match f.intBits with
      | some b => FVal.ofInt (toSigned b p)
      | none => .fin false (p % 2 ^ f.width) 0

/-- R131: a pattern that is subnormal in its own format. -/
def Fmt.subnormal (f : Fmt) (p : Nat) : Bool :=
  match f.ieee with
  | some (ew, fb, _) => p / 2 ^ fb % 2 ^ ew == 0 && p % 2 ^ fb != 0
  | none => false

/-- R131: the value of an operand, a subnormal one read as zero of its sign under FTZ. -/
def Fmt.operand (f : Fmt) (ftz : Bool) (p : Nat) : FVal :=
  if ftz && f.subnormal p then .fin (p.testBit (f.width - 1)) 0 0 else f.value p

/-- R129: whether a magnitude n with the remainder rem of 2^k is rounded away from zero. -/
def roundUp (rm : RMode) (neg : Bool) (n rem k : Nat) : Bool :=
  match rm with
  | .rne => decide (2 * rem > 2 ^ k) || (decide (2 * rem = 2 ^ k) && n % 2 == 1)
  | .rna => decide (2 * rem ≥ 2 ^ k) && rem != 0
  | .rtz => false
  | .rup => rem != 0 && !neg
  | .rdn => rem != 0 && neg

/-- The magnitude m * 2^e rounded to a multiple of 2^q, as that multiple. -/
def roundMag (rm : RMode) (neg : Bool) (m : Nat) (e q : Int) : Nat :=
  if q ≤ e then m * 2 ^ (e - q).toNat
  else
    let k := (q - e).toNat
    let n := m / 2 ^ k
    if roundUp rm neg n (m % 2 ^ k) k then n + 1 else n

/-- A sign above a magnitude pattern of w - 1 bits. -/
def signBit (w : Nat) (neg : Bool) : Nat := if neg then 2 ^ (w - 1) else 0

/-- R130: whether an overflow goes to infinity. -/
def overflowsToInf (md : Mods) (neg : Bool) : Bool :=
  !md.sat &&
    match md.rm with
    | .rne => true | .rna => true | .rup => !neg | .rdn => neg | .rtz => false

/-- R129, R130: an infinity in an IEEE format; E4M3 has none. -/
def infPattern (f : Fmt) (ew fb : Nat) (sat neg : Bool) : Nat :=
  if f = .e4m3 then (if sat then signBit 8 neg + 0x7E else 0x7F)
  else signBit f.width neg + (2 ^ ew - 1) * 2 ^ fb

/-- R129 to R131: Round into an IEEE format. -/
def roundIeee (f : Fmt) (ew fb : Nat) (bias : Int) (md : Mods) : FVal → Nat
  | .nan => f.canonicalNaN
  | .inf n => infPattern f ew fb md.sat n
  | .fin n m e =>
    if m = 0 then signBit f.width n
    else
      let low : Int := 1 - bias - fb
      let q := max ((m.log2 : Int) + e - fb) low
      let mag := (q - low).toNat * 2 ^ fb + roundMag md.rm n m e q
      if mag > f.maxFinite then
        if overflowsToInf md n then infPattern f ew fb md.sat n else signBit f.width n + f.maxFinite
      else if md.ftz && decide (mag < 2 ^ fb) then signBit f.width n
      else signBit f.width n + mag

/-- The largest body from n down whose magnitude is at most m * 2^e (R132). -/
def tapFloor (w m : Nat) (e : Int) : Nat → Nat
  | 0 => 0
  | n + 1 => if magLe (tapMag w (n + 1)).1 (tapMag w (n + 1)).2 m e then n + 1 else tapFloor w m e n

/-- R132: Round into a tapered format of body width w. -/
def roundTap (w : Nat) (rm : RMode) : FVal → Nat
  | .nan => 2 ^ w
  | .inf _ => 2 ^ w
  | .fin n m e =>
    if m = 0 then 0
    else
      let p := max 1 (tapFloor w m e (2 ^ w - 1))
      let mx := tapMag w (2 ^ w - 1)
      let mn := tapMag w 1
      let a : Nat × Int := if magLe m e mn.1 mn.2 then mn else if magLe mx.1 mx.2 m e then mx else (m, e)
      let mp := tapMag w p
      let q :=
        if magLe a.1 a.2 mp.1 mp.2 then p
        else
          let tie := tapMag (w + 1) (2 * p + 1)
          let atMost := magLe a.1 a.2 tie.1 tie.2
          let atLeast := magLe tie.1 tie.2 a.1 a.2
          match rm with
          | .rne => if !atLeast then p else if !atMost then p + 1 else if p % 2 = 0 then p else p + 1
          | .rna => if atLeast then p + 1 else p
          | .rtz => p
          | .rup => if n then p else p + 1
          | .rdn => if n then p + 1 else p
      (if n then 2 ^ w else 0) + q

/-- A finite value rounded to an integer under a mode. -/
def roundInt (rm : RMode) (n : Bool) (m : Nat) (e : Int) : Int := signed n (roundMag rm n m e 0)

/-- R71, R133: Round into a two's complement integer of b bits, as a pattern. -/
def roundToInt (b : Nat) (md : Mods) : FVal → Nat
  | .nan => if md.sat then 0 else 2 ^ (b - 1)
  | .inf n => if md.sat then (if n then 2 ^ (b - 1) else 2 ^ (b - 1) - 1) else 2 ^ (b - 1)
  | .fin n m e =>
    let v := roundInt md.rm n m e
    let lo : Int := -((2 ^ (b - 1) : Nat) : Int)
    let hi : Int := ((2 ^ (b - 1) : Nat) : Int) - 1
    if v < lo then 2 ^ (b - 1)
    else if v > hi then (if md.sat then 2 ^ (b - 1) - 1 else 2 ^ (b - 1))
    else wrapInt b v

/-- Round(v, mode, fmt) for every format (R129 to R134). An octet takes the value modulo 256 and a metadata word modulo
2^32, which no rule rounds into. -/
def roundTo (f : Fmt) (md : Mods) (v : FVal) : Nat :=
  match f.ieee with
  | some (ew, fb, bias) => roundIeee f ew fb bias md v
  | none =>
    match f.tapBody with
    | some w => roundTap w md.rm v
    | none =>
      match f.intBits with
      | some b => roundToInt b md v
      | none =>
        match v with
        | .fin n m e => wrapInt f.width (roundInt .rtz n m e)
        | _ => 0

/-- The n fields of w bits of a value, lowest first (R146). -/
def fieldsOf (w : Nat) : Nat → Nat → List Nat
  | 0, _ => []
  | n + 1, v => v % 2 ^ w :: fieldsOf w n (v / 2 ^ w)

/-- Fields of w bits packed, the first lowest. -/
def packFields (w : Nat) : List Nat → Nat
  | [] => 0
  | x :: xs => x % 2 ^ w + 2 ^ w * packFields w xs

/-- R146: lane j of a token pattern. -/
def laneOf (w v j : Nat) : Nat := v / 2 ^ (w * j) % 2 ^ w

/-- R162: an element as a 64-bit token: the integer formats below 64 bits sign-extended, all others zero-extended. -/
def extend64 (f : Fmt) (p : Nat) : Nat :=
  match f with
  | .int8 => wrapInt 64 (toSigned 8 p)
  | .int4 => wrapInt 64 (toSigned 4 p)
  | .int32 => wrapInt 64 (toSigned 32 p)
  | f => p % 2 ^ f.width

end Sys2Proof.Machine
end

