-- ==== Sys2Proof/Config.lean ====
section
/-! DEFINITION. What an implementation fixes, and the free values: what the spec leaves open is a constant with no body
here, so nothing can be proved of its value. Limits that the spec does set are kept where a value is used. -/

namespace Sys2Proof

namespace Machine

/-- R464: a block of a graph: the arena that holds it (its base and bound, and the offset of its configuration words), and its offset
there. -/
structure GraphBlock where
  code : Nat
  bound : Nat
  cfgtab : Nat
  off : Nat
  deriving DecidableEq, Repr, Inhabited

/-- R464: an edge of a graph: an output port of one block and an input port of another, the blocks by number. -/
structure GraphEdge where
  src : Nat
  out : Nat
  dst : Nat
  inp : Nat
  deriving DecidableEq, Repr, Inhabited

/-- R302: what a SCOPE field of a graph's code stands in: the word of a FENCE, ACQ or REL, the two words of a BARI, or a BIND field. -/
inductive ScopeField where
  | word | bari | bind
  deriving DecidableEq, Repr, Inhabited

/-- R302: a SCOPE field that names a level, 0 to 5, of a graph: what it stands in, and the physical address of that. -/
structure GraphScope where
  field : ScopeField
  addr : Nat
  level : Nat
  deriving DecidableEq, Repr, Inhabited

/-- R464, R302: a Grenit graph: its blocks, its edges, the blocks of each of its levels L1 to L5, and the SCOPE fields that name a level. -/
structure Graph where
  blocks : List GraphBlock
  edges : List GraphEdge
  levels : List (List Nat)
  fields : List GraphScope
  deriving DecidableEq, Repr, Inhabited

end Machine

/-- One thing that happens in the package. -/
inductive Move where
  /-- A head of a context slot (by ctxid, R100) steps over one word or issues one unit (R98, R103). -/
  | head (ctx : Nat) (h : Head)
  /-- An event of the opcode table, at the context slot ctx where it concerns one. -/
  | event (ctx : Nat) (e : Instr)
  /-- System software, a host or a device of the pod writes bytes of physical memory (spec/00, spec/16). -/
  | write (addr : Nat) (bytes : List Byte)
  /-- A stored word becomes uncorrectable (R335): of a slot's tile store (by ctxid), or of physical memory. -/
  | upset (tile : Option Nat) (addr : Nat)
  /-- A read of such a word finds a single-bit error, which it corrects (R335). -/
  | corrected (tile : Option Nat) (addr : Nat)
  /-- The host writes bytes of the aperture (R360). -/
  | aperture (offset : Nat) (bytes : List Byte)
  /-- Stream j of loaded graph k passes on a token (R464). -/
  | edge (k j : Nat)
  /-- System software has the package loader load a graph (R464). -/
  | graph (g : Machine.Graph)
  /-- A token from another package of the pod (R151, R355). -/
  | podToken (dst port : Nat) (cpl : Bool) (pay : Nat) (lem mkr : Bool) (ev : Option Nat)
  /-- An enqueue packet from another package (R384). -/
  | podPacket (queue : Nat) (words : List Word)
  /-- An arrival on a `.pod` barrier from another package (R242, R355). -/
  | podArrival (epoch bid weight : Nat)
  /-- A completion event word from another package (R378). -/
  | podCount (word : Word)
  deriving DecidableEq, Repr, Inhabited

/-- A move, and the ac that pass before it. -/
structure Turn where
  wait : Ac
  move : Move
  deriving DecidableEq, Repr, Inhabited

namespace Config

/-- Which move comes next, and after how many ac, where the spec fixes no order: any turn may come. -/
opaque freeTurn : Nat → Turn
/-- An undefined register value (R105): the n-th draw. -/
opaque freeWord : Nat → Word
/-- The y of VRCP to VTANH (by operator code) for an exact argument, as an FP32 pattern (R198): a function of the
argument alone, within the bounds that are checked where it is used. -/
opaque special : Nat → Machine.FVal → Nat
/-- The bitstream bytes of a coded frame, from the channel's parameter words, the frame and the frames before it in the channel
(R455), a frame being its KEY bit and its sample bytes: which bytes the encoder makes is not stated. -/
opaque codedFrame : List Nat → List Byte → List (List Byte) → List Byte
/-- The two public keys (0 Ed25519, 1 ML-DSA-65) that an image is signed with and comes with (R470). -/
opaque publicKey : List Byte → Nat → List Byte
/-- The firmware image that a die boots from (R467, R470): it comes from outside the package. -/
opaque bootImage : Nat → List Byte
/-- The id that the pod descriptor gives the package (R361, R467). -/
opaque podId : Nat
/-- The signature that the package manager puts on a report under each of the two algorithms (R471). -/
opaque reportSignature : Nat → List Byte → Nat
/-- Fused SHA-384 digests of the firmware keys, by key slot, the first byte most significant (R470). -/
opaque fusedKeyDigest : Nat → Nat
/-- The fused least security version number of an image KIND (R470). -/
opaque fusedMinSvn : Nat → Nat
/-- What the n-th sample of the monitors finds: a part that no longer meets its margins, or none (R472). -/
opaque monitorSample : Nat → Nat
/-- What the host reads of another package of the bridge group (R360): by the STC count, whether it reads the aperture, the package and the
offset in its part of the window or its address. -/
opaque peerRead : Nat → Bool → Nat → Nat → Nat
/-- Other open choices, by the number of the draw: what a configuration read finds (R339), what a queue of another package answers (R357), how
much of a frame is written before a capacity fault (R455). -/
opaque freeNat : Nat → Nat

/-- The package's own id in the pod: read from the pod descriptor at stage 3 (R361); before that this value. -/
def pkgId : Nat := 0

end Config

end Sys2Proof
end

