-- ==== Sys2Proof/Machine/CoreTypes.lean ====
section
/-! DEFINITION. The state of a slot's control core as plain data (spec/04, spec/02, spec/06 R157, R178). -/

namespace Sys2Proof.Machine

/-- A register of the S head: s0 to s31, f0 to f15, p0 to p7 (R51). -/
inductive RegId where
  | s (n : Fin 32)
  | f (n : Fin 16)
  | p (n : Fin 8)
  deriving DecidableEq, Repr, Inhabited

/-- R52, R105: a result in flight: issued in S issue cycle start with class cls; landed once written. wait marks an LDT
whose bank has not been granted (R109). -/
structure Flight where
  reg : RegId
  val : Word
  start : Nat
  cls : Nat
  landed : Bool
  wait : Bool
  deriving DecidableEq, Repr, Inhabited

/-- R77, R101, R104: how an outcome stands to the linear path: S recorded it in its first pass over the word; in a repeated pass of a
BRP loop, whose words no trailing head meets again; or by the transfer that took S out of a repeated pass of the loop which the BRP at
brp closes, which a trailing head follows at that BRP, held until S has executed the BRP not taken (DEDUCED, log 14). -/
inductive Pass where
  | first | again
  | left (brp : Nat) (held : Bool)
  deriving DecidableEq, Repr, Inhabited

/-- R104: an entry of the branch-outcome queue, by arena offsets, and how it stands to the linear path. -/
structure Branch where
  tgt : Nat
  xfer : Nat
  tkn : Bool
  pass : Pass := .first
  deriving DecidableEq, Repr, Inhabited

/-- R101: the loop that S repeats: the address of its BRP, the lowest target of that loop, and the calls that S is inside (log 14). -/
structure Loop where
  brp : Nat
  start : Nat
  depth : Nat := 0
  deriving DecidableEq, Repr, Inhabited

/-- R28: a prefix of S and the target it has found: its modifiers (RM as coded), its address and the target's. -/
structure Prefix where
  rm : Nat
  sat : Bool
  ftz : Bool
  addr : Nat
  goal : Nat
  deriving DecidableEq, Repr, Inhabited

/-- R101 to R104: where the four heads stand on a linear path: their program counters, the words by which each trailing
head is behind S, the branch-outcome queue, and for each trailing head how many of its entries it has consumed. replay is the
loop that S repeats (R77, R101). -/
structure Path where
  pcS : Nat := 0
  pcM : Nat := 0
  pcA : Nat := 0
  pcY : Nat := 0
  lagM : Nat := 0
  lagA : Nat := 0
  lagY : Nat := 0
  boq : List Branch := []
  usedM : Nat := 0
  usedA : Nat := 0
  usedY : Nat := 0
  replay : Option Loop := none
  /-- R101, R103: a head has stepped past the first word only of the 64-bit instruction at its program counter. -/
  halfS : Bool := false
  halfM : Bool := false
  halfA : Bool := false
  halfY : Bool := false
  /-- R28, R88: the prefix that S has stepped past and whose unit has not issued: S is on its way over the words up to the target, where
  the unit issues (log 65). -/
  pfx : Option Prefix := none
  /-- R117: where a trailing head stands that a TRET resumed off S's path; its place on the path is kept beside it. -/
  lostM : Option Nat := none
  lostA : Option Nat := none
  lostY : Option Nat := none
  deriving DecidableEq, Repr, Inhabited

/-- R109: an LDT or STT that waits for its bank, and the ac it has been refused. -/
structure BankReq where
  addr : Nat
  store : Bool
  data : Word
  refused : Nat
  deriving DecidableEq, Repr, Inhabited

/-- R238, R120: a Y word that waits. It has not issued: after a trap or pre-emption it issues afresh. -/
inductive YWait where
  | event (e : Fin 32) (n : Nat)
  | barrier (reference : Word) (phase : Nat) (chk : Bool)
  | stamp (at' : Nat) (miss : Bool)
  | enqueue (offset : Nat) (dest : Word) (ack : Bool) (reserved : Bool)
  deriving DecidableEq, Repr, Inhabited

/-- R113, R115, R116: an asynchronous cause that is pending: CAUSE, HEAD (7 for none) and trapval. -/
structure Async where
  cause : Nat
  head : Nat
  val : Word
  deriving DecidableEq, Repr, Inhabited

/-- R178: a declared windrow: base, slot size and slot count, FREE, FILLED, WP and RP, with the bytes of the slot being
written and of the slot being read that are done. -/
structure Windrow where
  base : Nat
  size : Nat
  count : Nat
  free : Nat
  filled : Nat
  wp : Nat
  rp : Nat
  /-- Bits of slot WP that are written, and of slot RP that are read. -/
  wbits : Nat := 0
  rbits : Nat := 0
  deriving DecidableEq, Repr, Inhabited

/-- R28: a prefix that is issuing with its target at a trailing head: the head, the modifiers (RM as coded), the prefix's address, and the
words from it to its target. -/
structure Arm where
  head : Head
  rm : Nat
  sat : Bool
  ftz : Bool
  addr : Nat
  dist : Nat
  deriving DecidableEq, Repr, Inhabited

/-- The control core of one slot. -/
structure Core where
  sreg : Vector Word 32 := Vector.replicate 32 0
  /-- s24 to s31 in supervisor mode (R111). -/
  supBank : Vector Word 8 := Vector.replicate 8 0
  freg : Vector Word 16 := Vector.replicate 16 0
  preg : Vector Bool 8 := Vector.replicate 8 false
  hreg : Vector (BitVec 32) 16 := Vector.replicate 16 0
  bdreg : Vector (BitVec 16) 8 := Vector.replicate 8 1
  ereg : Vector (BitVec 16) 32 := Vector.replicate 32 0
  /-- The ac of the last EVCLR of an event, and that of its last decrement (R240). -/
  evClear : List (Nat × Nat) := []
  evTake : List (Nat × Nat) := []
  spill : List (Nat × Word) := []
  supSpill : List (Nat × Word) := []
  slipwin : BitVec 9 := 64
  /-- The fields of tstatus (R112); PEND is whether pend holds a cause or a wound is held. -/
  dzt : Bool := false
  commit : Bool := false
  jnl : Bool := false
  diagen : Bool := false
  /-- MODE: supervisor. -/
  sup : Bool := false
  trapcause : Word := 0
  trapval : Word := 0
  trappcS : BitVec 32 := 0
  trappcM : BitVec 32 := 0
  trappcA : BitVec 32 := 0
  trappcY : BitVec 32 := 0
  arenabase : BitVec 52 := 0
  arenabound : BitVec 32 := 0
  age : Word := 0
  restarts : BitVec 16 := 0
  deadline : Word := BitVec.allOnes 64
  /-- The deadline cause has been raised for the deadline in force (R256, R393). -/
  dued : Bool := false
  /-- The paths of user mode and of supervisor mode. -/
  user : Path := {}
  firm : Path := {}
  /-- S issue cycles so far (R108). -/
  cycle : Nat := 0
  flights : List Flight := []
  /-- The modifiers a prefix gives to the instruction of its own issue unit (R28). -/
  arm : Option Arm := none
  bank : Option BankReq := none
  ywait : Option YWait := none
  /-- R255: a STAMP was waiting when the task was pre-empted, and is to issue afresh. -/
  restamp : Bool := false
  pend : List Async := []
  /-- A wound is held until TRET (R118). -/
  woundHeld : Bool := false
  /-- Partial assembly buffers of cmdm, cmda and cmde (R87). -/
  asmM : List Word := []
  asmA : List Word := []
  asmE : List Word := []
  chf : List Word := []
  sts : List Word := []
  xi : Vector (List Word) 4 := Vector.replicate 4 []
  xo : Vector (List Word) 4 := Vector.replicate 4 []
  /-- Next ordinals of the stream, array-and-chain and encode queues, and of acknowledged enqueues (R157, R217, R237). -/
  seqM : BitVec 16 := 0
  seqA : BitVec 16 := 0
  seqE : BitVec 16 := 0
  acks : Nat := 0
  windrows : List (Nat × Windrow) := []
  deriving DecidableEq, Repr, Inhabited

end Sys2Proof.Machine
end

