-- ==== Sys2Proof/Machine/Block.lean ====
section
/-! DEFINITION. Dataflow blocks: layout, the loader's checks and their codes, groups and links (spec/01 R36 to R50,
spec/07 R184 to R194, spec/10 R268 and R271). The arena is given as a byte reader. -/

namespace Sys2Proof.Machine

/-- R40: an operator slot, decoded. -/
structure BSlot where
  imm : Nat
  mt : Bool
  rep : Bool
  port : Nat
  dly : Nat
  nc : Nat
  opb : Nat
  slb : Nat
  opa : Nat
  sla : Nat
  mode : Nat
  pl : Bool
  op : Nat
  deriving DecidableEq, Repr, Inhabited

/-- R46: a port-map entry: an input binding, or an output port with its id. -/
structure PortEntry where
  dir : Bool
  phys : Nat
  slot : Nat
  opnd : Nat
  pid : Nat
  resv : Nat
  deriving DecidableEq, Repr, Inhabited

/-- R460, R267: where a block stands: the PE of each slot in its quadrant, and the physical port of its tile that each input port and
each output port of the region maps onto, by index. -/
structure Placement where
  pes : List Nat := []
  ins : List (Nat × Nat) := []
  outs : List (Nat × Nat) := []
  deriving DecidableEq, Repr, Inhabited

/-- A block as loaded: its arena offset and id, its slots with their configuration words, its port map and, for each
slot, the PE of the quadrant it stands on (R460). -/
structure Block where
  off : Nat
  blkid : Nat
  anyq : Bool
  slots : List BSlot
  words : List Nat
  ports : List PortEntry
  place : Placement
  deriving DecidableEq, Repr, Inhabited

/-- R40. -/
def BSlot.ofWord (w : Nat) : BSlot where
  imm := w / 2 ^ 48 % 2 ^ 16
  mt := w.testBit 47
  rep := w.testBit 46
  port := w / 2 ^ 40 % 64
  dly := w / 2 ^ 36 % 16
  nc := w / 2 ^ 34 % 4
  opb := w / 2 ^ 32 % 4
  slb := w / 2 ^ 25 % 128
  opa := w / 2 ^ 23 % 4
  sla := w / 2 ^ 16 % 128
  mode := w / 256 % 256
  pl := w.testBit 7
  op := w % 128

/-- R46. -/
def PortEntry.ofWord (w : Nat) : PortEntry where
  dir := w.testBit 31
  phys := w / 2 ^ 25 % 64
  slot := w / 2 ^ 18 % 128
  opnd := w / 2 ^ 16 % 4
  pid := w / 2 ^ 10 % 64
  resv := w % 1024

/-- The planes a result or an operand may take. -/
inductive Plane where
  | d | c | p
  deriving DecidableEq, Repr

/-- R48, R196 to R213: inputs, planes of the result, statefulness, latency and operand planes of an operator. -/
structure OpInfo where
  inputs : Nat
  planes : Plane
  stateful : Bool
  lat : Nat
  opPlanes : List Plane
  deriving DecidableEq, Repr

/-- R48 with the latencies of R196, R203, R205, R206, R207, R211 to R213; none for an unassigned code point (R49).
Result plane p stands for either. -/
def opInfo : Nat → Option OpInfo
  | 0x01 => some ⟨2, .d, false, 2, [.d, .d]⟩
  | 0x02 => some ⟨2, .d, false, 2, [.d, .d]⟩
  | 0x03 => some ⟨2, .d, false, 2, [.d, .d]⟩
  | 0x04 => some ⟨3, .d, false, 3, [.d, .d, .d]⟩
  | 0x05 => some ⟨2, .d, false, 2, [.d, .d]⟩
  | 0x06 => some ⟨2, .d, false, 2, [.d, .d]⟩
  | 0x07 => some ⟨1, .d, false, 2, [.d]⟩
  | 0x08 => some ⟨1, .d, false, 2, [.d]⟩
  | 0x09 => some ⟨2, .d, false, 2, [.d, .d]⟩
  | 0x0A => some ⟨3, .d, false, 2, [.d, .d, .d]⟩
  | 0x0B => some ⟨2, .d, false, 2, [.d, .d]⟩
  | 0x0C => some ⟨2, .d, false, 2, [.d, .d]⟩
  | 0x0D => some ⟨2, .d, false, 2, [.d, .d]⟩
  | 0x0E => some ⟨2, .d, false, 2, [.d, .d]⟩
  | 0x0F => some ⟨2, .d, false, 2, [.d, .d]⟩
  | 0x10 => some ⟨1, .d, false, 2, [.d]⟩
  | 0x11 => some ⟨1, .d, false, 6, [.d]⟩
  | 0x12 => some ⟨1, .d, false, 6, [.d]⟩
  | 0x13 => some ⟨1, .d, false, 6, [.d]⟩
  | 0x14 => some ⟨1, .d, false, 6, [.d]⟩
  | 0x15 => some ⟨1, .d, false, 6, [.d]⟩
  | 0x16 => some ⟨1, .d, false, 6, [.d]⟩
  | 0x17 => some ⟨1, .d, false, 6, [.d]⟩
  | 0x18 => some ⟨2, .d, false, 2, [.d, .d]⟩
  | 0x20 => some ⟨2, .d, true, 1, [.d, .d]⟩
  | 0x21 => some ⟨3, .d, true, 1, [.d, .d, .d]⟩
  | 0x22 => some ⟨2, .d, true, 1, [.d, .d]⟩
  | 0x23 => some ⟨1, .d, true, 3, [.d]⟩
  | 0x24 => some ⟨1, .d, true, 1, [.d]⟩
  | 0x28 => some ⟨1, .p, false, 4, [.d]⟩
  | 0x29 => some ⟨1, .p, false, 4, [.d]⟩
  | 0x2A => some ⟨1, .p, false, 4, [.d]⟩
  | 0x2B => some ⟨1, .d, true, 2, [.d]⟩
  | 0x2C => some ⟨1, .d, true, 4, [.d]⟩
  | 0x30 => some ⟨2, .d, false, 2, [.d, .d]⟩
  | 0x31 => some ⟨2, .d, false, 1, [.d, .d]⟩
  | 0x32 => some ⟨1, .d, false, 1, [.d]⟩
  | 0x33 => some ⟨1, .d, false, 1, [.d]⟩
  | 0x34 => some ⟨1, .c, false, 1, [.d]⟩
  | 0x38 => some ⟨2, .p, false, 1, [.p, .c]⟩
  | 0x39 => some ⟨2, .p, false, 1, [.p, .p]⟩
  | 0x3A => some ⟨3, .p, false, 1, [.p, .p, .c]⟩
  | 0x3B => some ⟨2, .p, false, 1, [.p, .c]⟩
  | 0x3C => some ⟨1, .c, true, 1, [.p]⟩
  | 0x3D => some ⟨1, .p, true, 1, [.p]⟩
  | 0x3E => some ⟨0, .p, false, 1, []⟩
  | 0x3F => some ⟨0, .c, true, 1, []⟩
  | 0x40 => some ⟨1, .p, false, 1, [.p]⟩
  | 0x48 => some ⟨2, .c, true, 1, [.c, .c]⟩
  | 0x49 => some ⟨2, .c, true, 1, [.c, .c]⟩
  | 0x4A => some ⟨2, .c, true, 1, [.c, .c]⟩
  | 0x4B => some ⟨2, .c, true, 1, [.c, .c]⟩
  | 0x4C => some ⟨2, .c, false, 1, [.c, .c]⟩
  | 0x4D => some ⟨2, .d, true, 2, [.d, .d]⟩
  | 0x50 => some ⟨2, .c, false, 1, [.c, .c]⟩
  | 0x51 => some ⟨3, .c, false, 2, [.c, .c, .c]⟩
  | _ => none

/-- The inputs of an operator; an unassigned one has none. -/
def opInputs (op : Nat) : Nat := ((opInfo op).map (·.inputs)).getD 0

/-- The latency of an operator. -/
def opLat (op : Nat) : Nat := ((opInfo op).map (·.lat)).getD 1

def opStateful (op : Nat) : Bool := ((opInfo op).map (·.stateful)).getD false

/-- R186: SLHB, SLHT, ISECT, UNION, CMPX, ACC, CNT and DELAY. -/
def irregular (op : Nat) : Bool :=
  op == 0x48 || op == 0x49 || op == 0x4A || op == 0x4B || op == 0x4D || op == 0x2B || op == 0x3C || op == 0x3D

/-- R200: MMA4 and MMS4 are matrix slots. -/
def matrixOp (op : Nat) : Bool := op == 0x20 || op == 0x21

namespace CfgWord
/-! R188: the fields of a configuration word. -/
def lb (w : Nat) : Nat := w / 2 ^ 44 % 4
def la (w : Nat) : Nat := w / 2 ^ 42 % 4
def mods (w : Nat) : Mods := ⟨RMode.ofCode (w / 2 ^ 37 % 8), w.testBit 40, w.testBit 41⟩
def rmCode (w : Nat) : Nat := w / 2 ^ 37 % 8
def ofCode (w : Nat) : Nat := w / 2 ^ 24 % 256
def bfCode (w : Nat) : Nat := w / 2 ^ 16 % 256
def ifCode (w : Nat) : Nat := w / 256 % 256
def of (w : Nat) : Fmt := (Fmt.ofEfmt (ofCode w)).getD .fp32
def bf (w : Nat) : Fmt := (Fmt.ofEfmt (bfCode w)).getD .fp32
def inf (w : Nat) : Fmt := (Fmt.ofEfmt (ifCode w)).getD .fp32
/-- The block length in elements that an LA or LB code names; none for 00 (R188). -/
def scaleLen (c : Nat) : Option Nat := if c = 0 then none else some (8 * 2 ^ c)
end CfgWord

/-- The codes of the formats a PE takes and gives (R189). -/
def peFormat (c : Nat) : Bool := c == 1 || c == 2 || c == 3 || c == 6 || c == 7 || c == 8 || c == 10

/-- R189: the width class of a matrix operand format: 0 FP32, 1 the 16-bit formats, 2 TAP8, TAP6 and INT8. -/
def widthClass (c : Nat) : Option Nat :=
  if c = 1 then some 0 else if c = 2 ∨ c = 3 then some 1 else if c = 6 ∨ c = 7 ∨ c = 8 then some 2 else none

/-- The lane count of a format code. -/
def codeLanes (c : Nat) : Nat := ((Fmt.ofEfmt c).map Fmt.lanes).getD 0

/-- R189: whether a configuration word is one the loader takes for the operator. On a slot without a data-plane operand an ignored IF may also be
E4M3, E5M2 or INT4 (DESIGN CHOICE, log 102). -/
def cfgWordOk (s : BSlot) (w : Nat) : Bool :=
  let ic := CfgWord.ifCode w
  let bc := CfgWord.bfCode w
  let oc := CfgWord.ofCode w
  let noData := ((opInfo s.op).map fun i => !(i.opPlanes.any fun q => q = .d || (q = .p && !s.pl))).getD false
  let ifOk := peFormat ic || (s.op == 0x10 && (ic == 4 || ic == 5 || ic == 9))
  let ifLegal := peFormat ic || ic == 4 || ic == 5 || ic == 9
  decide (w < 2 ^ 46) && w / 2 ^ 32 % 32 == 0 && w % 256 == 0 && decide (CfgWord.rmCode w < 5) && peFormat oc
    && (if noData then ifLegal else ifOk)
    && (if matrixOp s.op then
          (widthClass ic).isSome && widthClass ic == widthClass bc && ((ic == 8) == (bc == 8))
            && !(s.op == 0x21 && ic == 1)
            && (CfgWord.la w == 0 || ic == 6 || ic == 7 || ic == 3 || ic == 2)
            && (CfgWord.lb w == 0 || bc == 6 || bc == 7 || bc == 3 || bc == 2)
        else bc == 0 && CfgWord.la w == 0 && CfgWord.lb w == 0)
    && (if 1 ≤ s.op ∧ s.op ≤ 0x18 ∧ s.op ≠ 0x10 then codeLanes oc == codeLanes ic else true)
    && (if s.op = 0x2C then decide (codeLanes ic ≤ codeLanes oc) else true)
    && !(s.op == 0x23 && s.mode % 2 == 1 && oc == 8)

/-- R194: whether MODE and IMM16 hold values the operator gives; a companion must name a matrix slot (R200). -/
def modeOk (slots : List BSlot) (s : BSlot) (w : Nat) : Bool :=
  let m := s.mode
  let i := s.imm
  let li := codeLanes (CfgWord.ifCode w)
  let lo := codeLanes (CfgWord.ofCode w)
  let namesMatrix := decide (i < 128) && ((slots[i]?).map fun t => matrixOp t.op).getD false
  match s.op with
  | 0x09 => decide (m ≤ 4) && i == 0
  | 0x0F => decide (m ≤ 1) && i == 0
  | 0x10 => i == 0 && decide (m < 4) && (if li ≤ lo then m == 0 else decide (m < li / lo))
  | 0x18 => m == 0 && (i == 1 || i == 2 || i == 4 || i == 8 || i == 16 || i == 32 || i == 64)
  | 0x20 => decide (m ≤ 1) && i == 0
  | 0x21 => decide (m ≤ 3) && i == 0
  | 0x22 => m == 0 && namesMatrix
  | 0x23 => decide (m ≤ 3) && namesMatrix
  | 0x24 => decide (m ≤ 1) && namesMatrix
  | 0x28 => decide (m ≤ 1) && i == 0
  | 0x29 => decide (m ≤ 1) && i == 0
  | 0x2A => decide (m ≤ 1) && i == 0
  | 0x30 => decide (m ≤ 1) && i == 0
  | 0x31 => decide (m ≤ 1) && i == 0
  | 0x32 => decide (m ≤ 3) && i == 0
  | 0x33 => m == 0 && decide (i < 64)
  | 0x34 => m == 0 && decide (i < 64)
  | 0x38 => decide (m ≤ 1) && i == 0
  | 0x3B => decide (m ≤ 1) && i == 0
  | 0x3D => m == 0 && decide (i < 16)
  | 0x3E =>
    m == 0 && (s.pl ||
      (let o := CfgWord.ofCode w
       if o = 7 then decide (i < 64) else if o = 6 ∨ o = 8 then decide (i < 256) else true))
  | 0x3F => true
  | 0x49 => m == 0 && decide (1 ≤ i) && decide (i ≤ 32767)
  | 0x4A => decide (m ≤ 3) && i == 0
  | 0x4B => decide (m ≤ 3) && i == 0
  | 0x4C => m == 0
  | 0x50 => decide (m ≤ 1)
  | 0x51 => decide (m ≤ 1) && i == 0
  | _ => m == 0 && i == 0

/-- A link from a producer slot to operand opnd of a consumer slot; slot 127 is an output port. -/
structure Link where
  src : Nat
  which : Nat
  dst : Nat
  opnd : Nat
  deriving DecidableEq, Repr, Inhabited

/-- R41: the consumers a slot counts, in the order A, B. -/
def BSlot.links (s : BSlot) (n : Nat) : List Link :=
  if s.nc = 0 then []
  else if s.nc = 1 then [⟨n, 0, s.sla, s.opa⟩]
  else [⟨n, 0, s.sla, s.opa⟩, ⟨n, 1, s.slb, s.opb⟩]

/-- Slots with their numbers. -/
def numbered {α : Type} : Nat → List α → List (Nat × α)
  | _, [] => []
  | n, x :: xs => (n, x) :: numbered (n + 1) xs

def allLinks (slots : List BSlot) : List Link := (numbered 0 slots).flatMap fun (n, s) => s.links n
/-- The links to operator slots: 127 as a consumer is an output port, never slot 127 (R41). -/
def slotLinks (slots : List BSlot) : List Link := (allLinks slots).filter fun l => l.dst != 127

/-- R42: whether a slot names an output port. -/
def BSlot.toPort (s : BSlot) : Bool := (s.nc == 1 && s.sla == 127) || (s.nc == 2 && (s.sla == 127 || s.slb == 127))

/-- R42: the group of slot n: its own id, the id found along the operand-0 producers, or a group of its own, numbered
64 + slot; none where the chain closes into a loop. -/
def groupOf (slots : List BSlot) (links : List Link) : Nat → Nat → Option Nat
  | 0, _ => none
  | fuel + 1, n =>
    match slots[n]? with
    | none => none
    | some s =>
      if !s.toPort then some s.port
      else
        match links.find? fun l => l.dst == n && l.opnd == 0 with
        | some l => groupOf slots links fuel l.src
        | none => some (64 + n)

/-- The groups of all slots. -/
def groupsOf (slots : List BSlot) : List (Option Nat) :=
  let ls := slotLinks slots
  (List.range slots.length).map (groupOf slots ls (slots.length + 1))

/-- R271, R186: an intra-group link: one group, a regular producer, and no MMS4 operand 0 or 1, nor an MMS4 producer. -/
def intraLink (slots : List BSlot) (groups : List (Option Nat)) (l : Link) : Bool :=
  match slots[l.src]?, slots[l.dst]?, groups[l.src]?, groups[l.dst]? with
  | some p, some c, some (some gp), some (some gc) =>
    gp == gc && !irregular p.op && p.op != 0x21 && !(c.op == 0x21 && decide (l.opnd ≤ 1))
  | _, _, _, _ => false

/-- The plane of an operand of a slot: true for control. -/
def operandPlane (s : BSlot) (opnd : Nat) : Bool :=
  match (opInfo s.op).bind (·.opPlanes[opnd]?) with
  | some .c => true
  | some .p => s.pl
  | _ => false

/-- R39: one bit of the reflected CRC-32C. -/
def crcBits : Nat → Nat → Nat
  | 0, c => c
  | n + 1, c => crcBits n (if c % 2 = 1 then (c / 2).xor 0x82F63B78 else c / 2)

/-- R39: CRC-32C of bytes. -/
def crc32c (bs : List Nat) : Nat := (bs.foldl (fun c b => crcBits 8 (c.xor b)) 0xFFFFFFFF).xor 0xFFFFFFFF

/-- n bytes at off, least significant first (R1). -/
def readNum (rd : Nat → Nat) (off : Nat) : Nat → Nat
  | 0 => 0
  | n + 1 => rd off + 256 * readNum rd (off + 1) n

/-- The bytes at off. -/
def readList (rd : Nat → Nat) (off n : Nat) : List Nat := (List.range n).map fun i => rd (off + i)

/-- R187: the record count of the configuration table; 0 where the table is read as holding none. -/
def cfgRecords (rd : Nat → Nat) (bound cfgtab : Nat) : Nat :=
  if cfgtab + 16 ≤ bound then
    let lo := readNum rd cfgtab 8
    let hi := readNum rd (cfgtab + 8) 8
    let n := lo % 65536
    if lo / 65536 = 0 ∧ hi = 0 ∧ 1 ≤ n ∧ n ≤ 4096 ∧ cfgtab + 16 + 1024 * n ≤ bound then n else 0
  else 0

/-- The header of a block as two words (R37). -/
def blockHeader (rd : Nat → Nat) (off : Nat) : Nat × Nat := (readNum rd off 8, readNum rd (off + 8) 8)

/-- R38, R50, R218: the first of the checks 0x01 to 0x04 that the header and slot bytes at off fail. An offset that is no multiple of 16, or
whose header does not lie in the arena, has 0x01, which R223 gives it for a CFG and the model for the loader's report too (DEDUCED, log 112). -/
def headCheck (rd : Nat → Nat) (bound off : Nat) : Option Nat :=
  if off % 16 ≠ 0 ∨ bound < off + 16 then some 0x01
  else
    let (lo, hi) := blockHeader rd off
    let ns := lo / 2 ^ 16 % 256
    if lo % 256 ≠ 0xB7 then some 0x01
    else if lo / 256 % 256 ≠ 1 then some 0x02
    else if ns = 0 ∨ 128 < ns ∨ bound < off + 16 + 8 * ns then some 0x03
    else if crc32c (readList rd (off + 16) (8 * ns)) ≠ hi / 2 ^ 32 then some 0x04
    else none

/-- The slots of the block at off. -/
def readSlots (rd : Nat → Nat) (off ns : Nat) : List BSlot :=
  (List.range ns).map fun n => BSlot.ofWord (readNum rd (off + 16 + 8 * n) 8)

/-- The configuration words of record idx for ns slots (R187). -/
def readWords (rd : Nat → Nat) (cfgtab idx ns : Nat) : List Nat :=
  (List.range ns).map fun n => readNum rd (cfgtab + 16 + 1024 * idx + 8 * n) 8

/-- The entries of a port map. -/
def readPorts (rd : Nat → Nat) (pm n : Nat) : List PortEntry :=
  (List.range n).map fun i => PortEntry.ofWord (readNum rd (pm + 8 + 4 * i) 4)

/-- R47 but for the absent port id: an entry the loader refuses with code 0x08. -/
def portEntryBad (slots : List BSlot) (e : PortEntry) : Bool :=
  e.resv != 0
    || (if e.dir then decide (32 ≤ e.phys) || e.slot != 0 || e.opnd != 0
        else decide (48 ≤ e.phys) || e.pid != 0 ||
          match slots[e.slot]? with
          | none => true
          | some s => (opInfo s.op).isSome && decide (opInputs s.op ≤ e.opnd))

/-- No value stands twice. -/
def distinctNats : List Nat → Bool
  | [] => true
  | x :: xs => !xs.contains x && distinctNats xs

/-- The sources of operand opnd of slot n (R41). -/
def sourceCount (links : List Link) (ports : List PortEntry) (n opnd : Nat) : Nat :=
  (links.filter fun l => l.dst == n && l.opnd == opnd).length
    + (ports.filter fun e => !e.dir && e.slot == n && e.opnd == opnd).length

/-- R41: the consumer fields of a slot break a rule (code 0x0A). -/
def consumersBad (ns : Nat) (s : BSlot) : Bool :=
  let bad (c : Nat) : Bool := c != 127 && decide (ns ≤ c)
  s.nc == 3
    || (s.nc == 0 && (s.sla != 0 || s.opa != 0 || s.slb != 0 || s.opb != 0))
    || (s.nc == 1 && (bad s.sla || s.slb != 0 || s.opb != 0))
    || (s.nc == 2 && (bad s.sla || bad s.slb || (s.sla == 127 && s.slb == 127)))

/-- R41: an operand index that is not below the consumer's input count (code 0x0B). An output port has no input count; at it any index
other than 0 is refused (DESIGN CHOICE, log 70). -/
def operandBad (slots : List BSlot) (l : Link) : Bool :=
  if l.dst = 127 then l.opnd != 0
  else match slots[l.dst]? with
    | none => true
    | some c => decide (opInputs c.op ≤ l.opnd)

/-- R43: a link between planes without a replicate (code 0x0D). -/
def planeBad (slots : List BSlot) (l : Link) : Bool :=
  match slots[l.src]? with
  | none => true
  | some p =>
    if l.dst = 127 then false
    else match slots[l.dst]? with
      | none => true
      | some c => p.pl != operandPlane c l.opnd && !(p.pl && p.rep)

/-- R268: an input port that feeds operands of both planes, or an output port that takes results of both. -/
def portPlanesBad (slots : List BSlot) (ports : List PortEntry) : Bool :=
  (ports.any fun e => !e.dir && ports.any fun e' => !e'.dir && e'.phys == e.phys &&
      (match slots[e.slot]?, slots[e'.slot]? with
       | some s, some s' => operandPlane s e.opnd != operandPlane s' e'.opnd
       | _, _ => false))
    || (slots.any fun s => s.toPort && slots.any fun t => t.toPort && s.port == t.port
        && (s.pl && !s.rep) != (t.pl && !t.rep))

/-- R42: a group with no input binding and no producer outside it, the reserved id 63, or a chain that closes. A producer of the same
group id is inside the group, also where R186 has its link treated as one between groups (DEDUCED, log 71). -/
def groupsBad (slots : List BSlot) (groups : List (Option Nat)) (links : List Link) (ports : List PortEntry) : Bool :=
  (slots.any fun s => !s.toPort && s.port == 63)
    || groups.any (·.isNone)
    || groups.any fun g => !(
        (ports.any fun e => !e.dir && (groups[e.slot]?).getD none == g)
        || (links.any fun l => (groups[l.dst]?).getD none == g && (groups[l.src]?).getD none != g))

/-- R45: a DLY below an intra-group producer's DLY plus its latency. -/
def dlyBad (slots : List BSlot) (groups : List (Option Nat)) (l : Link) : Bool :=
  intraLink slots groups l &&
    match slots[l.src]?, slots[l.dst]? with
    | some p, some c => decide (c.dly < p.dly + opLat p.op)
    | _, _ => false

/-- R50: the first failing check of the block at off, in the order of the table; none for a block the loader takes. An entry count of 0
or above 128 is a fault of the head alone, 0x08, and no entry of it is held to the bound (DESIGN CHOICE, log 72). -/
def blockCheck (rd : Nat → Nat) (bound cfgtab off : Nat) : Option Nat :=
  match headCheck rd bound off with
  | some c => some c
  | none =>
    let (lo, hi) := blockHeader rd off
    let ns := lo / 2 ^ 16 % 256
    let idx := lo / 2 ^ 48
    let pmoff := hi % 2 ^ 32
    let pm := off + pmoff
    let slots := readSlots rd off ns
    let words := readWords rd cfgtab idx ns
    let head := readNum rd pm 8
    let np := head % 65536
    let ports := readPorts rd pm (min np 128)
    let links := allLinks slots
    let inner := slotLinks slots
    let groups := groupsOf slots
    let outs := ports.filter (·.dir)
    if lo / 2 ^ 29 % 8 ≠ 0 ∨ lo / 2 ^ 24 % 4 ≠ 0 then some 0x05
    else if cfgRecords rd bound cfgtab ≤ idx || (slots.zip words).any fun (s, w) => !cfgWordOk s w then some 0x06
    else if pmoff % 8 ≠ 0 ∨ bound < pm + 8 ∨ (1 ≤ np ∧ np ≤ 128 ∧ bound < pm + 8 + 4 * np) then some 0x07
    else if head / 65536 ≠ 0 || np == 0 || decide (128 < np) || ports.any (portEntryBad slots)
        || !distinctNats (outs.map (·.pid)) || !distinctNats (outs.map (·.phys)) then some 0x08
    else if (slots.zip words).any fun (s, w) => (opInfo s.op).isNone || !modeOk slots s w then some 0x09
    else if slots.any (consumersBad ns) then some 0x0A
    else if links.any (operandBad slots) then some 0x0B
    else if (numbered 0 slots).any fun (n, s) =>
        (List.range (opInputs s.op)).any fun o => sourceCount inner ports n o != 1 then some 0x0C
    else if links.any (planeBad slots) || portPlanesBad slots ports then some 0x0D
    else if slots.any fun s => (s.rep && !s.pl) || (s.pl && ((opInfo s.op).map (·.planes)) == some .d)
        || (!s.pl && ((opInfo s.op).map (·.planes)) == some .c) then some 0x0E
    else if slots.any fun s => s.mt && opStateful s.op then some 0x0F
    else if groupsBad slots groups inner ports then some 0x10
    else if slots.any fun s => s.toPort && !(outs.any fun e => e.pid == s.port) then some 0x11
    else if inner.any (dlyBad slots groups) then some 0x12
    else if lo.testBit 27 != slots.any (·.pl) || lo.testBit 26 != slots.any (fun s => opStateful s.op) then some 0x13
    else none

/-- The block at off, read as it stands; place is its placement. -/
def readBlock (rd : Nat → Nat) (cfgtab off : Nat) (place : Placement) : Block :=
  let (lo, hi) := blockHeader rd off
  let ns := lo / 2 ^ 16 % 256
  let pm := off + hi % 2 ^ 32
  { off := off, blkid := lo / 2 ^ 32 % 65536, anyq := lo.testBit 28, slots := readSlots rd off ns,
    words := readWords rd cfgtab (lo / 2 ^ 48) ns, ports := readPorts rd pm (min (readNum rd pm 8 % 65536) 128),
    place := place }

end Sys2Proof.Machine
end

