-- ==== Sys2Proof/Machine/SwardTypes.lean ====
section
/-! DEFINITION. The state of a quadrant's sward region as plain data (spec/10 R265 to R280, spec/07 R200, R214). -/

namespace Sys2Proof.Machine

/-- R265: a token: its payload as a number (64 bytes on the data plane, 64 bits on the control plane) and its sideband: TAG, LEM and MK. In
the region the tag is the number of the round since CFG, of which the hardware's TAG is the low four bits (DEDUCED, log 107). -/
structure Tok where
  pay : Nat
  tag : Nat
  lem : Bool
  mkr : Bool
  deriving DecidableEq, Repr, Inhabited

/-- R211: a loop-header run: the begin, the next value, the end, the step (with tile lengths under tiles), and its sideband: TAG, LEM and
MK. -/
structure LoopRun where
  first : Nat
  next : Nat
  stop : Nat
  step : Nat
  tiles : Bool
  level : Nat
  onlyStop : Bool
  tag : Nat
  lem : Bool
  deriving DecidableEq, Repr, Inhabited

/-- R202, R204: a matrix step in progress: the kb and scales it took, the tokens it has taken, the last phase it took, the ac at whose end
it lands, and the first ac in which an MMS4 slot may take its next phase. -/
structure MatStep where
  kb : Nat
  sa : List Nat
  sb : List Nat
  aToks : List Tok
  bToks : List Tok
  metaTok : Option Tok
  phase : Nat
  land : Option Nat
  nextAt : Nat
  deriving DecidableEq, Repr, Inhabited

/-- R273, R284: an entry of an emission queue: the token, the ac at whose end it may leave, and whether it belongs to a multi-token
emission. -/
structure Emit where
  tok : Tok
  ready : Nat
  multi : Bool := false
  deriving DecidableEq, Repr, Inhabited

/-- R200, R214: the state an operator slot holds. Fields an operator does not use keep their reset values. -/
structure OpState where
  /-- A matrix accumulator of 16 lanes, or the lanes of ACC. -/
  acc : List Nat := []
  kb : Nat := 0
  sa : List Nat := []
  sb : List Nat := []
  /-- Tokens counted by CNT or taken by ACC since the last marker. -/
  cnt : Nat := 0
  /-- The carry of SCANS, an FP32 pattern. -/
  carry : Nat := 0
  /-- The line of DELAY; none is an initial zero entry. -/
  line : List (Option Tok) := []
  /-- The counter of IDX. -/
  x : Nat := 0
  run : Option LoopRun := none
  /-- The ordinals of ISECT and UNION. -/
  ordA : Nat := 0
  ordB : Nat := 0
  /-- The pending lanes of CMPX. -/
  pend : List Nat := []
  /-- A last-element marker taken and not yet emitted (R275). -/
  lem : Bool := false
  step : Option MatStep := none
  /-- The emission queue of an irregular operator (R273, R284). -/
  queue : List Emit := []
  /-- The first ac in which the next emission may leave. -/
  emitFrom : Nat := 0
  /-- The markers that an MT = 1 slot has passed on, by tag, with the operands that have taken them, while others have them still to
  come (R277). -/
  passed : List (Nat × List Nat) := []
  deriving DecidableEq, Repr, Inhabited

/-- R281: a token on its way into an input port: the ac in which it enters, the stream command that sent it (slot and SEQ), and the
elements it carries, none for a marker; again tells that it had entered before a rollback and does so once more (R341). -/
structure Coming where
  due : Nat
  tok : Tok
  src : Nat × Nat
  n : Nat
  again : Bool := false
  deriving DecidableEq, Repr, Inhabited

/-- R267, R269, R276: an input port: tokens in order, tokens on their way, the markers that have entered since CFG (PR is the low four bits),
and the operands (4*slot + operand) that have taken the head. -/
structure InPort where
  q : List Tok := []
  incoming : List Coming := []
  pr : Nat := 0
  taken : List Nat := []
  deriving DecidableEq, Repr, Inhabited

/-- Where a result goes: an operand buffer (4*slot + operand), or an output port. -/
inductive Dest where
  | buf (key : Nat)
  | out (port : Nat)
  deriving DecidableEq, Repr, Inhabited

/-- A token on an inter-group link or on its way to an output port, with the ac from which it can enter (R271). rep marks
a control result that is replicated into lanes (R272). -/
structure Transit where
  due : Nat
  dst : Dest
  tok : Tok
  src : Nat
  rep : Bool
  deriving DecidableEq, Repr, Inhabited

/-- A firing whose slots still execute: what it took (4*slot + operand), what its slots delivered inside the group
(source slot, which consumer), and the slots to come (R185, R273, R277). -/
structure Firing where
  group : Nat
  ac : Nat
  marker : Option Nat
  tag : Nat
  lem : Bool
  taken : List (Nat × Tok)
  seen : List (Nat × Tok)
  results : List (Nat × Nat × Tok)
  todo : List Nat
  deriving DecidableEq, Repr, Inhabited

/-- R278: a snapshot of a slot for a round. -/
structure Snap where
  round : Nat
  slot : Nat
  st : OpState
  deriving DecidableEq, Repr, Inhabited

/-- R278: the cut record of a round: a bound command's SEQ and CURSOR as the marker passed its port, and the tokens an SREC
held (index, token). -/
structure CutEntry where
  round : Nat
  seq : Nat
  cursor : Nat
  held : List (Nat × Tok)
  deriving DecidableEq, Repr, Inhabited

/-- R278: a complete cut. -/
structure Cut where
  round : Nat
  snaps : List Snap
  entries : List CutEntry
  deriving DecidableEq, Repr, Inhabited

/-- R285, R361: a round whose cut cannot complete, since the command that fed an input port has faulted: the round, the port, that command
(slot and SEQ), whether another command has resumed the stream since, and whether it was a decode error, after which none does. -/
structure Spoil where
  round : Nat
  port : Nat
  src : Nat × Nat
  resumed : Bool := false
  fatal : Bool := false
  deriving DecidableEq, Repr, Inhabited

/-- R464, R278: how far the stream of a graph's edge has come at an output port: the tokens that it has taken from the configuration in force,
how many it has passed on, and its count as the markers of the latest rounds left the port. -/
structure EdgeAt where
  cursor : Nat := 0
  given : Nat := 0
  marks : List (Nat × Nat) := []
  deriving DecidableEq, Repr, Inhabited

/-- R222: the states of the quadrant. -/
inductive QState where
  | empty | loaded | run | draining | drained
  deriving DecidableEq, Repr, Inhabited

/-- One quadrant of a tile: the region of one slot. -/
structure Quad where
  st : QState := .empty
  /-- The configuration in force and, as the CRC-checked copy, the block as it was loaded (R49, R190). -/
  blk : Option Block := none
  copy : Option Block := none
  ops : List OpState := []
  inPorts : List (Nat × InPort) := []
  outPorts : List (Nat × List (Tok × Bool)) := []
  /-- How many tokens at the head of an output port an earlier configuration left there (R223, R270). -/
  earlier : List (Nat × Nat) := []
  bufs : List (Nat × List Tok) := []
  links : List Transit := []
  firings : List Firing := []
  /-- Cuts completed since CFG, the ac of the last completion, and whether the homes know of it (R278). -/
  cuts : Nat := 0
  cutAc : Nat := 0
  cutTold : Bool := true
  passedMark : List (Nat × Nat) := []
  outMarks : List (Nat × Nat) := []
  outDone : List Nat := []
  snaps : List Snap := []
  entries : List CutEntry := []
  lastCut : Option Cut := none
  /-- The markers of incomplete cuts that have entered an input port or left an output port (100 on): round and port (R278, R337). -/
  marks : List (Nat × Nat) := []
  spoiled : List Spoil := []
  /-- The commands whose tokens of an open round have entered an input port: round, port, slot and SEQ (R285). -/
  inside : List (Nat × Nat × Nat × Nat) := []
  /-- The tokens of an open round that came from elsewhere than this slot's own commands, by port, with their sender (R341). -/
  came : List (Nat × Tok × (Nat × Nat)) := []
  /-- The streams of edges that take from output ports (R464). -/
  edges : List (Nat × EdgeAt) := []
  /-- The ac in which each group last fired (R185). -/
  firedAt : List (Nat × Nat) := []
  /-- The ac of its last activity, and the last spans of ac, first and last, in which the quiescence tree's state was zero (R280). -/
  busyAc : Nat := 0
  rested : List (Nat × Nat) := []
  frozen : Bool := false
  deriving DecidableEq, Repr, Inhabited

end Sys2Proof.Machine
end

