-- ==== Sys2Proof/Machine/StreamTypes.lean ====
section
/-! DEFINITION. Engine commands, regions and the stream engine of a slot as plain data (spec/06, spec/13). -/

namespace Sys2Proof.Machine

/-- R323: an extent of a region: present, writes denied, page size code, physical base and length in bytes. -/
structure Extent where
  p : Bool
  ro : Bool
  psz : Nat
  pa : Nat
  len : Nat
  deriving DecidableEq, Repr, Inhabited

/-- R323: an entry of the region table. -/
structure Region where
  v : Bool := false
  rd : Bool := false
  wr : Bool := false
  sess : Bool := false
  sid : Nat := 0
  exts : List Extent := []
  deriving DecidableEq, Repr, Inhabited

/-- R156, R220: the states of a command. -/
inductive CState where
  | queued | waiting | running | withheld | done | faulted | cut
  deriving DecidableEq, Repr, Inhabited

/-- R326: what a withheld access met: the region, the element and its width in bits, OUTSIDE or ABSENT, and the ac since which the
command withholds. -/
structure Notice where
  region : Nat
  elem : Int
  width : Nat
  outside : Bool
  since : Nat
  deriving DecidableEq, Repr, Inhabited

/-- R352: a tile boundary of a ZRD command: the source offset of the tile, CURSOR, the elements delivered before it, and the bits
that were left over. -/
structure TileStart where
  off : Nat
  cursor : Nat
  outn : Nat
  bits : Nat × Nat
  deriving DecidableEq, Repr, Inhabited

/-- An engine command: its 128-byte record as sixteen words (R148) and what the engine keeps beside it. -/
structure Cmd where
  /-- HDR, PMAP, WAIT and SIGNAL, STAMP, EP0, EP1, DIM0 to DIM3, FMT, AUX0, AUX1, BIND, CURSOR, STATUS. -/
  raw : Vector Word 16
  seq : Nat
  /-- The head that queued it: 0 S, 1 M, 2 A (R161). -/
  head : Nat
  st : CState := .queued
  /-- Waits met (R160). -/
  waited : Bool := false
  /-- The ac in which it left the queue, for a start stamp already past (R160). -/
  left : Nat := 0
  late : Bool := false
  cause : Nat := 0
  part : Bool := false
  closed : Bool := false
  oob : Bool := false
  detail : Nat := 0
  /-- CURSOR as the engine keeps it: the next element; for SREC, the tokens taken, with sent the initial tokens sent. -/
  cursor : Nat := 0
  sent : Nat := 0
  /-- Elements taken into a token not yet sent (R162). -/
  pack : List Nat := []
  /-- Elements of a token taken from a port, or of a filter's run or tile, and not yet used (R162, R351), and the round of that token. -/
  unpack : List Nat := []
  round : Nat := 0
  /-- Elements of a filter's run that are gathered, and those of a run that are ready, in the order of delivery (R351). -/
  run : List Nat := []
  ready : List Nat := []
  /-- Tokens an SREC has taken and not sent, with their index k (R168). -/
  held : List (Nat × Tok) := []
  /-- The tokens that an SREC has taken since a marker of an open round entered its input port, with their index k (R278). -/
  loop : List (Nat × Tok) := []
  /-- The denial mask of R334, or of suppressed destinations (R332). -/
  mask : Nat := 0
  notice : Option Notice := none
  /-- The generator's copy of the extent lists it uses (R324, R329), by region. -/
  exts : List (Nat × Region) := []
  /-- SCLOSE has been asked for (R180). -/
  closing : Bool := false
  /-- The last-element marker has been sent. -/
  lemSent : Bool := false
  /-- Deliveries below this ordinal were made before a rollback and are not repeated (R338). -/
  skipTo : Nat := 0
  /-- Replayed: its acts have been given (R338 item 6). -/
  acted : Bool := false
  /-- Updates sent and not yet applied at a home or recorded in a round buffer (R308). -/
  updates : Nat := 0
  /-- Old values of SATM to be sent to the return endpoint, by ordinal (none for an element that was suppressed), the ordinal
  that is due next, those taken into a token not yet sent, and whether the last-element marker has been sent there (R171). -/
  returns : List (Nat × Option Nat) := []
  retNext : Nat := 0
  retPack : List Nat := []
  retLem : Bool := false
  /-- The key of the granule that its next element waits for (R397, R398): its first address and LOG2G; (2^60, 0) once the full
  journal has been reported (R403). -/
  waitGranule : Option (Nat × Nat) := none
  /-- The two words of the filter entry that the command uses (R350). -/
  filt : Option (Word × Word) := none
  /-- Bits beyond the last whole element or byte, as a value and a number: of a ZRD tile, of a windrow that is read, and of one that
  is written (R162, R351). -/
  tileBits : Nat × Nat := (0, 0)
  inBits : Nat × Nat := (0, 0)
  outBits : Nat × Nat := (0, 0)
  /-- The boundaries before the tile that a ZRD command took last and before the one it took earlier (R352). -/
  tileFrom : Option TileStart := none
  tilePrev : Option TileStart := none
  /-- The elements that a ZRD command has delivered, in its DEFMT. -/
  outn : Nat := 0
  /-- It has started (R440); its start stamp counts as already past (R183, R448). -/
  started : Bool := false
  past : Bool := false
  /-- The last round whose marker it has forwarded (R279, R338). -/
  lastMark : Option Nat := none
  /-- The destinations of an SMC: mask bit, slot, and the age of the task there when its first element was due (R332). -/
  peers : List (Nat × Nat × Word) := []
  /-- The bits of its element that have gone into the windrow of a destination, by mask bit (R145, R178). -/
  partBits : List (Nat × Nat) := []
  /-- A kind that moves no elements has done its act: its token is placed, its filter installed, or its tap arrived; an SRED or SATM
  whose acts waited for round buffers has given its signals and its arrival (R308). -/
  fin : Bool := false
  /-- Its region-fault record for denied destinations has been reported (R170, R334); a STAP has poisoned its barrier (R174); a STOK's
  token was placed before a rollback (R338). -/
  told : Bool := false
  /-- Its fault has been reported, while it stays in flight to be saved (R458). -/
  reported : Bool := false
  /-- The CURSOR with which it first bound to a port (R336), and the tile offset of a ZRD command then (R352). -/
  bound0 : Nat := 0
  tile0 : Nat := 0
  /-- Where a command that ends early took no further element (R167, R180). -/
  limit : Option Nat := none
  deriving DecidableEq, Repr, Inhabited

/-- R167: the indices a producer has supplied to the command that names it, and whether it has ended. -/
structure IndexLink where
  vals : List Int := []
  ended : Bool := false
  deriving DecidableEq, Repr, Inhabited

/-- The stream engine of a slot (R158, R181, R337). -/
structure StreamEng where
  queue : List Cmd := []
  /-- In flight, in the order in which they left the queue. -/
  flying : List Cmd := []
  /-- The final status of the last 64 retired commands: SEQ and status. -/
  retired : List (Nat × Word) := []
  /-- Their CURSOR words (R155). -/
  finals : List (Nat × Word) := []
  /-- Records kept for replay since the last complete cut (R337). -/
  kept : List Cmd := []
  links : List (Nat × IndexLink) := []
  /-- Retired commands whose acts wait for round buffers (R308 item 4). -/
  delayed : List Cmd := []
  /-- Taps: the SEQ of the STAP, the tapped command's SEQ, and the barrier reference that its last-element marker arrives on (R174). -/
  taps : List (Nat × Nat × Word) := []
  /-- Commands that have faulted and whose fault has been reported (R173, R248). -/
  failed : List Cmd := []
  deriving DecidableEq, Repr, Inhabited

end Sys2Proof.Machine
end

