-- ==== Sys2Proof/Machine/EngineTypes.lean ====
section
/-! DEFINITION. The chain engine, the encode channels, launch packets, tasks and the state of a context slot as plain data
(spec/19, spec/21 R452 to R457, spec/16). -/

namespace Sys2Proof.Machine

/-- R411, R421: a boundary tensor: its extents K, A and T and its FP32 patterns. -/
structure Boundary where
  k : Nat := 1
  a : Nat := 1
  t : Nat := 1
  elems : List Nat := [0x3F800000]
  deriving DecidableEq, Repr, Inhabited

/-- R420: the chain engine of a slot. -/
structure Chain where
  cmd : Option Cmd := none
  /-- The order program, steps 0 to 31: word 0 and word 1 (R410). -/
  prog : List (Word × Word) := List.replicate 32 (0, 0)
  bnd : Boundary := {}
  /-- Elements that the step in progress has formed, and whether it has passed its checks. -/
  formed : List Nat := []
  begun : Bool := false
  /-- Elements the CRUN has pushed, and elements of the step that it does not push again (R421). -/
  pushed : Nat := 0
  again : Nat := 0
  deriving DecidableEq, Repr, Inhabited

/-- R233, R452: an encode channel: the command it executes, the engine it is open on, its parameter block and the sample
bytes of the frames coded since EOPN. -/
structure Channel where
  cmd : Option Cmd := none
  engine : Option Nat := none
  params : List Nat := []
  frames : List (List Byte) := []
  deriving DecidableEq, Repr, Inhabited

/-- R373 to R375: a launch packet. -/
structure Packet where
  tag : Nat := 0
  irq : Bool := false
  late : Bool := false
  startv : Bool := false
  order : Nat := 0
  cls : Nat := 0
  ver : Nat := 2
  code : Nat := 0
  bound : Nat := 0
  entry : Nat := 0
  block : Option Nat := none
  cfgtab : Nat := 0
  dims : List Nat := [1, 1, 1, 1]
  deadline : Nat := 2 ^ 64 - 1
  start : Nat := 0
  image : Nat := 0
  imglen : Nat := 0
  arg : Nat := 0
  decl : Nat := 0
  /-- RES: JNL, SLIP, PES, CHB, EVT, CMDS and TS. -/
  jnl : Nat := 0
  slip : Nat := 0
  pes : Nat := 0
  chb : Nat := 0
  evt : Nat := 0
  cmds : Nat := 0
  ts : Nat := 0
  comp0 : Nat := 0
  comp1 : Nat := 0
  sess : List Nat := [0, 0, 0, 0]
  asid : Nat := 0
  user0 : Nat := 0
  user1 : Nat := 0
  deriving DecidableEq, Repr, Inhabited

/-- R377: a region entry of the declaration block. -/
structure DeclRegion where
  va : Nat := 0
  len : Nat := 0
  sid : Nat := 0
  eng : Option Nat := none
  sess : Bool := false
  wr : Bool := false
  rd : Bool := false
  deriving DecidableEq, Repr, Inhabited

/-- R395: an atomic set of the declaration block. -/
structure DeclSet where
  region : Nat
  log2g : Nat
  base : Nat
  count : Nat
  deriving DecidableEq, Repr, Inhabited

/-- R376: a declaration block: the remote-write grant, the filter ids, the barrier objects by scope (1 to 5), the regions and
the sets. -/
structure Decl where
  grantPkg : Bool := false
  grantSame : Bool := false
  nfilt : Nat := 0
  objects : List Nat := [0, 0, 0, 0, 0]
  regions : List DeclRegion := List.replicate 16 {}
  sets : List (Option DeclSet) := List.replicate 8 none
  deriving DecidableEq, Repr, Inhabited

/-- A task of a record (R380, R391): its record by EPOCH, its ordinal, iteration and age, its restarts, and the age of the
task that wounded it, for its next entry (R406). -/
structure Task where
  epoch : Nat
  ord : Nat
  iter : List Nat
  age : Word
  pkt : Packet
  decl : Decl
  restarts : Nat := 0
  wounder : Option Nat := none
  deriving DecidableEq, Repr, Inhabited

/-- R391, R439: where a slot stands: free, given to a task and binding, bound and waiting to enter, running, or gating its
sources for a save. -/
inductive Stage where
  | free | binding | bound | running | gating
  deriving DecidableEq, Repr, Inhabited

/-- R254: an act that a task with JNL = 1 defers to its commit. -/
inductive Deferred where
  | arrive (reference : Word) (weight : Nat)
  | enqueue (packet : List Word) (dest : Word) (ack : Option Nat) (spawn : Bool)
  deriving DecidableEq, Repr, Inhabited

/-- R461, R38: a listed block: its offset, its BLKID, the code of R50 for which it is rejected, and its placement where it can be placed. -/
structure Listed where
  off : Nat
  blkid : Nat
  code : Option Nat
  place : Option Placement
  deriving DecidableEq, Repr, Inhabited

/-- A context slot (R98, R99): its control core and its engines, its share of tile store, its region table and the task
bound to it. -/
structure Slot where
  stage : Stage := .free
  task : Option Task := none
  core : Core := {}
  eng : StreamEng := {}
  quad : Quad := {}
  chain : Chain := {}
  /-- The array-and-chain queue, the encode queue, and the command that the array engine executes (R221). -/
  queueA : List Cmd := []
  queueE : List Cmd := []
  array : Option Cmd := none
  /-- The last 64 commands that have left the lanes: ENG, SEQ, final status and CURSOR (R220, R262). -/
  ended : List (Nat × Nat × Word × Word) := []
  channels : List Channel := [{}, {}, {}, {}]
  regions : List Region := List.replicate 16 {}
  /-- The tile-store share: bytes that differ from zero, by offset; and the offsets of its uncorrectable words (R335). -/
  store : List (Nat × BitVec 8) := []
  badWords : List Nat := []
  /-- The block list that the loader formed (R461). -/
  blocks : List Listed := []
  deferred : List Deferred := []
  /-- The ac of a pre-emption request (R390), the ac at which gating began (R439), and whether it began with a TYLD. -/
  preq : Option Nat := none
  /-- The ac at which the bind completed (R392). -/
  boundAt : Nat := 0
  gated : Nat := 0
  yielded : Bool := false
  /-- The gating is a drain at the limit (R327). -/
  draining : Bool := false
  /-- A gating, or a drain, that is held until TRET (R118, R342). -/
  gateHeld : Bool := false
  drainHeld : Bool := false
  /-- The journal entries that a commit has applied or passed over, what it waits for, and whether it passed one over
  (R404). -/
  applied : Nat := 0
  /-- Journal entries, by number, whose element lies in tile store, and those that an encode command made (the model's own: an
  entry's fields name neither). -/
  journalTile : List Nat := []
  journalEnc : List Nat := []
  commitNotice : Option Notice := none
  missed : Bool := false
  deriving DecidableEq, Repr, Inhabited

end Sys2Proof.Machine
end

