-- ==== Sys2Proof/Machine/PackTypes.lean ====
section
/-! DEFINITION. The homes, the messages in transit, the dispatchers, the dies and bring-up as plain data (spec/08 R241,
spec/12 R308, spec/13, spec/14, spec/16, spec/17 R397, spec/22, spec/23). -/

namespace Sys2Proof.Machine

/-- R241: a barrier object: the record it is granted to (by EPOCH), its scope (1 to 5), the instance of that scope, its BID,
and its four fields. -/
structure Barrier where
  epoch : Nat
  scope : Nat
  place : Nat
  bid : Nat
  count : Nat := 1
  arrived : Nat := 0
  phase : Nat := 0
  poison : Bool := false
  /-- The ac of the last arrivals, with ARRIVED and PHASE before the first of them: they are ignored if the barrier is poisoned in that ac
  (R257). -/
  undo : Option (Nat × Nat × Nat) := none
  /-- The ac in which it was last poisoned, whose arrivals are ignored also after a BARI (R257). -/
  spoilt : Option Nat := none
  deriving DecidableEq, Repr, Inhabited

/-- R242: an arrival on its way to the barrier's home. -/
structure Arrival where
  epoch : Nat
  scope : Nat
  place : Nat
  bid : Nat
  weight : Nat
  deriving DecidableEq, Repr, Inhabited

/-- Where an element lies: a byte of physical memory, or of the tile store of a slot. -/
inductive Loc where
  | phys (addr : Nat)
  | tile (ctx : Nat) (off : Nat)
  deriving DecidableEq, Repr, Inhabited

/-- R171, R307, R308: a read-modify-write update: the slot and SEQ of its command and the element's ordinal, its location (the
byte that holds its first bit, and that bit), its region and element for a fault report, EFMT, OP and modifiers, its operand,
whether its old value is wanted, and for a round-buffered one its round. -/
structure Update where
  ctx : Nat
  seq : Nat
  ord : Nat
  loc : Loc
  bit : Nat
  region : Nat
  elem : Nat
  efmt : Nat
  op : Nat
  rm : Nat
  sat : Bool
  ftz : Bool
  x : Nat
  wantOld : Bool
  round : Option Nat
  deriving DecidableEq, Repr, Inhabited

/-- R397: a request that waits for a granule: its age, its slot, and its command: SEQ + 65536·engine, where the engine is 0 stream,
1 chain, 2 to 5 an encode channel. -/
structure Waiter where
  age : Word
  ctx : Nat
  seq : Nat
  deriving DecidableEq, Repr, Inhabited

/-- R397: a lock entry: its key (the granule's first physical address with LOG2G), the holder's age and slot, the holder's
COMMIT state, whether it has been wounded, the queue of waiting requests, and the ac in which it was acquired free (R409). -/
structure Lock where
  addr : Nat
  log2g : Nat
  holder : Option (Word × Nat)
  commit : Bool := false
  wounded : Bool := false
  waiters : List Waiter := []
  since : Nat := 0
  deriving DecidableEq, Repr, Inhabited

/-- R398: an access on its way to a granule's lock home: the slot, its task's age, the command as in a waiter, and the key. -/
structure Touch where
  ctx : Nat
  age : Word
  seq : Nat
  addr : Nat
  log2g : Nat
  deriving DecidableEq, Repr, Inhabited

/-- R405: a wound on its way: the slot it goes to, the age of the task it is for, the wounding task's age, and whether it has
arrived and is held until TRET (R118), and the ac in which it was made (R409). -/
structure Wound where
  ctx : Nat
  age : Word
  source : Word
  arrived : Bool := false
  at' : Nat := 0
  deriving DecidableEq, Repr, Inhabited

/-- R176, R151: a STOK token or a remote-port element on its way: sender and SEQ, destination slot, port (0 to 47, or 60 to 63
for xi0 to xi3), plane, token, and the event it asks for. -/
structure Remote where
  src : Nat
  seq : Nat
  dst : Nat
  port : Nat
  cpl : Bool
  tok : Tok
  event : Option Nat
  /-- R449: the task it is forwarded to, by age, once it has been held for it. -/
  fwd : Option Word
  deriving DecidableEq, Repr, Inhabited

/-- A delivery that is held for a saved task (R449), by the task's age. -/
inductive Held where
  | token (r : Remote)
  | count (event : Nat)
  deriving DecidableEq, Repr, Inhabited

/-- R384, R250, R251: an enqueue packet on its way or in its queue: its eight words, the queue, the spawning die for TSPWN, whether
it comes from another package, and the age of the task and the ordinal that an acknowledgement goes to. -/
structure Enq where
  words : List Word
  queue : Nat
  spawn : Option Nat
  pod : Bool
  ack : Option (Word × Nat)
  deriving DecidableEq, Repr, Inhabited

/-- R329: a shoot-down or a repatch on its way to the slot of a task: the region, the bytes whose extents it replaces, the new
extents, whether it is a shoot-down, and the invalidation that it is made for. -/
structure Patch where
  age : Word
  region : Nat
  start : Nat
  len : Nat
  exts : List Extent
  down : Bool
  inv : Option Nat
  deriving DecidableEq, Repr, Inhabited

/-- R326, R328: a notice at the fault service: the age of the task, the engine that withholds (0 stream, 1 chain, 2 to 5 an
encode channel, 6 a commit), and the command's SEQ. -/
structure NoticeMsg where
  age : Word
  engine : Nat
  seq : Nat
  deriving DecidableEq, Repr, Inhabited

/-- R330: an invalidation: its number, the old frame of the page and its size, the new frame if it moves, and, once its shoot-downs
are sent, each extent that was shot down: the task, the region, its first byte, and the extents that take its place but for the page. -/
structure Invalid where
  id : Nat
  old : Nat
  size : Nat
  new : Option Nat
  sent : Bool := false
  shot : List (Word × Nat × Nat × List Extent) := []
  deriving DecidableEq, Repr, Inhabited

/-- R382, R383: a host queue: its ring's base, m and MSI-X vector, TAIL, HEAD, the shadow, the flags, the packets whose records
have completed beyond PROGRESS, and PROGRESS with the value saved at switch-out. -/
structure HostQueue where
  ring : Nat := 0
  m : Nat := 4
  vector : Nat := 0
  tail : Nat := 0
  head : Nat := 0
  shadow : Nat := 0
  inn : Bool := false
  err : Bool := false
  done : List Nat := []
  progress : Nat := 0
  saved : Nat := 0
  deriving DecidableEq, Repr, Inhabited

/-- R384: an enqueue queue: ACCEPT, and the packets that wait in it. -/
structure EnqQueue where
  accept : Nat := 0
  packets : List Enq := []
  deriving DecidableEq, Repr, Inhabited

/-- R38, R50: what the loader reports of a rejected block: the task by EPOCH and ordinal, the block's arena offset, the code and its
BLKID. -/
structure Rejection where
  epoch : Nat
  ord : Nat
  off : Nat
  code : Nat
  blkid : Nat
  deriving DecidableEq, Repr, Inhabited

/-- A loop-nest record at the package dispatcher (R386): its packet and declaration, where it came from, its ordinals handed
out, its tasks ended, the lowest ordinal with a non-zero status and their number, its granted filter ids, and the die it is
bound to when TSPWN made it (R384). -/
structure Record where
  pkt : Packet
  decl : Decl
  host : Option (Nat × Nat) := none
  rack : Bool := false
  die : Option Nat := none
  enqueued : Nat := 0
  lastBatch : Option Nat := none
  handed : Nat := 0
  ended : Nat := 0
  status : Option (Nat × Nat) := none
  bad : Nat := 0
  filters : List Nat := []
  granted : Bool := false
  /-- The package's id as the record was enqueued (R362), and the ordinals that were aborted at the package dispatcher (R391). -/
  pkg : Nat := 0
  aborted : List Nat := []
  /-- Its declaration block, or the L2 of its sessions, is not served yet: the block is read and checked once it is (R467). -/
  await : Bool := false
  deriving DecidableEq, Repr, Inhabited

/-- A task that waits at a die dispatcher (R388): saved with its slot and the slot it left, or new. -/
structure Waiting where
  task : Task
  saved : Option Slot := none
  left : Nat := 0
  since : Nat := 0
  /-- It came in a batch, and has had no slot yet (R387). -/
  batch : Bool := false
  /-- The record holds the last complete cut (CUT = 1, R441). -/
  cut : Bool := false
  /-- The area of HBM that the record takes, by number (R442). -/
  area : Option Nat := none
  /-- The open round buffers of the region, which stay at their homes while the task is saved (R447, R310). -/
  buffers : List Update := []
  /-- What has become, while the task is saved, of the tokens that its commands had sent: placed, or dropped (R176, R449). -/
  acks : List (Remote × Bool) := []
  deriving DecidableEq, Repr, Inhabited

/-- R450: a pinned session: its id, its length in bytes, and its extents in L2. -/
structure Session where
  sid : Nat
  len : Nat
  exts : List Extent
  deriving DecidableEq, Repr, Inhabited

/-- A die: its service stage (R467), its dispatcher's queues (R388), its tasks drained and waiting for fault service (R327),
and what its manager keeps. -/
structure Die where
  stage : Nat := 0
  fail : Bool := false
  verified : Bool := false
  trained : Bool := false
  canon : Bool := false
  hot : Bool := false
  queues : List (List Waiting) := [[], [], [], []]
  drained : List Waiting := []
  drainLimit : Nat := 200000
  /-- The firmware arena, which the die manager sets (R111). -/
  fwBase : Nat := 0
  fwBound : Nat := 0
  /-- The diagnostic enable that the die manager gives its slots (R112). -/
  diagen : Bool := false
  /-- UALink stations that have failed (R358). -/
  stations : List Nat := []
  /-- Second traps reported with cause 0x13, and the cause carried (R118). -/
  alerts : List (Nat × Nat) := []
  /-- The images that run: KIND, digest and SVN (R470, R471). -/
  images : List (Nat × Nat × Nat) := []
  /-- Corrections counted (R335), and parts reported to system software and kept in service (R472). -/
  corrected : Nat := 0
  reported : List Nat := []
  deriving DecidableEq, Repr, Inhabited

/-- R452: a reservation of an encode engine: the engine, the task by age, the channel, and the rate as a fraction. -/
structure EncodeRate where
  engine : Nat
  age : Word
  channel : Nat
  num : Nat
  den : Nat
  deriving DecidableEq, Repr, Inhabited

/-- R347: a filter entry in a router's table: node, plane, virtual channel, the record's id and the entry's two words. -/
structure RouterEntry where
  node : Nat
  plane : Nat
  vc : Nat
  fid : Nat
  w0 : Word
  w1 : Word
  deriving DecidableEq, Repr, Inhabited

/-- R472, R463: a part that ageing control may mark: a PE of a tile's quadrant, an input port, an output port or a whole tile,
a memory tile or a hedgerow tile. -/
inductive Part where
  | pe (node : Nat) (p : Nat)
  | inPort (node : Nat) (p : Nat)
  | outPort (node : Nat) (p : Nat)
  | tile (node : Nat)
  | memoryTile (node : Nat)
  | hedgerow (node : Nat)
  deriving DecidableEq, Repr, Inhabited

/-- R464: where the loader has placed a block of a graph: its canonical tile and slot, the context slot that stands for them, and its
placement there (PE of each slot). -/
structure GraphPlace where
  cx : Nat
  cy : Nat
  slot : Nat
  ctx : Nat
  place : Placement
  deriving DecidableEq, Repr, Inhabited

/-- R464: the stream that an edge is bound to: the edge's blocks by number, the context slots of the two, and its two endpoints (R151). -/
structure GraphStream where
  src : Nat
  dst : Nat
  ctx : Nat
  dctx : Nat
  ep0 : Word
  ep1 : Word
  deriving DecidableEq, Repr, Inhabited

/-- R464: what the loader has made of a graph: the code for which it is refused, its blocks, its streams, and the scopes (1 to 5) of its
levels L1 to L5 (R302). -/
structure GraphLoad where
  graph : Graph
  code : Option Nat
  places : List GraphPlace
  streams : List GraphStream
  scopes : List Nat
  deriving DecidableEq, Repr, Inhabited

/-- What the package sends to the world outside: an MSI-X vector, a residency report, an attestation report, or a token, a packet
or a count for another package. -/
inductive Sent where
  | msix (vector : Nat)
  | report (words : List Word)
  | attest (words : List Nat) (signatures : List Nat)
  | token (pkg : Nat) (r : Remote)
  | packet (pkg : Nat) (e : Enq)
  | increment (word : Word)
  /-- A write in the bridge window, or to a frame through the aperture, for another package of the bridge group (R360). -/
  | window (offset value : Nat)
  | aperture (member addr : Nat) (bytes : List Byte)
  deriving DecidableEq, Repr, Inhabited

end Sys2Proof.Machine
end

