-- ==== Sys2Proof/Machine/State.lean ====
section
/-! DEFINITION. The state of a package: its clock, its context slots, its memory, its homes, what is in transit between them, its
dispatchers, dies and links, and what it has sent to the world outside. Plain data. -/

namespace Sys2Proof.Machine

structure State where
  /-- R371: the stamp counter. -/
  stc : Nat := 0
  /-- The moves that are to come first; past its end the order is Config's (the model's own, spec/00, spec/04 R98). -/
  agenda : List Turn := []
  /-- How many moves Config has given, and how many free values have been drawn (the model's own). -/
  moves : Nat := 0
  draws : Nat := 0
  /-- The slot that the instruction being executed belongs to, by ctxid (the model's own; R100). -/
  cur : Nat := 0
  /-- The 2,048 context slots, by ctxid; a slot that is not listed is as after reset (R98, R100). -/
  slots : List (Nat × Slot) := []
  /-- Physical memory: bytes that differ from zero, in rising order of address (R319). -/
  mem : List Host.Cell := []
  /-- Uncorrectable 64-bit words of physical memory, by address (R335). -/
  badWords : List Nat := []
  /-- Power is good (R467); stage 3 has been reached (R467, R469). -/
  powered : Bool := false
  linked : Bool := false
  /-- The package's id in the pod, and packages that cannot be reached (R151, R355). -/
  pkgId : Nat := Config.pkgId
  unreachable : List Nat := []
  dies : List Die := [{}, {}, {}, {}]
  /-- Whether the host port of the bridge group is this package's, its place in the group, and the pages of the aperture: the page, the
  package of the group and the frame (R360). -/
  bridge : Bool := true
  groupIndex : Nat := 0
  aperture : List (Nat × Nat × Nat) := []
  hostQueues : List (Nat × HostQueue) := []
  enqQueues : List (Nat × EnqQueue) := []
  rackQueues : List (Nat × List Nat) := []
  /-- LAST (R362), and the records that are resident, by EPOCH. -/
  last : Nat := 0
  records : List (Nat × Record) := []
  ageStep : Nat := 20000000
  lead : Nat := 200000
  grace : Nat := 2000
  gatingLimit : Nat := 20000
  /-- Where the HBM begins that firmware reserves for save records (R442); 0: firmware has reserved none yet. -/
  recordBase : Nat := 0
  /-- The roots of the address spaces (R321); free frames for migration, and the pages that were migrated (R325). -/
  roots : List (Nat × Nat) := []
  freeFrames : List Nat := []
  migrated : List (Nat × Nat) := []
  sessions : List Session := []
  /-- 64 KiB units of L2 that system software has taken for itself (R450). -/
  taken : List Nat := []
  /-- The frame and the page size of the invalidation that is being requested, and the number of the next (R330). -/
  invReq : Nat × Nat := (0, 0)
  invNext : Nat := 0
  /-- The address of the image of an update (R470). -/
  update : Nat := 0
  barriers : List Barrier := []
  arrivals : List Arrival := []
  updates : List Update := []
  /-- The open round buffers, in arrival order (R308). -/
  buffers : List Update := []
  locks : List Lock := []
  touches : List Touch := []
  wounds : List Wound := []
  remotes : List Remote := []
  held : List (Word × Held) := []
  enqs : List Enq := []
  increments : List Word := []
  patches : List Patch := []
  notices : List NoticeMsg := []
  invalids : List Invalid := []
  encodes : List EncodeRate := []
  routers : List RouterEntry := []
  /-- Parts that are marked for retirement, and parts that are retired (R462, R463). -/
  marked : List Part := []
  retired : List Part := []
  /-- The blocks that the loader has rejected (R38, R50). -/
  rejections : List Rejection := []
  /-- The graphs that the loader has loaded or refused (R464). -/
  graphs : List GraphLoad := []
  sent : List Sent := []
  deriving DecidableEq, Repr, Inhabited

/-- What stops the machine. -/
inductive Fault where
  /-- An access to a physical address that R319 leaves unbacked. Raised by the reads and writes of physical memory. Safe: the
  spec gives such an access no effect, and a bind refuses regions that name one. -/
  | unbacked (addr : Nat)
  deriving DecidableEq, Repr, Inhabited

/-- What the model gives no meaning. -/
inductive Refusal where
  /-- An instruction without a meaning; raised by exec alone. Safe. -/
  | notModelled (mnemonic : String)
  /-- A move that names a control instruction where an event belongs; raised by the move alone. Safe: no such thing happens. -/
  | notAnEvent
  deriving DecidableEq, Repr, Inhabited

/-- The package before power-good: stage 0, no task bound, STC 0 (R467, R371). -/
def State.reset : State := {}

end Sys2Proof.Machine
end

