-- ==== Sys2Proof/Machine/Ops.lean ====
section
/-! DEFINITION. The named operations over slots, memory, tile store, events, FIFOs and barriers. -/

namespace Sys2Proof.Machine

/-- The outcome of a step. -/
abbrev Res := Host.Outcome State Fault Refusal

/-- An event that cannot happen in this state changes nothing. -/
def orStay (s : State) (o : Option State) : Res := .next (o.getD s)

/-! ### Slots -/

/-- The slot with a ctxid; one that is not listed is as after reset. -/
def State.slotAt (s : State) (ctx : Nat) : Slot := aget {} ctx s.slots
/-- The slot that the instruction being executed belongs to. -/
def State.me (s : State) : Slot := s.slotAt s.cur
/-- The control core of that slot. -/
def State.core (s : State) : Core := s.me.core
/-- The state with one slot changed. -/
def State.setSlot (s : State) (ctx : Nat) (f : Slot → Slot) : State := { s with slots := amod {} ctx f s.slots }
def State.setMe (s : State) (f : Slot → Slot) : State := s.setSlot s.cur f
def Slot.setCore (l : Slot) (f : Core → Core) : Slot := { l with core := f l.core }
def State.setCore (s : State) (f : Core → Core) : State := s.setMe (·.setCore f)
def State.setCoreAt (s : State) (ctx : Nat) (f : Core → Core) : State := s.setSlot ctx (·.setCore f)

/-- A die. -/
def State.die (s : State) (d : Nat) : Die := (s.dies[d]?).getD {}
def State.setDie (s : State) (d : Nat) (f : Die → Die) : State := { s with dies := lmod d f s.dies }

/-! ### Places (R13, R100, R319, R320, R343) -/

def nodeOf (ctx : Nat) : Nat := ctx / 4
def planeOf (ctx : Nat) : Nat := ctx % 4
/-- R343: the die of a node. -/
def dieOf (node : Nat) : Nat := node % 32 / 16 + 2 * (node / 32 / 16)
/-- R343: local coordinates (u, v) of a node on its die. -/
def localOf (node : Nat) : Nat × Nat :=
  let x := node % 32
  let y := node / 32
  (if x < 16 then x else 31 - x, if y < 16 then y else 31 - y)
/-- The node at local (u, v) of a die. -/
def nodeAt (die u v : Nat) : Nat :=
  (if die % 2 = 0 then u else 31 - u) + 32 * (if die / 2 = 0 then v else 31 - v)
/-- R343: rows v = 2 to 9 hold compute tiles. -/
def computeNode (node : Nat) : Bool :=
  decide (node < 1024) && decide (2 ≤ (localOf node).2) && decide ((localOf node).2 ≤ 9)
/-- The compute tiles of a die, in ascending node id. -/
def dieNodes (die : Nat) : List Nat := (List.range 1024).filter fun n => computeNode n && dieOf n == die
/-- R13, R301: the instance of a scope (1 to 5) that a node lies in. -/
def scopePlace (scope node : Nat) : Nat :=
  match scope with
  | 1 => node
  | 2 => node / 32 / 2 * 16 + node % 32 / 2
  | 3 => dieOf node
  | _ => 0
/-- The first node of an instance of a scope; `.pkg` and `.pod` count as D0's (R468, log 58). -/
def placeNode (scope place : Nat) : Nat :=
  match scope with
  | 1 => place
  | 2 => place / 16 * 64 + place % 16 * 2
  | 3 => nodeAt place 0 0
  | _ => 0
/-- R319: the node of memory tile m. -/
def memoryNode (m : Nat) : Nat := nodeAt (m / 96) (m % 96 % 16) (m % 96 / 16 + 10)
/-- R319: whether an address is backed by HBM4 or by a memory tile. -/
def backed (a : Nat) : Bool :=
  decide (a < 2 ^ 40) ||
    (decide (2 ^ 51 ≤ a) && decide ((a - 2 ^ 51) / 2 ^ 22 < 384) && decide ((a - 2 ^ 51) % 2 ^ 22 < 0x300000))
/-- Whether a run of n bytes is backed, by its 64 KiB frames. -/
def backedRun (a n : Nat) : Bool :=
  n = 0 || (backed a && backed (a + n - 1) && (List.range ((n - 1) / 65536 + 1)).all fun k => backed (a + 65536 * k))
/-- R319: whether an address lies in L2. -/
def inL2 (a : Nat) : Bool := decide (2 ^ 51 ≤ a)
/-- R320: the channel that holds an address of HBM, and its copy engine as 64·die + 2·h + j (R377). -/
def engineOf (a : Nat) : Nat :=
  let st := a / 2 ^ 36 % 16
  let ch := a / 2 ^ 16 % 32
  let u := 4 * (st % 4) + ch / 8
  let v := ch % 8 / 4
  64 * (st / 4) + 2 * (16 * v + u) + ch % 4 / 2
/-- R319: the home of an address: 256 + m for memory tile m, else the copy engine. -/
def homeOf (a : Nat) : Nat := if inL2 a then 256 + (a - 2 ^ 51) / 2 ^ 22 else engineOf a
/-- The node of a home. -/
def homeNode (h : Nat) : Nat :=
  if 256 ≤ h then memoryNode (h - 256) else nodeAt (h / 64) (h % 64 / 2 % 16) (h % 64 / 2 / 16)

/-! ### The clock of D0 in stage 1 (R468) -/

/-- R468: in stage 1 an ac of D0 spans two counts of STC, and begins at an even one. -/
def State.halfClock (s : State) (ctx : Nat) : Bool := dieOf (nodeOf ctx) == 0 && (s.die 0).stage == 1
/-- The count at which the ac of a die began. -/
def State.dieAc (s : State) (die : Nat) : Nat := if die == 0 && (s.die 0).stage == 1 then s.stc - s.stc % 2 else s.stc
/-- The count at which the ac of a slot began: what happens at or after it happens in that ac. -/
def State.acStart (s : State) (ctx : Nat) : Nat := s.dieAc (dieOf (nodeOf ctx))
/-- The ac that a slot's die counts. -/
def State.acOf (s : State) (ctx : Nat) : Nat := if s.halfClock ctx then s.stc / 2 else s.stc
/-- The count at which a start stamp is met. -/
def State.stampOf (s : State) (ctx t : Nat) : Nat := if s.halfClock ctx then (t + 1) / 2 * 2 else t
/-- No ac of the slot's die begins at this count. -/
def State.offBeat (s : State) (ctx : Nat) : Bool := s.halfClock ctx && s.stc % 2 == 1

/-! ### Bytes: physical memory and tile store hold the bytes that differ from zero -/

/-- The byte at an address; an unlisted one is zero (DESIGN CHOICE, log 2). -/
def getByte (m : List (Nat × BitVec 8)) (a : Nat) : BitVec 8 := aget 0 a m
/-- Writes a byte and keeps the canonical form. -/
def setByte (m : List (Nat × BitVec 8)) (a : Nat) (v : BitVec 8) : List (Nat × BitVec 8) :=
  if v = 0 then adel a m else aset a v m
/-- The canonical form: addresses strictly rise from lo, and no entry is zero. -/
def cellsFrom : Nat → List (Nat × BitVec 8) → Bool
  | _, [] => true
  | lo, (a, v) :: rest => decide (lo ≤ a) && v != 0 && cellsFrom (a + 1) rest
def Memory.wf (m : List Host.Cell) : Bool := cellsFrom 0 m
/-- The little-endian number in n bytes from a (R1). -/
def readLE (m : List (Nat × BitVec 8)) (a : Nat) : Nat → Nat
  | 0 => 0
  | n + 1 => (getByte m a).toNat + 256 * readLE m (a + 1) n
/-- Writes the low n bytes of v from a, little-endian (R1). -/
def writeLE (m : List (Nat × BitVec 8)) (a : Nat) : Nat → Nat → List (Nat × BitVec 8)
  | 0, _ => m
  | n + 1, v => writeLE (setByte m a (BitVec.ofNat 8 v)) (a + 1) n (v / 256)
/-- Writes bytes from a. -/
def writeBytes (m : List (Nat × BitVec 8)) (a : Nat) : List (BitVec 8) → List (Nat × BitVec 8)
  | [] => m
  | b :: bs => writeBytes (setByte m a b) (a + 1) bs
/-- n bytes from a. -/
def readBytes (m : List (Nat × BitVec 8)) (a n : Nat) : List (BitVec 8) := (List.range n).map fun k => getByte m (a + k)
/-- Bits hi to lo of a number. -/
def bitsOf (v hi lo : Nat) : Nat := v / 2 ^ lo % 2 ^ (hi - lo + 1)
/-- Sets n bytes from a to zero. -/
def clearBytes (m : List (Nat × BitVec 8)) (a n : Nat) : List (Nat × BitVec 8) :=
  m.filter fun (k, _) => !(decide (a ≤ k) && decide (k < a + n))

/-- A 64-bit word of physical memory. -/
def State.memWord (s : State) (a : Nat) : Nat := readLE s.mem a 8

/-! ### Counted events, FIFOs and status words -/

/-- R239: an increment, saturating at 0xFFFF. -/
def satCount (v n : Nat) : BitVec 16 := BitVec.ofNat 16 (min 0xFFFF (v + n))
def Core.addEvent (c : Core) (e : Fin 32) (n : Nat) : Core :=
  { c with ereg := c.ereg.set e (satCount (c.ereg[e]).toNat n) }
def Core.setEvent (c : Core) (e : Fin 32) (v : BitVec 16) : Core := { c with ereg := c.ereg.set e v }
/-- R160: one count for every event of a mask. -/
def Core.signal (c : Core) (mask : Nat) : Core :=
  (List.range 32).foldl (fun c k => if mask.testBit k then c.addEvent (Fin.ofNat 32 k) 1 else c) c
/-- R160: every event of the mask holds a count. -/
def Core.waitsMet (c : Core) (mask : Nat) : Bool :=
  (List.range 32).all fun k => !mask.testBit k || decide (0 < (c.ereg[Fin.ofNat 32 k]).toNat)
/-- R160: takes one count of every event of the mask, in an ac. -/
def Core.takeWaits (c : Core) (now mask : Nat) : Core :=
  (List.range 32).foldl (fun c k =>
    if mask.testBit k then { c.setEvent (Fin.ofNat 32 k) (c.ereg[Fin.ofNat 32 k] - 1) with evTake := aset k now c.evTake } else c) c
/-- R240: an event of a mask has been cleared or decremented in this ac: its increments come first in an ac, so a further one comes in a
later ac (DEDUCED, log 122). -/
def Core.countedNow (c : Core) (now mask : Nat) : Bool := (c.evClear ++ c.evTake).any fun (k, t) => mask.testBit k && t == now
/-- R240: an event has been decremented in this ac, so that an EVCLR, and an EVWAIT that issues, come in a later one. -/
def Core.takenNow (c : Core) (now e : Nat) : Bool := c.evTake.any fun (k, t) => k == e && t == now
/-- R85: depths of `sts`, `chf` and the `xi` and `xo` FIFOs. -/
def stsDepth : Nat := 32
def chfDepth : Nat := 64
def fifoDepth : Nat := 16
/-- R158: the stream queue, and the other engine queues (R99). -/
def queueDepth : Nat := 64
def Core.postSts (c : Core) (w : Word) : Core := { c with sts := c.sts ++ [w] }
def Core.stsRoom (c : Core) : Bool := decide (c.sts.length < stsDepth)
def Core.pushXi (c : Core) (k : Nat) (w : Word) : Core :=
  { c with xi := c.xi.set (Fin.ofNat 4 k) (c.xi[Fin.ofNat 4 k] ++ [w]) }
def Core.xiRoom (c : Core) (k : Nat) : Bool := decide ((c.xi[Fin.ofNat 4 k]).length < fifoDepth)

/-- R113, R116: an asynchronous cause becomes pending. -/
def Core.addPend (c : Core) (cause head : Nat) (val : Word) : Core := { c with pend := c.pend ++ [⟨cause, head, val⟩] }

/-! ### Barriers (R241 to R244) -/

/-- R242: phases that complete while ARRIVED reaches COUNT; ARRIVED falls by COUNT each time. -/
def Barrier.complete (b : Barrier) : Barrier :=
  if b.count = 0 then b
  else { b with arrived := b.arrived % b.count, phase := (b.phase + b.arrived / b.count) % 2 ^ 16 }
/-- R242: an arrival of weight n at the barrier's home. -/
def Barrier.arrive (b : Barrier) (n : Nat) : Barrier :=
  if b.poison then b else { b with arrived := b.arrived + n }.complete
/-- R242, R257: an arrival in an ac; one in an ac in which the barrier was poisoned is ignored. -/
def Barrier.arriveIn (b : Barrier) (now n : Nat) : Barrier :=
  let first := match b.undo with
    | some (t, a, p) => if t = now then (t, a, p) else (now, b.arrived, b.phase)
    | none => (now, b.arrived, b.phase)
  if b.spoilt == some now then b else { b.arrive n with undo := some first }
/-- A barrier without the arrivals of an ac: what a waiter or a query sees of it in that ac, until it is known that no poisoning makes them
void (R257, within the bound of R242). -/
def Barrier.seen (b : Barrier) (now : Nat) : Barrier :=
  match b.undo with
  | some (t, a, p) => if t = now then { b with arrived := a, phase := p } else b
  | none => b
/-- R333, R257: a barrier is poisoned in an ac, whose arrivals are ignored. -/
def Barrier.poisoned (b : Barrier) (now : Nat) : Barrier :=
  { b.seen now with
    poison := true
    undo := none
    spoilt := some now }
/-- R243: COUNT is set, POISON cleared, and complete phases are counted, also of what stood before the arrivals of the ac. -/
def Barrier.setCount (b : Barrier) (n : Nat) : Barrier :=
  let clear (a p : Nat) : Barrier := { b with
    count := n
    arrived := a
    phase := p
    poison := false }.complete
  { clear b.arrived b.phase with undo := b.undo.map fun (t, a, p) => (t, (clear a p).arrived, (clear a p).phase) }
def Barrier.isFor (b : Barrier) (epoch scope place bid : Nat) : Bool :=
  b.epoch == epoch && b.scope == scope && b.place == place && b.bid == bid
/-- R241: an object as granted. -/
def Barrier.fresh (epoch scope place bid : Nat) : Barrier := { epoch := epoch, scope := scope, place := place, bid := bid }
/-- The barrier object that a scope and BID name for a task at a node; an object not yet touched is as granted. -/
def State.barrier (s : State) (epoch scope place bid : Nat) : Barrier :=
  (s.barriers.find? (·.isFor epoch scope place bid)).getD (.fresh epoch scope place bid)
def setBarrier (bs : List Barrier) (b : Barrier) : List Barrier :=
  b :: bs.filter fun x => !x.isFor b.epoch b.scope b.place b.bid
def State.modBarrier (s : State) (epoch scope place bid : Nat) (f : Barrier → Barrier) : State :=
  { s with barriers := setBarrier s.barriers (f (s.barrier epoch scope place bid)) }

/-- R155, R241: the fields of a barrier reference. -/
def refScope (w : Word) : Nat := w.toNat / 2 ^ 56 % 8
def refBid (w : Word) : Nat := w.toNat / 2 ^ 48 % 64
/-- R155: only bit 63, SCOPE and BID may be set. -/
def refReservedOk (w : Word) : Bool := w.toNat % 2 ^ 48 == 0 && w.toNat / 2 ^ 54 % 4 == 0 && w.toNat / 2 ^ 59 % 16 == 0
/-- R376: the objects of a scope that a declaration grants. -/
def Decl.granted (d : Decl) (scope : Nat) : Nat := if scope = 0 then 0 else (d.objects[scope - 1]?).getD 0
/-- R155, R241: the reference names an object that is granted to the record. -/
def refNames (d : Decl) (w : Word) : Bool :=
  decide (1 ≤ refScope w) && decide (refScope w ≤ 5) && decide (refBid w < d.granted (refScope w))
def Slot.epoch (l : Slot) : Nat := (l.task.map (·.epoch)).getD 0
def Slot.decl (l : Slot) : Decl := (l.task.map (·.decl)).getD {}
def Slot.pkt (l : Slot) : Packet := (l.task.map (·.pkt)).getD {}
def Slot.age (l : Slot) : Word := l.core.age
/-- The count at which the ac of a barrier's home began. -/
def State.barrierAc (s : State) (scope place : Nat) : Nat := s.dieAc (dieOf (placeNode scope place))
def State.refAc (s : State) (ctx : Nat) (ref : Word) : Nat := s.barrierAc (refScope ref) (scopePlace (refScope ref) (nodeOf ctx))
/-- R242: an arrival leaves a slot for the barrier's home. -/
def State.sendArrival (s : State) (ctx : Nat) (ref : Word) (weight : Nat) : State :=
  if weight = 0 then s
  else { s with arrivals := s.arrivals ++
    [⟨(s.slotAt ctx).epoch, refScope ref, scopePlace (refScope ref) (nodeOf ctx), refBid ref, weight⟩] }
/-- R333: the barrier of a reference is poisoned. -/
def State.poison (s : State) (ctx : Nat) (ref : Word) : State :=
  s.modBarrier (s.slotAt ctx).epoch (refScope ref) (scopePlace (refScope ref) (nodeOf ctx)) (refBid ref)
    (·.poisoned (s.refAc ctx ref))
/-- R254, R242: an arrival by a slot's word or command: deferred to the commit in a task with JNL = 1. -/
def State.arriveOrDefer (s : State) (ctx : Nat) (ref : Word) (weight : Nat) : State :=
  if (s.slotAt ctx).core.jnl then
    if weight = 0 then s else s.setSlot ctx fun l => { l with deferred := l.deferred ++ [.arrive ref weight] }
  else s.sendArrival ctx ref weight

/-! ### Ages (R363) -/

/-- R363: age a is older than age b. -/
def older (a b : Word) : Bool := decide (1 ≤ (b - a).toNat) && decide ((b - a).toNat < 2 ^ 63)

end Sys2Proof.Machine
end

