-- ==== Sys2Proof/Machine/Operands.lean ====
section
/-! DEFINITION. Register operands: how the S head reads and lands registers (R51, R52, R105), how trailing heads read them
(R106), and which registers an instruction reads and writes. -/

namespace Sys2Proof.Machine

/-- R51, R111: an s register as the slot's mode names it: s0 is zero; s24 to s31 have a supervisor bank. -/
def Core.getS (c : Core) (r : SReg) : Word :=
  if r = 0 then 0
  else if c.sup && decide (24 ≤ r.val) then c.supBank[Fin.ofNat 8 (r.val - 24)]
  else c.sreg[r]
/-- Writes an s register; a write to s0 is discarded. -/
def Core.setS (c : Core) (r : SReg) (v : Word) : Core :=
  if r = 0 then c
  else if c.sup && decide (24 ≤ r.val) then { c with supBank := c.supBank.set (Fin.ofNat 8 (r.val - 24)) v }
  else { c with sreg := c.sreg.set r v }
/-- R51: p0 reads as true and is never written. -/
def Core.getP (c : Core) (p : PReg) : Bool := if p = 0 then true else c.preg[p]
def Core.setP (c : Core) (p : PReg) (v : Bool) : Core := if p = 0 then c else { c with preg := c.preg.set p v }
def Core.getF (c : Core) (r : FReg) : Word := c.freg[r]
def Core.setF (c : Core) (r : FReg) (v : Word) : Core := { c with freg := c.freg.set r v }
/-- A register of the S head, as a word. -/
def Core.getReg (c : Core) : RegId → Word
  | .s r => c.getS r
  | .f r => c.getF r
  | .p r => if c.getP r then 1 else 0
def Core.setReg (c : Core) (r : RegId) (v : Word) : Core :=
  match r with
  | .s r => c.setS r v
  | .f r => c.setF r v
  | .p r => c.setP r (v != 0)

/-- R51: whether a register is hard-wired: s0 and p0. -/
def RegId.wired : RegId → Bool
  | .s r => r == 0
  | .p r => r == 0
  | .f _ => false

/-- R105: a result in flight still covers a register, so that an S read of it is undefined. -/
def Core.inWindow (c : Core) (r : RegId) : Bool := !r.wired && c.flights.any fun f => f.reg == r
/-- R52, R106: a result of the register has not landed. -/
def Core.unlanded (c : Core) (r : RegId) : Bool := !r.wired && c.flights.any fun f => f.reg == r && !f.landed

/-- R105: an S read, the k-th of its instruction: a free value inside the register's window. -/
def State.readReg (s : State) (k : Nat) (r : RegId) : Word :=
  if s.core.inWindow r then Config.freeWord (s.draws + k) else s.core.getReg r
def State.readS (s : State) (k : Nat) (r : SReg) : Word := s.readReg k (.s r)
def State.readF (s : State) (k : Nat) (r : FReg) : Word := s.readReg k (.f r)
def State.readP (s : State) (k : Nat) (p : PReg) : Bool := (s.readReg k (.p p)).getLsbD 0
/-- R22: the p1 that a guard of the S head reads. -/
def State.readGuard (s : State) : Bool := s.readP 0 1

/-- R105, R108: at an S issue, results whose class is over have landed and their windows are closed. -/
def Core.closeWindows (c : Core) : Core :=
  let due := c.flights.filter fun f => decide (f.start + f.cls ≤ c.cycle)
  { due.foldl (fun c f => if f.landed then c else c.setReg f.reg f.val) c with
    flights := c.flights.filter fun f => !decide (f.start + f.cls ≤ c.cycle) }
/-- R52: a result goes in flight to its register; a hard-wired register takes none. -/
def Core.land (c : Core) (r : RegId) (v : Word) (cls : Nat) : Core :=
  if r.wired then c
  else { c with flights := c.flights.filter (fun f => f.reg != r) ++ [⟨r, v, c.cycle, cls, false, false⟩] }
/-- R114: every result in flight lands. An LDT that still waits for its bank has landed before. -/
def Core.landAll (c : Core) : Core :=
  { c.flights.foldl (fun c f => if f.landed then c else c.setReg f.reg f.val) c with flights := [] }
/-- R52: the k-th result in flight lands, within its class; an LDT's only once its bank is granted (R109). -/
def Core.landOne (c : Core) (k : Nat) : Core :=
  match c.flights[k]? with
  | none => c
  | some f =>
    if f.landed || f.wait then c
    else { c.setReg f.reg f.val with flights := lmod k (fun f => { f with landed := true }) c.flights }

end Sys2Proof.Machine

namespace Sys2Proof

open Machine

/-- The register that an S instruction lands, if it has a result (R55). -/
def Instr.dest : Instr → Option RegId
  | .add d _ _ _ _ => some (.s d)
  | .sub d _ _ _ _ => some (.s d)
  | .mul d _ _ _ _ => some (.s d)
  | .mulh d _ _ _ _ => some (.s d)
  | .mulhu d _ _ _ _ => some (.s d)
  | .div d _ _ _ _ => some (.s d)
  | .divu d _ _ _ _ => some (.s d)
  | .rem d _ _ _ _ => some (.s d)
  | .remu d _ _ _ _ => some (.s d)
  | .and d _ _ _ _ => some (.s d)
  | .or d _ _ _ _ => some (.s d)
  | .xor d _ _ _ _ => some (.s d)
  | .andn d _ _ _ _ => some (.s d)
  | .shl d _ _ _ _ => some (.s d)
  | .shr d _ _ _ _ => some (.s d)
  | .sar d _ _ _ _ => some (.s d)
  | .min d _ _ _ _ => some (.s d)
  | .max d _ _ _ _ => some (.s d)
  | .minu d _ _ _ _ => some (.s d)
  | .maxu d _ _ _ _ => some (.s d)
  | .addi d _ _ _ _ => some (.s d)
  | .muli d _ _ _ _ => some (.s d)
  | .andi d _ _ _ _ => some (.s d)
  | .ori d _ _ _ _ => some (.s d)
  | .xori d _ _ _ _ => some (.s d)
  | .shli d _ _ _ => some (.s d)
  | .shri d _ _ _ => some (.s d)
  | .sari d _ _ _ => some (.s d)
  | .li d _ _ _ => some (.s d)
  | .clz d _ _ _ => some (.s d)
  | .ctz d _ _ _ => some (.s d)
  | .popc d _ _ _ => some (.s d)
  | .ext d _ _ _ _ => some (.s d)
  | .ins d _ _ _ _ => some (.s d)
  | .sel d _ _ _ => some (.s d)
  | .madi d _ _ _ _ _ => some (.s d)
  | .cmp _ p _ _ _ _ => some (.p p)
  | .cmpi _ p _ _ _ _ => some (.p p)
  | .fcmp _ p _ _ _ _ => some (.p p)
  | .plog _ p _ _ _ _ _ _ => some (.p p)
  | .fadd d _ _ _ _ => some (.f d)
  | .fsub d _ _ _ _ => some (.f d)
  | .fmul d _ _ _ _ => some (.f d)
  | .ffma d _ _ _ _ => some (.f d)
  | .fdiv d _ _ _ _ => some (.f d)
  | .fsqrt d _ _ _ => some (.f d)
  | .fmin d _ _ _ _ => some (.f d)
  | .fmax d _ _ _ _ => some (.f d)
  | .fcvtRint d _ _ _ => some (.f d)
  | .fcvtRound32 d _ _ _ => some (.f d)
  | .fcvtToint d _ _ _ => some (.s d)
  | .fcvtTouint d _ _ _ => some (.s d)
  | .fcvtFromint d _ _ _ => some (.f d)
  | .fcvtFromuint d _ _ _ => some (.f d)
  | .fcvtTofp32 d _ _ _ => some (.s d)
  | .fcvtFromfp32 d _ _ _ => some (.f d)
  | .fcvtTofp16 d _ _ _ => some (.s d)
  | .fcvtFromfp16 d _ _ _ => some (.f d)
  | .fcvtTobf16 d _ _ _ => some (.s d)
  | .fcvtFrombf16 d _ _ _ => some (.f d)
  | .fcvtToe4m3 d _ _ _ => some (.s d)
  | .fcvtFrome4m3 d _ _ _ => some (.f d)
  | .fcvtToe5m2 d _ _ _ => some (.s d)
  | .fcvtFrome5m2 d _ _ _ => some (.f d)
  | .fcvtTotap8 d _ _ _ => some (.s d)
  | .fcvtFromtap8 d _ _ _ => some (.f d)
  | .fcvtTotap6 d _ _ _ => some (.s d)
  | .fcvtFromtap6 d _ _ _ => some (.f d)
  | .fmvi d _ _ _ => some (.f d)
  | .fmvfToS d _ _ _ => some (.s d)
  | .fmvfToF d _ _ _ => some (.f d)
  | .dbrp a _ _ => some (.s a)
  | .call d _ _ _ _ => some (.s d)
  | .spld d cls _ _ _ => if cls then some (.f (Fin.ofNat 16 d.val)) else some (.s d)
  | .ldt d _ _ _ _ => some (.s d)
  | .popf d _ _ _ => some (.s d)
  | .sysr d _ _ _ => some (.s d)
  | _ => none

/-- The registers that a word of a trailing head reads, its guard apart (R163, R216, R236). -/
def Instr.sources : Instr → List RegId
  | .saff _ a b _ => [.s a, .s b]
  | .saffw _ a b _ => [.s a, .s b]
  | .sind _ a _ _ => [.s a]
  | .sindw _ a _ _ => [.s a]
  | .srec _ a b _ => [.s a, .s b]
  | .sfill _ a b _ _ => [.s a, .s b]
  | .smc _ a b _ => [.s a, .s b]
  | .sgrow _ a _ _ => [.s a]
  | .sred _ a b _ => [.s a, .s b]
  | .satm _ a b _ => [.s a, .s b]
  | .scpy _ a b _ => [.s a, .s b]
  | .sbar _ a b _ => [.s a, .s b]
  | .swinDecl _ a _ _ _ => [.s a]
  | .stap _ a _ _ => [.s a]
  | .sfilt _ a b _ => [.s a, .s b]
  | .smeta _ a b _ => [.s a, .s b]
  | .stok _ a b _ _ => [.s a, .s b]
  | .sdesc _ a b _ => [.s a, .s b]
  | .acfg a b _ _ => [.s a, .s b]
  | .arun b _ => [.s b]
  | .adrn b _ => [.s b]
  | .aqui _ b _ => [.s b]
  | .amrk a b _ => [.s a, .s b]
  | .aprt a b _ => [.s a, .s b]
  | .chbd _ a _ => [.s a]
  | .chord a b _ _ => [.s a, .s b]
  | .chrun a b _ => [.s a, .s b]
  | .chsv a b _ => [.s a, .s b]
  | .chld a b _ => [.s a, .s b]
  | .enco _ a b _ => [.s a, .s b]
  | .encf _ a b _ => [.s a, .s b]
  | .encc _ b _ => [.s b]
  | .evsig _ a _ => [.s a]
  | .evwait _ a _ => [.s a]
  | .evclr _ a _ => [.s a]
  | .bara a b _ => [.s a, .s b]
  | .barw _ a b _ => [.s a, .s b]
  | .barq a _ => [.s a]
  | .tenq _ a b _ => [.s a, .s b]
  | .tend a _ => [.s a]
  | .tspwn _ a _ => [.s a]
  | .lkprb a b _ => [.s a, .s b]
  | .stamp _ a _ => [.s a]
  | .dln a _ _ => [.s a]
  | _ => []

/-- R106, R107: every register that a word of a trailing head reads. -/
def Instr.trailReads (i : Instr) : List RegId := if i.guard then .p 1 :: i.sources else i.sources

/-- R164, R217, R238: the words of M and A that queue a command. -/
def Instr.queues : Instr → Bool
  | .swinDecl _ _ _ _ _ => false
  | .swinTake _ _ _ => false
  | .swinGive _ _ _ => false
  | .sclose _ _ => false
  | .sqryCommand _ _ => false
  | .sqryWindrow _ _ => false
  | .chbd _ _ _ => false
  | i => i.head? == some .m || i.head? == some .a

/-- R164, R235, R250: the words that read tile store as they issue. -/
def Instr.readsStore : Instr → Bool
  | .encf _ _ _ _ => true
  | .tenq _ _ _ _ => true
  | .tspwn _ _ _ => true
  | .acfg _ _ _ _ => false
  | i => i.queues && i.head? == some .m

/-- R88, R238: the acquires of the Y head. -/
def Instr.acquires : Instr → Bool
  | .evwait _ _ _ => true
  | .barw _ _ _ _ => true
  | .acq _ _ => true
  | .fence _ _ => true
  | _ => false

end Sys2Proof
end

