-- ==== Sys2Proof/Machine/Flags.lean ====
section
/-! DEFINITION. Predicates and status: the conditions of the compares (R65 to R67), the guard and branch tests (R22, R75), and the
fields of tstatus, trapcause and the status words (R112, R115, R156, R220, R237). -/

namespace Sys2Proof.Machine

/-- R65: the conditions of CMP and CMPI. -/
def intCond (c : Fin 4) (a b : Word) : Bool :=
  match c with
  | 0 => a == b
  | 1 => a.slt b
  | 2 => a.ult b
  | 3 => (a &&& b) != 0

/-- R66: the conditions of FCMP. -/
def floatCond (c : Fin 4) (a b : FVal) : Bool :=
  let nan := a.isNan || b.isNan
  match c with
  | 0 => !nan && a.eqv b
  | 1 => !nan && a.lt b
  | 2 => !nan && (a.lt b || a.eqv b)
  | 3 => nan

/-- R67: the functions of PLOG. -/
def predFn (c : Fin 4) (x y : Bool) : Bool :=
  match c with
  | 0 => x && y
  | 1 => x || y
  | 2 => x != y
  | 3 => false

def bitIf (b : Bool) (k : Nat) : Nat := if b then 2 ^ k else 0

/-- R112: `tstatus` as it reads. -/
def Core.tstatus (c : Core) : Word :=
  BitVec.ofNat 64 (bitIf c.commit 11 + bitIf c.jnl 10 + bitIf c.dzt 7 + bitIf (!c.pend.isEmpty || c.woundHeld) 3 + bitIf c.diagen 2
    + bitIf c.sup 0)

/-- R115: `trapcause`. -/
def causeWord (swcode : Nat) (async : Bool) (head cause : Nat) : Word :=
  BitVec.ofNat 64 (swcode % 32 * 65536 + bitIf async 11 + head % 8 * 256 + cause % 256)

/-- R115: the code of a head. -/
def headCode : Head → Nat
  | .s => 0 | .m => 1 | .a => 2 | .y => 3

/-- R156: the codes of the command states. -/
def stateCode : CState → Nat
  | .queued => 0 | .waiting => 1 | .running => 2 | .withheld => 3 | .done => 4 | .faulted => 5 | .cut => 6

/-- R156: the status of a stream command. -/
def Cmd.status (c : Cmd) : Word :=
  BitVec.ofNat 64 (c.seq % 65536 * 2 ^ 46 + (if c.st = .faulted then c.cause % 32 else 0) * 2 ^ 40 + bitIf c.part 39
    + bitIf c.closed 38 + bitIf c.oob 37 + bitIf c.late 36 + stateCode c.st * 2 ^ 32 + c.detail % 2 ^ 32)

/-- R220: the status of an array, chain or encode command (ENG 0, 1 or 2). Withheld shows as running (R426). -/
def Cmd.engineStatus (c : Cmd) (eng : Nat) : Word :=
  BitVec.ofNat 64 (2 ^ 63 + c.seq % 65536 * 2 ^ 46 + (if c.st = .faulted then c.cause % 32 else 0) * 2 ^ 40
    + eng % 4 * 2 ^ 38 + bitIf c.late 36 + (if c.st = .withheld then 2 else stateCode c.st) * 2 ^ 32 + c.detail % 2 ^ 32)

/-- R181: a windrow answer; one that is not declared answers zeros beside TYPE and its id (DESIGN CHOICE, log 100). -/
def windrowStatus (id : Nat) (w : Option Windrow) : Word :=
  match w with
  | none => BitVec.ofNat 64 (2 ^ 62 + id % 16 * 2 ^ 58)
  | some w => BitVec.ofNat 64 (2 ^ 62 + id % 16 * 2 ^ 58 + w.free % 512 * 2 ^ 49 + w.filled % 512 * 2 ^ 40
      + w.rp % 256 * 2 ^ 32 + w.wp % 256 * 2 ^ 24)

/-- R237: a Y answer. -/
def yAnswer (ans body : Nat) : Word := BitVec.ofNat 64 (3 * 2 ^ 62 + ans % 16 * 2 ^ 58 + body % 2 ^ 58)

/-- R237: a barrier answer. -/
def barrierAnswer (b : Barrier) : Word :=
  yAnswer 0 (b.scope % 8 * 2 ^ 55 + b.bid % 64 * 2 ^ 49 + bitIf b.poison 48 + b.phase % 65536 * 2 ^ 32
    + b.arrived % 65536 * 65536 + b.count % 65536)

/-- R237: an acknowledgement of TENQ or TSPWN. -/
def ackAnswer (result ordinal : Nat) : Word := yAnswer 4 (result % 4 * 2 ^ 56 + ordinal % 2 ^ 32)

end Sys2Proof.Machine
end

