-- ==== Sys2Proof/Machine/Lanes.lean ====
section
/-! DEFINITION. What the operators compute on lanes and control values (spec/07 R192 to R213, spec/05 R136 to R142).
Payloads are numbers, lane j in bits [w*j + w - 1 : w*j] (R146). -/

namespace Sys2Proof.Machine

/-- The lane patterns of a data payload in format f. -/
def lanesOf (f : Fmt) (v : Nat) : List Nat := fieldsOf f.width f.lanes v

/-- Lane patterns as a payload in format f. -/
def ofLanes (f : Fmt) (xs : List Nat) : Nat := packFields f.width (xs.take f.lanes)

/-- R128, R131: the exact values of the lanes. -/
def laneVals (f : Fmt) (ftz : Bool) (v : Nat) : List FVal := (lanesOf f v).map (f.operand ftz)

/-- Strips the factors of two of a magnitude, so that equal values have one form. -/
def stripTwos : Nat → Nat → Int → Nat × Int
  | 0, m, e => (m, e)
  | k + 1, m, e => if m ≠ 0 ∧ m % 2 = 0 then stripTwos k (m / 2) (e + 1) else (m, e)

/-- The one form of an exact value. -/
def FVal.canon : FVal → FVal
  | .fin n m e =>
    if m = 0 then .fin n 0 0
    else
      let (m', e') := stripTwos (m.log2 + 1) m e
      .fin n m' e'
  | v => v

/-- The exponent of a power of two, for a positive value. -/
def FVal.powerOfTwo (v : FVal) : Option Int :=
  match v.canon with
  | .fin false 1 e => some e
  | _ => none

/-- The integer value of a number, where it is one. -/
def FVal.toInt (v : FVal) : Option Int :=
  match v.canon with
  | .fin n m e => if m = 0 then some 0 else if 0 ≤ e then some (signed n (m * 2 ^ e.toNat)) else none
  | _ => none

/-- One unit in the last place of an FP32 pattern, as an exact value. -/
def ulp32 (p : Nat) : FVal := .fin false 1 (max ((p / 2 ^ 23 % 256 : Nat) : Int) 1 - 150)

/-- |a| ≤ |b|. -/
def FVal.absLe (a b : FVal) : Bool := !(b.abs.lt a.abs)

/-- R198: a pattern is taken for 1/a when it is a number within 2 units in the last place of it. -/
def rcpOk (a : FVal) (p : Nat) : Bool :=
  let c := Fmt.fp32.value p
  let err := (c.mul a).add .rne (.fin true 1 0)
  !c.isNan && !c.isInf && err.absLe ((FVal.fin false 2 0).mul ((ulp32 p).mul a))

/-- R198: a pattern is taken for 1/sqrt(a), a > 0, when it is a number within 2 units in the last place of it. -/
def rsqOk (a : FVal) (p : Nat) : Bool :=
  let c := Fmt.fp32.value p
  let two := (FVal.fin false 2 0).mul (ulp32 p)
  let lo := c.add .rne two.neg
  let hi := c.add .rne two
  let one := FVal.fin false 1 0
  !c.isNan && !c.isInf && !c.sign && (lo.sign || !(one.lt (lo.mul (lo.mul a)))) && !((hi.mul (hi.mul a)).lt one)

/-- The FP32 pattern of a value, rounded to nearest. -/
def near32 (v : FVal) : Nat := roundTo .fp32 {} v

/-! The functions of R198 to far more places than FP32 has: fixed point with 256 bits behind the point. -/

/-- A magnitude in fixed point. -/
def fixOf (v : FVal) : Nat :=
  match v with
  | .fin _ m e => if -256 ≤ e then m * 2 ^ (e + 256).toNat else m / 2 ^ (-(e + 256)).toNat
  | _ => 0
def fixMul (a b : Nat) : Nat := a * b / 2 ^ 256
def fixVal (n : Bool) (m : Int) : FVal := .fin n m.toNat (-256)
/-- t + t x²/((j+1)(j+2)) + …, with alternating signs or all positive: sin, cos, sinh and cosh by their series. -/
def fixSeries (x2 : Nat) (alt : Bool) : Nat → Nat → Nat → Int
  | 0, _, _ => 0
  | n + 1, j, t =>
    let rest := fixSeries x2 alt n (j + 2) (fixMul t x2 / ((j + 1) * (j + 2)))
    if alt then t - rest else t + rest
def fixSin (x : Nat) : Int := fixSeries (fixMul x x) true 30 1 x
def fixCos (x : Nat) : Int := fixSeries (fixMul x x) true 30 0 (2 ^ 256)
def fixSinh (x : Nat) : Int := fixSeries (fixMul x x) false 64 1 x
def fixCosh (x : Nat) : Int := fixSeries (fixMul x x) false 64 0 (2 ^ 256)
/-- p/j + p t²/(j+2) + …: the area tangent by its series. -/
def fixAtanh (t2 : Nat) : Nat → Nat → Nat → Nat
  | 0, _, _ => 0
  | n + 1, j, p => p / j + fixAtanh t2 n (j + 2) (fixMul p t2)
/-- ln x for x in [1, 2]. -/
def fixLn (x : Nat) : Nat :=
  let t := (x - 2 ^ 256) * 2 ^ 256 / (x + 2 ^ 256)
  2 * fixAtanh (fixMul t t) 90 1 t
/-- π to 128 places. -/
def fixPi : Nat := 0x3243F6A8885A308D313198A2E03707344 * 2 ^ 128
/-- sin(2π u) for u in [0, 1), with its sign. -/
def fixTurn (u : Nat) : FVal :=
  let half := 2 ^ 255
  let n := decide (half < u)
  let v := if n then u - half else u
  let v := if half < 2 * v then half - v else v
  let arg (w : Nat) : Nat := fixMul (2 * fixPi) w
  if half < 4 * v then fixVal n (fixCos (arg (half / 2 - v))) else fixVal n (fixSin (arg v))
/-- The fractional part of a value, in [0, 1). -/
def fixFrac (a : FVal) : Nat :=
  let m := fixOf a % 2 ^ 256
  if a.sign && m != 0 then 2 ^ 256 - m else m
/-- 2^a for a number below 1024 in magnitude. -/
def exp2Near (a : FVal) : FVal :=
  let r := fixFrac a
  let k : Int := if a.sign then -(((fixOf a + r) / 2 ^ 256 : Nat) : Int) else ((fixOf a / 2 ^ 256 : Nat) : Int)
  let x := fixMul (fixLn (2 ^ 257)) r
  (fixVal false (fixSinh x + fixCosh x)).scale k
/-- log2 a for a > 0. -/
def log2Near (a : FVal) : FVal :=
  match a with
  | .fin _ m e =>
    let n := m.log2
    let x : Nat := fixLn (m * 2 ^ 256 / 2 ^ n) * 2 ^ 256 / fixLn (2 ^ 257)
    let y : Int := (e + n) * 2 ^ 256 + x
    fixVal (decide (y < 0)) y.natAbs
  | v => v
/-- tanh a for a number below 9 in magnitude. -/
def tanhNear (a : FVal) : FVal :=
  let x := fixOf a.abs
  fixVal a.sign (fixSinh x * 2 ^ 256 / fixCosh x)

/-- R198: a pattern is taken for a value when it is a number within 2 units in the last place of it; the unit is that of the pattern (DESIGN
CHOICE, log 96: the spec does not say whether it is that or the function value's). -/
def within2 (v : FVal) (p : Nat) : Bool :=
  let c := Fmt.fp32.value p
  !c.isNan && !c.isInf && (c.add .rne v.neg).absLe ((FVal.fin false 2 0).mul (ulp32 p))
/-- R198: a function's value to nearest; a magnitude beyond FP32 is rounded as R130 says (DESIGN CHOICE, log 82). -/
def nearValue (md : Mods) (v : FVal) : FVal :=
  let y := Fmt.fp32.value (near32 v)
  if y.isInf then Fmt.fp32.value (roundTo .fp32 md v) else y
/-- R198: y is the free value of an operator at an argument where that is within 2 units in the last place of the function's value v, else v
to nearest. -/
def specialNear (op : Nat) (md : Mods) (a v : FVal) : FVal :=
  let p := Config.special op a.canon % 2 ^ 32
  if within2 v p then Fmt.fp32.value p else nearValue md v

/-- R198: the FP32 value y of VRCP to VTANH (operators 0x11 to 0x17). The listed arguments give their exact results; the
others a free value, held within 2 units in the last place of the function's value. VSIN and VCOS take their argument modulo 1. VEXP2 of
an integer whose power lies outside FP32's normal numbers is that power rounded to FP32 under RM, SAT and FTZ, before it is rounded to OF
(DESIGN CHOICE, log 82: the spec has y an FP32 value and the power exact, subject to R130). VRCP of a subnormal whose reciprocal lies beyond
FP32: that of a power of two stands exact, any other is rounded under RM and SAT as R130 says (DESIGN CHOICE, log 82). -/
def specialVal (op : Nat) (md : Mods) (a : FVal) : FVal :=
  let turn : FVal := fixVal false (fixFrac a)
  let cosine : FVal := specialNear op md turn (fixTurn ((fixFrac a + 2 ^ 254) % 2 ^ 256))
  if a.isNan then .nan
  else match op with
    | 0x11 =>
      match a with
      | .inf n => .fin n 0 0
      | a =>
        if a.isZero then .inf a.sign
        else match a.abs.powerOfTwo with
          | some e => .fin a.sign 1 (-e)
          | none =>
            let p := Config.special op a.canon % 2 ^ 32
            if rcpOk a p then Fmt.fp32.value p else nearValue md ((FVal.fin false 1 0).div a)
    | 0x12 =>
      if a.isZero then .inf a.sign
      else if a.sign then .nan
      else match a with
        | .inf _ => .zero
        | a =>
          let p := Config.special op a.canon % 2 ^ 32
          if rsqOk a p then Fmt.fp32.value p else Fmt.fp32.value (near32 ((FVal.fin false 1 0).div a.sqrt))
    | 0x13 =>
      match a with
      | .inf n => if n then .zero else .inf false
      | a =>
        match a.toInt with
        | some k => Fmt.fp32.value (roundTo .fp32 md (.fin false 1 (max (-1000) (min 1000 k))))
        | none => specialNear op md a (exp2Near a)
    | 0x14 =>
      if a.isZero then .inf true
      else if a.sign then .nan
      else match a with
        | .inf _ => .inf false
        | a =>
          match a.powerOfTwo with
          | some e => FVal.ofInt e
          | none => specialNear op md a (log2Near a)
    | 0x15 =>
      match a with
      | .inf _ => .nan
      | a =>
        match (a.scale 1).toInt with
        | some _ => .fin a.sign 0 0
        | none => specialNear op md turn (fixTurn (fixFrac a))
    | 0x16 =>
      match a with
      | .inf _ => .nan
      | a =>
        match a.toInt with
        | some _ => .fin false 1 0
        | none =>
          match (a.scale 2).toInt with
          | some k => if k % 2 = 1 then .zero else cosine
          | none => cosine
    | _ =>
      if a.isZero then a
      else if !(a.abs.lt (.fin false 9 0)) then .fin a.sign 1 0
      else specialNear op md a (tanhNear a)

/-- R196: the exact value of an elementwise operator on decoded lanes, before its one rounding. -/
def elemVal (op : Nat) (md : Mods) (a b c : FVal) : FVal :=
  match op with
  | 0x01 => a.add md.rm b
  | 0x02 => a.add md.rm b.neg
  | 0x03 => a.mul b
  | 0x04 => (a.mul b).add md.rm c
  | 0x05 => a.min b
  | 0x06 => a.max b
  | 0x07 => a.abs
  | 0x08 => a.neg
  | _ => specialVal op md a

/-- Three lists of lanes side by side; a list that ends gives zeros. -/
def zip3 (xs ys zs : List Nat) (n : Nat) : List (Nat × Nat × Nat) :=
  (List.range n).map fun i => ((xs[i]?).getD 0, (ys[i]?).getD 0, (zs[i]?).getD 0)

/-- R196: the condition of VCMP on lane values. -/
def vcmpCond (mode : Nat) (a b : FVal) : Bool :=
  let un := a.isNan || b.isNan
  match mode with
  | 0 => a.eqv b
  | 1 => a.lt b
  | 2 => !un && !(b.lt a)
  | 3 => un
  | _ => un || !(a.eqv b)

/-- R196 to R199: the data result of an elementwise operator. w is the configuration word of the slot. -/
def elementwise (s : BSlot) (w x y z : Nat) : Nat :=
  let fi := CfgWord.inf w
  let fo := CfgWord.of w
  let md := CfgWord.mods w
  let n := fi.lanes
  let wi := fi.width
  let ls := zip3 (lanesOf fi x) (lanesOf fi y) (lanesOf fi z) n
  let val := fi.operand md.ftz
  match s.op with
  | 0x09 => ofLanes fi (ls.map fun (a, b, _) => if vcmpCond s.mode (val a) (val b) then 2 ^ wi - 1 else 0)
  | 0x0A => ofLanes fi (ls.map fun (a, b, c) => if a ≠ 0 then b else c)
  | 0x0B => ofLanes fi (ls.map fun (a, b, _) => a.land b)
  | 0x0C => ofLanes fi (ls.map fun (a, b, _) => a.lor b)
  | 0x0D => ofLanes fi (ls.map fun (a, b, _) => a.xor b)
  | 0x0E => ofLanes fi (ls.map fun (a, b, _) => a * 2 ^ (b % wi) % 2 ^ wi)
  | 0x0F => ofLanes fi (ls.map fun (a, b, _) =>
      if s.mode = 1 then wrapInt wi (toSigned wi a / ((2 ^ (b % wi) : Nat) : Int)) else a / 2 ^ (b % wi))
  | 0x10 =>
    let src := lanesOf fi x
    let lo := fo.lanes
    let part := if lo < n then (src.drop (s.mode * lo)).take lo else src
    ofLanes fo (part.map fun p => roundTo fo md (val p))
  | 0x18 =>
    let ks := fieldsOf 8 64 y
    ofLanes fo ((numbered 0 (lanesOf fi x)).map fun (i, p) =>
      let k := toSigned 8 ((ks[i / s.imm]?).getD 0)
      if k = -128 then roundTo fo md .zero else roundTo fo md ((val p).scale k))
  | _ => ofLanes fo (ls.map fun (a, b, c) => roundTo fo md (elemVal s.op md (val a) (val b) (val c)))

/-- One level of the pairwise tree of R141. -/
def pairs {α : Type} (f : α → α → α) : List α → List α
  | a :: b :: rest => f a b :: pairs f rest
  | xs => xs

/-- R141: the root of the tree of depth m. -/
def treeFold {α : Type} (f : α → α → α) : Nat → List α → List α
  | 0, xs => xs
  | m + 1, xs => treeFold f m (pairs f xs)

/-- An integer format. -/
def Fmt.isInt (f : Fmt) : Bool := f.intBits.isSome

/-- R141, R205: RSUM, RMAX and RMIN of a token, as an exact value; the sum of float lanes rounds to FP32 at every node, and the sum of
integer lanes is an integer, whose zero has no sign. -/
def reduceVal (op : Nat) (fi : Fmt) (md : Mods) (x : Nat) : FVal :=
  let vs := laneVals fi md.ftz x
  let node (a b : FVal) : FVal :=
    if op = 0x28 then
      (if fi.isInt then FVal.ofInt (a.toInt.getD 0 + b.toInt.getD 0)
       else
        let r := roundTo .fp32 md (a.add md.rm b)
        Fmt.fp32.operand md.ftz r)
    else if op = 0x29 then a.max b else a.min b
  ((treeFold node 6 vs).head?).getD .zero

/-- R205: the control result of a reduction. -/
def reduceCtl (op w x : Nat) : Nat :=
  let fi := CfgWord.inf w
  let md := CfgWord.mods w
  let v := reduceVal op fi md x
  if fi.isInt then wrapInt 64 (v.toInt.getD 0) else roundTo .fp32 md v

/-- R205: the data result of a reduction, in lane 0 or in every lane under rep. -/
def reduceData (s : BSlot) (w x : Nat) : Nat :=
  let fo := CfgWord.of w
  let md := CfgWord.mods w
  let r := roundTo fo md (reduceVal s.op (CfgWord.inf w) md x)
  if s.mode % 2 = 1 then ofLanes fo (List.replicate fo.lanes r) else r % 2 ^ fo.width

/-- The format of an accumulator of ACC or of a matrix slot: INT32 for INT8 operands, FP32 otherwise (R139, R142). -/
def accFmt (fi : Fmt) : Fmt := if fi = .int8 then .int32 else .fp32

/-- R142, R205: one token into the lanes of ACC. -/
def accStep (w : Nat) (acc : List Nat) (x : Nat) : List Nat :=
  let fi := CfgWord.inf w
  let md := CfgWord.mods w
  let fa := accFmt fi
  (numbered 0 (laneVals fi md.ftz x)).map fun (i, v) =>
    roundTo fa md ((fa.operand md.ftz ((acc[i]?).getD 0)).add md.rm v)

/-- R205: the tokens ACC emits at a marker. -/
def accEmit (w : Nat) (acc : List Nat) : List Nat :=
  let fi := CfgWord.inf w
  let fo := CfgWord.of w
  let md := CfgWord.mods w
  (List.range (max 1 (fi.lanes / fo.lanes))).map fun q =>
    ofLanes fo ((List.range fo.lanes).map fun i =>
      if q * fo.lanes + i < fi.lanes then
        roundTo fo md ((accFmt fi).operand md.ftz ((acc[q * fo.lanes + i]?).getD 0))
      else 0)

/-- R142: the inclusive prefix sum of the lanes, each sum an FP32 pattern, with the carry after the last. -/
def scanLanes (md : Mods) (c : Nat) : List FVal → List Nat × Nat
  | [] => ([], c)
  | v :: vs =>
    let y := roundTo .fp32 md ((Fmt.fp32.operand md.ftz c).add md.rm v)
    let (ys, c') := scanLanes md y vs
    (y :: ys, c')

/-- R205: the token SCANS emits and its new carry. -/
def scanStep (w carry x : Nat) : Nat × Nat :=
  let fi := CfgWord.inf w
  let fo := CfgWord.of w
  let md := CfgWord.mods w
  let (ys, c) := scanLanes md carry (laneVals fi md.ftz x)
  (ofLanes fo (ys.map fun y => roundTo fo md (Fmt.fp32.operand md.ftz y)), c)

/-- R206: SHUF, PACK, UNPK and REPL. -/
def moveLanes (s : BSlot) (w x y : Nat) : Nat :=
  let f := CfgWord.inf w
  let n := f.lanes
  let a := lanesOf f x
  let b := lanesOf f y
  let at' (l : List Nat) (i : Nat) : Nat := (l[i]?).getD 0
  match s.op with
  | 0x30 => ofLanes f ((List.range n).map fun i =>
      let j := y / 2 ^ (8 * i) % 256
      if s.mode = 1 ∧ n ≤ j then 0 else at' a (j % n))
  | 0x31 => ofLanes f ((List.range n).map fun i =>
      let k := if i < n / 2 then i else i - n / 2
      let j := if s.mode = 1 then 2 * k else k
      if i < n / 2 then at' a j else at' b j)
  | 0x32 =>
    let h := s.mode % 2 * (n / 2)
    ofLanes f ((List.range n).map fun i =>
      if s.mode / 2 = 1 then (if i % 2 = 0 then at' a (h + i / 2) else 0)
      else if i < n / 2 then at' a (h + i) else 0)
  | _ => ofLanes f (List.replicate n (at' a (s.imm % n)))

/-- R206: XTR. -/
def extractLane (s : BSlot) (w x : Nat) : Nat :=
  let f := CfgWord.inf w
  extend64 f (((lanesOf f x)[s.imm % f.lanes]?).getD 0)

/-- R209: the constant of a CONST slot. -/
def constPayload (s : BSlot) (w : Nat) : Nat :=
  if s.pl then wrapInt 64 (toSigned 16 s.imm)
  else
    let fo := CfgWord.of w
    let lane :=
      match fo with
      | .fp32 => s.imm * 65536
      | .int32 => wrapInt 32 (toSigned 16 s.imm)
      | f => s.imm % 2 ^ f.width
    ofLanes fo (List.replicate fo.lanes lane)

/-- R210: a stop token. -/
def isStop (v : Nat) : Bool := v.testBit 63

/-- R213: IADD and IMAD, modulo 2^64 or clamped to the signed range. -/
def ctlArith (sat : Bool) (v : Int) : Nat :=
  if sat then wrapInt 64 (max (-(2 ^ 63)) (min (2 ^ 63 - 1) v)) else wrapInt 64 v

/-- R213: ADRG, IADD and IMAD on control values. -/
def ctlOp (s : BSlot) (x y z : Nat) : Nat :=
  let sat := s.mode % 2 = 1
  match s.op with
  | 0x4C => if isStop x then x else if isStop y then y else (x + y * s.imm) % 2 ^ 64
  | 0x50 => ctlArith sat (toSigned 64 x + toSigned 64 y + toSigned 16 s.imm)
  | _ => ctlArith sat (toSigned 64 x * toSigned 64 y + toSigned 64 z)

/-- R200: the scale that applies to K index j of row or column r; 0 where the operand has no scales. -/
def scaleAt (code : Nat) (scales : List Nat) (r j : Nat) : Int :=
  match CfgWord.scaleLen code with
  | none => 0
  | some l => toSigned 8 ((scales[16 * r + j / l % 16]?).getD 0)

/-- R137, R138: the exact sum of one output: x holds the decoded A elements, none at a pruned position. -/
def dotExact (sa sb : Nat → Int) (kb : Nat) : Nat → List (Option FVal) → List FVal → FVal
  | i, some x :: xs, y :: ys =>
    let a := sa (kb + i)
    let b := sb (kb + i)
    let rest := dotExact sa sb kb (i + 1) xs ys
    if a = -128 ∨ b = -128 then rest else ((x.mul y).scale (a + b)).add .rne rest
  | i, none :: xs, _ :: ys => dotExact sa sb kb (i + 1) xs ys
  | _, _, _ => .zero

/-- R137, R139: one output of a matrix step. -/
def matOut (int8 : Bool) (md : Mods) (acc : Nat) (sum : FVal) : Nat :=
  if int8 then
    let v := toSigned 32 acc + sum.toInt.getD 0
    if md.sat then roundToInt 32 md (FVal.ofInt v) else wrapInt 32 v
  else
    let s := if sum.isZero then FVal.zero else sum
    roundTo .fp32 md ((Fmt.fp32.value acc).add md.rm s)

/-- R137 to R139: a matrix step on a 4 x 4 accumulator: rows are A, columns are B, both decoded. -/
def matStep (w : Nat) (acc : List Nat) (sa sb : List Nat) (kb : Nat) (rows : List (List (Option FVal)))
    (cols : List (List FVal)) : List Nat :=
  let md := CfgWord.mods w
  let int8 := CfgWord.inf w = .int8
  (List.range 16).map fun k =>
    let r := k / 4
    let c := k % 4
    let sum := dotExact (scaleAt (CfgWord.la w) sa r) (scaleAt (CfgWord.lb w) sb c) kb 0
      ((rows[r]?).getD []) ((cols[c]?).getD [])
    matOut int8 md ((acc[k]?).getD 0) sum

/-- R201: the K depth of a token of a matrix operand. -/
def kDepth (fi : Fmt) : Nat := if fi = .fp32 then 4 else if fi.width = 16 then 8 else 16

/-- R201: the rows of an operand: element (r, k) is lane r*K + k. -/
def matRows (f : Fmt) (ftz : Bool) (k x : Nat) : List (List FVal) :=
  let ls := laneVals f ftz x
  (List.range 4).map fun r => (ls.drop (r * k)).take k

/-- R202: N of an MMS4 mode. -/
def mms4N (mode : Nat) : Nat :=
  match mode % 4 with
  | 0 => 4 | 1 => 6 | 2 => 8 | _ => 12

/-- R202: one group of 24 positions: the stored values go to the first N set bits of the mask. -/
def expandGroup (n m : Nat) (stored : Nat → FVal) : Nat → Nat → List (Option FVal)
  | _, 0 => []
  | i, q + 1 =>
    let bitPos := 23 - q
    if m.testBit bitPos ∧ i < n then some (stored i) :: expandGroup n m stored (i + 1) q
    else none :: expandGroup n m stored i q

/-- R202: the expanded row r of A. -/
def expandRow (f : Fmt) (ftz : Bool) (n gs : Nat) (aToks : List Nat) (metaTok r : Nat) : List (Option FVal) :=
  (List.range gs).flatMap fun g =>
    let m := metaTok / 2 ^ (32 * (4 * r + g)) % 2 ^ 24
    let stored (i : Nat) : FVal :=
      let e := r * gs * n + g * n + i
      f.operand ftz (laneOf f.width ((aToks[e / f.lanes]?).getD 0) (e % f.lanes))
    expandGroup n m stored 0 24

/-- R202: the expanded rows and the columns of an MMS4 step from its tokens. -/
def mms4Operands (w mode : Nat) (aToks bToks : List Nat) (metaTok : Nat) :
    List (List (Option FVal)) × List (List FVal) :=
  let fa := CfgWord.inf w
  let fb := CfgWord.bf w
  let ftz := (CfgWord.mods w).ftz
  let k := kDepth fa
  let gs := 3 * k / 24
  let n := mms4N mode
  ((List.range 4).map fun r => expandRow fa ftz n gs aToks metaTok r,
   (List.range 4).map fun c => bToks.flatMap fun b => ((laneVals fb ftz b).drop (c * k)).take k)

/-- R203: the result of MRD from an accumulator. -/
def mrdResult (s : BSlot) (w : Nat) (fa : Fmt) (acc : List Nat) : Nat :=
  if s.mode % 2 = 1 then
    let fo := CfgWord.of w
    let md := CfgWord.mods w
    ofLanes fo (acc.map fun p => roundTo fo md (fa.operand md.ftz p))
  else packFields 32 acc

end Sys2Proof.Machine
end

