-- ==== Sys2Proof/Machine/Rmw.lean ====
section
/-! DEFINITION. Elements as bytes of memory and of tile store, read-modify-writes, and the application of round buffers (spec/05 R143,
R145, spec/06 R171, spec/12 R307, R308). -/

namespace Sys2Proof.Machine

/-! ### Bytes to elements (R143, R145) -/

/-- R143: the byte that holds an element's first bit, the bit within it, and the bytes the element touches. -/
def elemByte (w E : Nat) : Nat := w * E / 8
def elemBit (w E : Nat) : Nat := w * E % 8
def elemBytes (w E : Nat) : Nat := (elemBit w E + w + 7) / 8
/-- The number in bytes at addresses, the first lowest. -/
def gather (m : List (Nat × BitVec 8)) : List Nat → Nat
  | [] => 0
  | a :: as => (getByte m a).toNat + 256 * gather m as
/-- The bytes at addresses take a number. -/
def scatter (m : List (Nat × BitVec 8)) (v : Nat) : List Nat → List (Nat × BitVec 8)
  | [] => m
  | a :: as => scatter (setByte m a (BitVec.ofNat 8 v)) (v / 256) as
/-- R145: the w bits from bit on of a number, replaced. -/
def putBits (whole bit w v : Nat) : Nat := whole - whole / 2 ^ bit % 2 ^ w * 2 ^ bit + v % 2 ^ w * 2 ^ bit
/-- A word of those addresses is uncorrectable (R335). -/
def touchesBad (bad as : List Nat) : Bool := as.any fun a => bad.contains (a / 8 * 8)
def clearBad (bad as : List Nat) : List Nat := bad.filter fun x => !as.any fun a => a / 8 * 8 == x

/-- An element of physical memory. -/
def State.readPhys (s : State) (as : List Nat) (bit w : Nat) : Nat := gather s.mem as / 2 ^ bit % 2 ^ w
def State.writePhys (s : State) (as : List Nat) (bit w v : Nat) : State :=
  { s with
    mem := scatter s.mem (putBits (gather s.mem as) bit w v) as
    badWords := clearBad s.badWords as }
/-- An element is written into a slot's tile store. -/
def Slot.writeTile (l : Slot) (as : List Nat) (bit w v : Nat) : Slot :=
  { l with
    store := scatter l.store (putBits (gather l.store as) bit w v) as
    badWords := clearBad l.badWords as }

/-- The bytes of an update's location. -/
def Update.bytes (u : Update) : List Nat :=
  let n := ((Fmt.ofEfmt u.efmt).getD .octet).width / 8
  match u.loc with
  | .phys a => (List.range n).map (a + ·)
  | .tile _ o => (List.range n).map (o + ·)
/-- The word of 8 bytes that an update acts in. -/
def Update.word (u : Update) : Loc :=
  match u.loc with
  | .phys a => .phys (a / 8 * 8)
  | .tile c o => .tile c (o / 8 * 8)

/-! ### Read-modify-writes (R171, R307) -/

/-- R171: the value that replaces old. -/
def rmwNew (efmt op : Nat) (md : Mods) (old x : Nat) : Nat :=
  let f := (Fmt.ofEfmt efmt).getD .octet
  let w := f.width
  match op with
  | 1 =>
    match f.intBits with
    | some b =>
      let v := toSigned b old + toSigned b x
      if md.sat then wrapInt b (max (-((2 ^ (b - 1) : Nat) : Int)) (min (((2 ^ (b - 1) : Nat) : Int) - 1) v)) else wrapInt b v
    | none => roundTo f md ((f.operand md.ftz old).add md.rm (f.operand md.ftz x))
  | 2 => roundTo f { ftz := md.ftz } ((f.operand md.ftz old).min (f.operand md.ftz x))
  | 3 => roundTo f { ftz := md.ftz } ((f.operand md.ftz old).max (f.operand md.ftz x))
  | 4 => (old % 2 ^ w).land (x % 2 ^ w)
  | 5 => (old % 2 ^ w).lor (x % 2 ^ w)
  | 6 => (old % 2 ^ w).xor (x % 2 ^ w)
  | _ => x % 2 ^ w
def Update.mods (u : Update) : Mods := ⟨RMode.ofCode u.rm, u.sat, u.ftz⟩
/-- The value at an update's location, and the state with it replaced. -/
def State.readLoc (s : State) (u : Update) : Nat :=
  match u.loc with
  | .phys _ => gather s.mem u.bytes
  | .tile c _ => gather (s.slotAt c).store u.bytes
def State.writeLoc (s : State) (u : Update) (v : Nat) : State :=
  match u.loc with
  | .phys _ => { s with mem := scatter s.mem v u.bytes }
  | .tile c _ => s.setSlot c fun l => { l with store := scatter l.store v u.bytes }
def State.badLoc (s : State) (u : Update) : Bool :=
  match u.loc with
  | .phys _ => touchesBad s.badWords u.bytes
  | .tile c _ => touchesBad (s.slotAt c).badWords u.bytes
/-- R307: the update is applied in the home order. -/
def State.applyRmw (s : State) (u : Update) : State :=
  s.writeLoc u (rmwNew u.efmt u.op u.mods (s.readLoc u) u.x)

/-! ### Round buffers (R308) -/

/-- R335: an update at an uncorrectable word is not applied. -/
def State.applySound (s : State) (u : Update) : State := if s.badLoc u then s else s.applyRmw u
/-- R308 item 2: the buffers of the completed rounds of a region are applied in arrival order. -/
def State.applyBuffers (s : State) (ctx : Nat) (done : Option Nat → Bool) : State :=
  let mine (u : Update) : Bool := u.ctx == ctx && done u.round
  ({ (s.buffers.filter mine).foldl State.applySound s with buffers := s.buffers.filter fun u => !mine u } : State)
/-- R441, R308: complete rounds are applied at the homes, and open buffers are discarded. -/
def State.settleBuffers (s : State) (ctx : Nat) : State :=
  let cuts := (s.slotAt ctx).quad.cuts
  let t := s.applyBuffers ctx fun r => match r with | some r => decide (r < cuts) | none => false
  { t with buffers := t.buffers.filter fun u => u.ctx != ctx }

end Sys2Proof.Machine
end

