-- ==== Sys2Proof/Machine/Sward.lean ====
section
/-! DEFINITION. How the sward fires (spec/10, spec/07): readiness, firings, executions in ac order, markers, cuts, ports.
A firing puts its slots' executions down for firing ac + DLY; settle runs the executions that are due, in ac order. -/

namespace Sys2Proof.Machine

/-- The key of operand o of slot n. -/
def opKey (n o : Nat) : Nat := 4 * n + o

namespace Quad

def slots (q : Quad) : List BSlot := (q.blk.map (·.slots)).getD []
def words (q : Quad) : List Nat := (q.blk.map (·.words)).getD []
def ports (q : Quad) : List PortEntry := (q.blk.map (·.ports)).getD []
def place (q : Quad) : List Nat := (q.blk.map (·.place.pes)).getD []
def slot (q : Quad) (n : Nat) : BSlot := (q.slots[n]?).getD default
def word (q : Quad) (n : Nat) : Nat := (q.words[n]?).getD 0
def op (q : Quad) (n : Nat) : OpState := (q.ops[n]?).getD {}
def setOp (q : Quad) (n : Nat) (f : OpState → OpState) : Quad := { q with ops := lmod n f q.ops }
def groups (q : Quad) : List (Option Nat) := groupsOf q.slots
def group (q : Quad) (n : Nat) : Option Nat := (q.groups[n]?).getD none
/-- The slots of a group, in order. -/
def members (q : Quad) (g : Nat) : List Nat := (List.range q.slots.length).filter fun n => q.group n == some g
def intra (q : Quad) (l : Link) : Bool := l.dst != 127 && intraLink q.slots q.groups l
def port (q : Quad) (p : Nat) : InPort := aget {} p q.inPorts
def outPort (q : Quad) (p : Nat) : List (Tok × Bool) := aget [] p q.outPorts
def buf (q : Quad) (k : Nat) : List Tok := aget [] k q.bufs

/-- The link that feeds operand o of slot n, if a slot does. -/
def feeder (q : Quad) (n o : Nat) : Option Link :=
  (slotLinks q.slots).find? fun l => l.dst == n && l.opnd == o

/-- The input port that feeds operand o of slot n, if one does. -/
def portOf (q : Quad) (n o : Nat) : Option Nat :=
  (q.ports.find? fun e => !e.dir && e.slot == n && e.opnd == o).map (·.phys)

/-- The keys of the operands fed by an input port (R46). -/
def portKeys (q : Quad) (p : Nat) : List Nat :=
  (q.ports.filter fun e => !e.dir && e.phys == p).map fun e => opKey e.slot e.opnd

/-- Whether an input or output index is mapped by the current binding (R267). -/
def mapsIn (q : Quad) (p : Nat) : Bool := q.ports.any fun e => !e.dir && e.phys == p
def mapsOut (q : Quad) (p : Nat) : Bool := q.ports.any fun e => e.dir && e.phys == p

/-- R268: the plane of an input port: true for control. -/
def inPlane (q : Quad) (p : Nat) : Bool :=
  match q.ports.find? fun e => !e.dir && e.phys == p with
  | some e => operandPlane (q.slot e.slot) e.opnd
  | none => false

/-- R268: the plane of an output port. -/
def outPlane (q : Quad) (p : Nat) : Bool :=
  match q.ports.find? fun e => e.dir && e.phys == p with
  | some e => q.slots.any fun s => s.toPort && s.port == e.pid && s.pl && !s.rep
  | none => false

/-- The output port of a slot whose consumer is 127 (R42, R46). -/
def outPhys (q : Quad) (s : BSlot) : Nat :=
  ((q.ports.find? fun e => e.dir && e.pid == s.port).map (·.phys)).getD 0

/-- Hops between two PEs of the 8 x 8 quadrant (R271, R460). -/
def hops (q : Quad) (a b : Nat) : Nat :=
  let pa := (q.place[a]?).getD a
  let pb := (q.place[b]?).getD b
  let dist (x y : Nat) : Nat := if x ≤ y then y - x else x - y
  dist (pa % 8) (pb % 8) + dist (pa / 8) (pb / 8)

/-- R273 item 1: the operands a slot waits on: those fed by a port or by an inter-group link. -/
def waited (q : Quad) (n : Nat) : List Nat :=
  (List.range (opInputs (q.slot n).op)).filter fun o =>
    match q.feeder n o with
    | some l => !q.intra l
    | none => true

/-- The token that stands for an operand: the head of its port, unless this operand has taken it, or of its buffer. -/
def headTok (q : Quad) (n o : Nat) : Option Tok :=
  match q.portOf n o with
  | some p =>
    let ip := q.port p
    if ip.taken.contains (opKey n o) then none else ip.q.head?
  | none => (q.buf (opKey n o)).head?

/-- The tokens an operand's buffer holds, for skip-ahead (R284); a port shows its head alone. -/
def buffered (q : Quad) (n o : Nat) : List Tok :=
  match q.portOf n o with
  | some _ => (q.headTok n o).toList
  | none => q.buf (opKey n o)

/-- R269: an operand takes its head; a port's head leaves when every operand it feeds has taken it. -/
def takeTok (q : Quad) (n o : Nat) : Quad :=
  match q.portOf n o with
  | some p =>
    let ip := q.port p
    let tk := opKey n o :: ip.taken
    let ip' := if (q.portKeys p).all tk.contains then { ip with q := ip.q.drop 1, taken := [] } else { ip with taken := tk }
    { q with inPorts := aset p ip' q.inPorts }
  | none => { q with bufs := amod [] (opKey n o) (·.drop 1) q.bufs }

/-- k takings of one operand. -/
def takeMany (q : Quad) (n o : Nat) : Nat → Quad
  | 0 => q
  | k + 1 => (q.takeTok n o).takeMany n o k

end Quad

/-- A value token (R265). -/
def Tok.isValue (t : Tok) : Bool := !t.mkr
/-- An end-of-round marker (R265). -/
def Tok.isMarker (t : Tok) : Bool := t.mkr && !t.lem
/-- A bare last-element marker (R266). -/
def Tok.isBare (t : Tok) : Bool := t.mkr && t.lem
/-- The marker of a round tag. -/
def markerTok (tag : Nat) : Tok := ⟨0, tag, false, true⟩

namespace Quad

/-- The value token at an operand's head. -/
def headValue (q : Quad) (n o : Nat) : Option Tok :=
  match q.headTok n o with
  | some t => if t.isValue then some t else none
  | none => none

/-- R212, R284: how many tokens an ISECT or UNION takes from each operand, given what stands there. UNION emits every
value it takes, so skip-ahead, which takes without emitting, is ISECT's. -/
def pickCoord (isect skip : Bool) (xs ys : List Tok) : Option (Nat × Nat) :=
  match xs.head?, ys.head? with
  | some a, some b =>
    if !a.isValue || !b.isValue then none
    else
      let run (l : List Tok) (other : Nat) : Nat :=
        let ok := l.takeWhile fun t =>
          t.isValue && t.tag == a.tag && !isStop t.pay && (isStop other || decide (t.pay < other))
        if skip && isect then min 4 ok.length else 1
      if isStop a.pay && isStop b.pay then some (1, 1)
      else if isStop a.pay then some (0, run ys a.pay)
      else if isStop b.pay then some (run xs b.pay, 0)
      else if a.pay < b.pay then some (run xs b.pay, 0)
      else if b.pay < a.pay then some (0, run ys a.pay)
      else some (1, 1)
  | _, _ => none

/-- R273 item 1, R208, R212: what slot n takes when its group fires: (operand, count), or none while it holds the group. A MERGE whose in0
comes over an intra-group link takes that token, and its group waits for in1 (DEDUCED, log 85); an OMERGE whose in2 comes over one takes the selected token as it executes
(`lateTake`). -/
def picks (q : Quad) (n : Nat) : Option (List (Nat × Nat)) :=
  let s := q.slot n
  let w := q.waited n
  let has (o : Nat) : Bool := (q.headValue n o).isSome
  if w.isEmpty then some []
  else if s.op = 0x39 then
    match w.find? has with
    | some o => some (if w.contains 0 then [(o, 1)] else [])
    | none => none
  else if s.op = 0x3A then
    if w.contains 2 then
      match q.headValue n 2 with
      | none => none
      | some t =>
        let o := if t.pay ≠ 0 then 1 else 0
        if !w.contains o then some [(2, 1)] else if has o then some [(2, 1), (o, 1)] else none
    else some []
  else if (s.op = 0x4A ∨ s.op = 0x4B) ∧ w.length = 2 then
    (pickCoord (s.op == 0x4A) (s.mode.testBit 1) (q.buffered n 0) (q.buffered n 1)).map fun (a, b) =>
      (if a = 0 then [] else [(0, a)]) ++ (if b = 0 then [] else [(1, b)])
  else if w.all has then some (w.map fun o => (o, 1)) else none

/-- All picks of a group's slots. -/
def groupPicks (q : Quad) : List Nat → Option (List (Nat × Nat × Nat))
  | [] => some []
  | n :: ns =>
    match q.picks n, q.groupPicks ns with
    | some ps, some rest => some (ps.map (fun (o, k) => (n, o, k)) ++ rest)
    | _, _ => none

/-- R208: an OMERGE whose in2 comes over an intra-group link: which operand it takes shows only as the group executes. -/
def selectsLate (q : Quad) (n : Nat) : Bool := (q.slot n).op == 0x3A && !(q.waited n).contains 2

/-- R273 item 2: a slot in a matrix step, a loop-header run or a multi-token emission. -/
def slotBusy (q : Quad) (n : Nat) : Bool :=
  let st := q.op n
  st.step.isSome || st.run.isSome || st.queue.any (·.multi)

/-- R273 item 2 for a group: no slot busy, and none with a step or run still to begin: the group is held from the firing on, not only from
the execution DLY later (DESIGN CHOICE, log 101); it is held too while an OMERGE that selects late has still to take its token (log 85). -/
def groupBusy (q : Quad) (g : Nat) : Bool :=
  (q.members g).any fun n =>
    q.slotBusy n || ((matrixOp (q.slot n).op || (q.slot n).op == 0x48 || (q.slot n).op == 0x49 || q.selectsLate n)
      && q.firings.any fun f => f.marker.isNone && f.todo.contains n)

/-- The places of a destination (R267, R271). -/
def capacity (q : Quad) : Dest → Nat
  | .out _ => 8
  | .buf k => if (q.slot (k / 4)).op = 0x4A ∨ (q.slot (k / 4)).op = 0x4B then 8 else 2

/-- What a destination holds, with the tokens in transit to it (R273 item 3). -/
def held (q : Quad) (d : Dest) : Nat :=
  (match d with
   | .out p => (q.outPort p).length
   | .buf k => (q.buf k).length) + (q.links.filter fun t => t.dst == d).length

/-- R273 item 3: no destination holds or awaits more than its places. -/
def withinCredit (q : Quad) : Bool := q.links.all fun t => decide (q.held t.dst ≤ q.capacity t.dst)

/-- R43, R272: a control result in every lane of a data token of format f. -/
def replicate (f : Fmt) (v : Nat) : Nat := ofLanes f (List.replicate f.lanes (v % 2 ^ f.width))

/-- R272: the payload as consumer operand o of slot n takes it. -/
def linkPay (q : Quad) (src : BSlot) (n o v : Nat) : Nat :=
  if src.pl && src.rep && !operandPlane (q.slot n) o then
    replicate (if o = 1 ∧ matrixOp (q.slot n).op then CfgWord.bf (q.word n) else CfgWord.inf (q.word n)) v
  else v

/-- R278: a round whose cut is not complete and can be in this configuration's snapshots. -/
def openRound (q : Quad) (r : Nat) : Bool := decide (q.cuts ≤ r) && decide (r < q.cuts + 3)

/-- Sends a token of slot n over one link that is not intra-group, to enter at base + h (R271). -/
def sendLink (q : Quad) (n : Nat) (l : Link) (base : Nat) (t : Tok) : Quad :=
  let s := q.slot n
  if l.dst = 127 then
    let p := q.outPhys s
    let q1 := { q with links := q.links ++ [⟨base + 1, .out p, t, n, s.pl && s.rep⟩] }
    if t.isMarker && q.openRound t.tag then { q1 with outMarks := (t.tag, p) :: q1.outMarks } else q1
  else
    { q with links := q.links ++ [⟨base + q.hops n l.dst, .buf (opKey l.dst l.opnd),
        { t with pay := if t.mkr then t.pay else q.linkPay s l.dst l.opnd t.pay }, n, false⟩] }

/-- Delivers a result of slot n, executed at ac u, to the consumers that sel keeps (R185): inside the group to the firing,
otherwise over links. A marker never travels on an intra-group link (R277). -/
def deliver (q : Quad) (f : Firing) (n : Nat) (base : Nat) (sel : Nat → Bool) (t : Tok) : Quad × Firing :=
  ((q.slot n).links n).foldl (fun (acc : Quad × Firing) l =>
    let (q, f) := acc
    if !sel l.which then (q, f)
    else if q.intra l then
      (if t.mkr then (q, f)
       else (q, { f with results := f.results ++
          [(n, l.which, { t with pay := q.linkPay (q.slot n) l.dst l.opnd t.pay })] }))
    else (q.sendLink n l base t, f)) (q, f)

/-- The token operand o of slot n has in a firing: over its intra-group link, or as taken. -/
def operandTok (q : Quad) (f : Firing) (n o : Nat) : Option Tok :=
  match q.feeder n o with
  | some l =>
    if q.intra l then (f.results.find? fun (s, w, _) => s == l.src && w == l.which).map (·.2.2)
    else (f.taken.find? fun (k, _) => k == opKey n o).map (·.2)
  | none => (f.taken.find? fun (k, _) => k == opKey n o).map (·.2)

/-- R185: whether every intra-group operand of the slot got its token. -/
def executes (q : Quad) (f : Firing) (n : Nat) : Bool :=
  (List.range (opInputs (q.slot n).op)).all fun o =>
    match q.feeder n o with
    | some l => !q.intra l || (q.operandTok f n o).isSome
    | none => true

/-- Puts tokens into the emission queue of slot n, to leave at the end of ac ready or later; more than one are a multi-token emission
(R273, R284). -/
def enqueue (q : Quad) (n ready : Nat) (ts : List Tok) : Quad :=
  q.setOp n fun st => { st with queue := st.queue ++ ts.map fun t => ⟨t, ready, decide (1 < ts.length)⟩ }

/-- R275: a token that slot n takes in a firing has LEM = 1. -/
def opLem (q : Quad) (f : Firing) (n : Nat) : Bool :=
  (f.taken.any fun (k, t) => k / 4 == n && t.lem)
    || (List.range (opInputs (q.slot n).op)).any fun o => ((q.operandTok f n o).map (·.lem)).getD false

/-- R212: the heads that an ISECT or UNION compares and how many tokens it takes from each operand. Where an operand comes over an
intra-group link, the two tokens of the execution are compared, and one that is not taken is dropped (DESIGN CHOICE, log 85). -/
def coordHeads (q : Quad) (f : Firing) (n : Nat) : (Nat × Nat) × Nat × Nat :=
  if (q.waited n).length = 2 then
    let count (o : Nat) : Nat := (f.taken.filter fun (k, _) => k == opKey n o).length
    let at' (o : Nat) : Nat := ((f.seen.find? fun (k, _) => k == opKey n o).map (·.2.pay)).getD 0
    ((at' 0, at' 1), count 0, count 1)
  else
    let tok (o : Nat) : List Tok := (q.operandTok f n o).toList
    let pay (o : Nat) : Nat := ((q.operandTok f n o).map (·.pay)).getD 0
    ((pay 0, pay 1), (pickCoord true false (tok 0) (tok 1)).getD (0, 0))

/-- R212: the value ISECT and UNION emit under pos. -/
def posPair (ordA ordB : Option Nat) : Nat :=
  (match ordA with | some a => a % 2 ^ 31 | none => 0xFFFFFFFF)
    + (match ordB with | some b => b % 2 ^ 31 | none => 0x7FFFFFFF) * 2 ^ 32

/-- R212: what an ISECT or UNION execution emits, from the heads a, b it compared, and its new ordinals. -/
def coordResult (isect pos : Bool) (st : OpState) (a b na nb : Nat) : Option Nat × Nat × Nat :=
  if isStop a && isStop b then
    (some (2 ^ 63 + max (a % 16) (b % 16)), 0, 0)
  else if na = 1 ∧ nb = 1 then
    (some (if pos then posPair (some st.ordA) (some st.ordB) else a), st.ordA + 1, st.ordB + 1)
  else if isect then (none, st.ordA + na, st.ordB + nb)
  else if na = 1 then (some (if pos then posPair (some st.ordA) none else a), st.ordA + 1, st.ordB)
  else (some (if pos then posPair none (some st.ordB) else b), st.ordA, st.ordB + 1)

/-- Full tokens of n lanes from pending lanes, with what stays (R213). -/
def cutTokens (n : Nat) : Nat → List Nat → List (List Nat) × List Nat
  | 0, xs => ([], xs)
  | k + 1, xs =>
    if n = 0 ∨ xs.length < n then ([], xs)
    else
      let (ts, rest) := cutTokens n k (xs.drop n)
      (xs.take n :: ts, rest)

/-- The state a matrix slot has after ACFG or MCLR, but for its scales (R200, R203). -/
def clearAcc (st : OpState) : OpState := { st with acc := List.replicate 16 0, kb := 0 }

/-- R208: the operand that an OMERGE which selects late takes in a firing, once in2 has come. -/
def lateOperand (q : Quad) (f : Firing) (n : Nat) : Option Nat :=
  if !q.selectsLate n then none
  else (q.operandTok f n 2).bind fun t =>
    let o := if t.pay ≠ 0 then 1 else 0
    if (q.waited n).contains o then some o else none
/-- R208, R275: an OMERGE that selects late finds no token of the firing's round at the operand it selects: it and what executes after it
in the firing wait (log 85). -/
def lateStuck (q : Quad) (f : Firing) (n : Nat) : Bool :=
  match q.lateOperand f n with
  | some o => !(q.headValue n o).any fun t => t.tag % 16 == f.tag % 16
  | none => false
/-- R208, R275: it takes that token as it executes; the LEM of what follows in the firing is of the tokens taken in fact. -/
def lateTake (q : Quad) (f : Firing) (n : Nat) : Quad × Firing :=
  match q.lateOperand f n with
  | some o =>
    match q.headValue n o with
    | some t => (q.takeTok n o, { f with taken := f.taken ++ [(opKey n o, t)], lem := (f.taken.any fun (_, x) => x.lem) || t.lem })
    | none => (q, f)
  | none => (q, f)

/-- R185, R196 to R213: slot n executes at ac u for a value firing. -/
def execValue (q : Quad) (f : Firing) (n u : Nat) : Quad × Firing :=
  let s := q.slot n
  let w := q.word n
  let st := q.op n
  let at' (o : Nat) : Tok := (q.operandTok f n o).getD ⟨0, f.tag, false, false⟩
  let pay (o : Nat) : Nat := (at' o).pay
  let lat := opLat s.op
  let lem := if irregular s.op then q.opLem f n else f.lem
  let tok (v : Nat) : Tok := ⟨v, f.tag, lem, false⟩
  let both (r : Quad) (v : Nat) : Quad × Firing := r.deliver f n (u + lat) (fun _ => true) (tok v)
  let fi := CfgWord.inf w
  if !q.executes f n then (q, f)
  else match s.op with
    | 0x20 =>
      let q1 := q.setOp n fun st =>
        { st with step := some ⟨st.kb, st.sa, st.sb, [at' 0], [at' 1], none, 2, some (u + 3), u + 1⟩ }
      both q1 (if s.mode % 2 = 0 then pay 0 else pay 1)
    | 0x21 =>
      let q1 := q.setOp n fun st =>
        { st with step := some ⟨st.kb, st.sa, st.sb, [at' 0], [at' 1], some (at' 2), 0, none, u + 1⟩ }
      both q1 (pay 1)
    | 0x22 =>
      both (q.setOp s.imm fun st => { st with sa := fieldsOf 8 64 (pay 0), sb := fieldsOf 8 64 (pay 1) }) (pay 0)
    | 0x23 =>
      let m := q.op s.imm
      let r := mrdResult s w (accFmt (CfgWord.inf (q.word s.imm))) m.acc
      both (if s.mode / 2 % 2 = 1 then q.setOp s.imm clearAcc else q) r
    | 0x24 =>
      let q1 := q.setOp s.imm fun st =>
        let c := clearAcc st
        if s.mode % 2 = 1 then { c with sa := List.replicate 64 0, sb := List.replicate 64 0 } else c
      both q1 (pay 0)
    | 0x28 => both q (if s.pl then reduceCtl s.op w (pay 0) else reduceData s w (pay 0))
    | 0x29 => both q (if s.pl then reduceCtl s.op w (pay 0) else reduceData s w (pay 0))
    | 0x2A => both q (if s.pl then reduceCtl s.op w (pay 0) else reduceData s w (pay 0))
    | 0x2B =>
      (q.setOp n fun st => { st with acc := accStep w st.acc (pay 0), cnt := st.cnt + 1, lem := st.lem || lem }, f)
    | 0x2C =>
      let (v, c) := scanStep w st.carry (pay 0)
      both (q.setOp n fun st => { st with carry := c }) v
    | 0x30 => both q (moveLanes s w (pay 0) (pay 1))
    | 0x31 => both q (moveLanes s w (pay 0) (pay 1))
    | 0x32 => both q (moveLanes s w (pay 0) 0)
    | 0x33 => both q (moveLanes s w (pay 0) 0)
    | 0x34 => both q (extractLane s w (pay 0))
    | 0x38 =>
      let toA := (pay 1 != 0) != (s.mode % 2 == 1)
      q.deliver f n (u + lat) (fun k => (k == 0) == toA) (tok (pay 0))
    | 0x39 => both q (if (q.operandTok f n 0).isSome then pay 0 else pay 1)
    | 0x3A => both q (if pay 2 ≠ 0 then pay 1 else pay 0)
    | 0x3B => if (pay 1 != 0) != (s.mode % 2 == 1) then both q (pay 0) else (q, f)
    | 0x3C => (q.setOp n fun st => { st with cnt := st.cnt + 1, lem := st.lem || lem }, f)
    | 0x3D =>
      let t : Tok := (q.operandTok f n 0).getD (tok 0)
      let out : Tok := ((st.line.head?).getD none).getD ⟨0, t.tag, false, false⟩
      let q1 := q.setOp n fun st => { st with line := st.line.drop 1 ++ [some t] }
      (q1.enqueue n (u + lat - 1) [out], f)
    | 0x3E => both q (constPayload s w)
    | 0x3F =>
      let nx := (st.x + s.mode) % 2 ^ 64
      both (q.setOp n fun st => { st with x := if s.imm ≠ 0 ∧ s.imm ≤ nx then 0 else nx }) st.x
    | 0x40 =>
      let t : Tok := (q.operandTok f n 0).getD (tok 0)
      let (q1, f1) := q.deliver f n (u + lat) (fun _ => true) t
      if (if s.pl then isStop t.pay else t.lem) then q1.deliver f1 n (u + lat + 1) (fun _ => true) (markerTok t.tag)
      else (q1, f1)
    | 0x48 =>
      let b := pay 0
      let e := pay 1
      let stop := isStop b || isStop e
      let lvl := if stop then
          min 15 (max (if isStop b then b % 16 else 0) (if isStop e then e % 16 else 0) + 1) else 0
      (q.setOp n fun st => { st with run := some ⟨b, b, e, 1, false, lvl, stop, f.tag, lem⟩ }, f)
    | 0x49 =>
      let b := pay 0
      let e := pay 1
      let stop := isStop b || isStop e
      let lvl := if stop then
          min 15 (max (if isStop b then b % 16 else 0) (if isStop e then e % 16 else 0) + 1) else 0
      (q.setOp n fun st => { st with run := some ⟨b, b, e, s.imm, true, lvl, stop, f.tag, lem⟩ }, f)
    | 0x4A =>
      let ((a, b), na, nb) := q.coordHeads f n
      let (out, oa, ob) := coordResult true (s.mode.testBit 0) st a b na nb
      let q1 := q.setOp n fun st => { st with ordA := oa, ordB := ob }
      (match out with | some v => q1.enqueue n (u + lat - 1) [tok v] | none => q1, f)
    | 0x4B =>
      let ((a, b), na, nb) := q.coordHeads f n
      let (out, oa, ob) := coordResult false (s.mode.testBit 0) st a b na nb
      let q1 := q.setOp n fun st => { st with ordA := oa, ordB := ob }
      (match out with | some v => q1.enqueue n (u + lat - 1) [tok v] | none => q1, f)
    | 0x4C => both q (ctlOp s (pay 0) (pay 1) 0)
    | 0x4D =>
      let xs := lanesOf fi (pay 0)
      let ms := lanesOf fi (pay 1)
      let kept := ((xs.zip ms).filter fun (_, m) => m != 0).map (·.1)
      let (full, rest) := cutTokens fi.lanes 2 (st.pend ++ kept)
      let k := full.length
      let ends := lem && !kept.isEmpty
      let toks := (numbered 0 full).map fun (i, l) =>
        (⟨ofLanes fi l, f.tag, (st.lem && i == 0) || (ends && rest.isEmpty && i + 1 == k), false⟩ : Tok)
      let q1 := q.setOp n fun st => { st with pend := rest, lem := (st.lem && k == 0) || (ends && !rest.isEmpty) }
      (q1.enqueue n (u + lat - 1) toks, f)
    | 0x50 => both q (ctlOp s (pay 0) (pay 1) 0)
    | 0x51 => both q (ctlOp s (pay 0) (pay 1) (pay 2))
    | _ => both q (elementwise s w (pay 0) (pay 1) (pay 2))

/-- R214, R277: slot n passes the marker of tag t at ac u: its marker action, its snapshot, and the marker behind. -/
def execMarker (q : Quad) (f : Firing) (n u t : Nat) : Quad × Firing :=
  let s := q.slot n
  let w := q.word n
  let st := q.op n
  let lat := opLat s.op
  let mk := markerTok t
  let ready := u + lat - 1
  let last (xs : List Nat) : List Tok :=
    (numbered 0 xs).map fun (i, v) => ⟨v, t, st.lem && i + 1 == xs.length, false⟩
  let q1 : Quad :=
    match s.op with
    | 0x2B =>
      let outs := if st.cnt = 0 then [] else last (accEmit w st.acc)
      let q1 := q.enqueue n ready outs
      q1.setOp n fun st => { st with
        acc := st.acc.map (fun _ => 0)
        cnt := 0
        lem := false }
    | 0x2C => q.setOp n fun st => { st with carry := 0 }
    | 0x3C =>
      let q1 := q.enqueue n ready (last [st.cnt % 2 ^ 64])
      q1.setOp n fun st => { st with cnt := 0, lem := false }
    | 0x4A => q.setOp n fun st => { st with ordA := 0, ordB := 0 }
    | 0x4B => q.setOp n fun st => { st with ordA := 0, ordB := 0 }
    | 0x4D =>
      let fi := CfgWord.inf w
      let q1 := if st.pend.isEmpty then q else q.enqueue n ready (last [ofLanes fi st.pend])
      q1.setOp n fun st => { st with pend := [], lem := false }
    | 0x3D =>
      let out : Tok := ((st.line.head?).getD none).getD ⟨0, t, false, false⟩
      let q1 := q.setOp n fun st => { st with line := st.line.drop 1 ++ [some mk] }
      q1.enqueue n ready [out]
    | _ => q
  let q2 := { q1 with snaps := ⟨t, n, q1.op n⟩ :: q1.snaps, passedMark := (n, t) :: q1.passedMark }
  if s.op = 0x3E ∨ s.op = 0x3F ∨ s.op = 0x3D then (q2, f)
  else if irregular s.op then (q2.enqueue n ready [mk], f)
  else q2.deliver f n (u + lat) (fun _ => true) mk

/-- R200 to R204: a matrix step lands on the state as it stands. -/
def landStep (q : Quad) (n : Nat) (p : MatStep) : Quad :=
  let s := q.slot n
  let w := q.word n
  let fa := CfgWord.inf w
  let fb := CfgWord.bf w
  let ftz := (CfgWord.mods w).ftz
  let k := kDepth fa
  let (rows, cols, d) :=
    if s.op = 0x20 then
      ((matRows fa ftz k (((p.aToks.head?).map (·.pay)).getD 0)).map (·.map some), matRows fb ftz k (((p.bToks.head?).map (·.pay)).getD 0), k)
    else
      let (r, c) := mms4Operands w s.mode (p.aToks.map (·.pay)) (p.bToks.map (·.pay)) ((p.metaTok.map (·.pay)).getD 0)
      (r, c, 3 * k)
  q.setOp n fun st => { st with
    acc := matStep w st.acc p.sa p.sb p.kb rows cols
    kb := (st.kb + d) % 2 ^ 32
    step := none }

end Quad

/-- A pending piece of work: an execution of a firing's slot, or a landing. -/
inductive Due where
  | exec (firing : Nat) (slot : Nat)
  | land (slot : Nat)
  deriving DecidableEq, Repr

/-- R204: the order of slots that execute in one ac. A matrix step comes before an MRD, so before the clear of one with clr (DEDUCED, log 111). -/
def execRank (op : Nat) : Nat := if op = 0x22 then 0 else if op = 0x24 then 1 else if op = 0x23 then 3 else 2

namespace Quad

/-- The executions to come, with their times: 8 * ac + rank; a landing at the end of ac v stands at 8 * v + 4. -/
def pendingExecs (q : Quad) : List (Nat × Due) :=
  ((numbered 0 q.firings).flatMap fun (i, f) =>
      f.todo.map fun n => (8 * (f.ac + (q.slot n).dly) + execRank (q.slot n).op, Due.exec i n))

def pendingLands (q : Quad) : List (Nat × Due) :=
  ((numbered 0 q.ops).filterMap fun (n, st) => (st.step.bind (·.land)).map fun v => (8 * v + 4, Due.land n))

/-- The earliest of timed items. -/
def earliest : List (Nat × Due) → Option (Nat × Due)
  | [] => none
  | x :: xs =>
    match earliest xs with
    | none => some x
    | some y => if x.1 ≤ y.1 then some x else some y

/-- One piece of work is done. -/
def runDue (q : Quad) : Due → Quad
  | .land n =>
    match (q.op n).step with
    | some p => q.landStep n p
    | none => q
  | .exec i n =>
    match q.firings[i]? with
    | none => q
    | some f =>
      let u := f.ac + (q.slot n).dly
      let f0 := { f with todo := f.todo.filter (· != n) }
      let (q1, f1) :=
        match f.marker with
        | none => let (q0, f1) := q.lateTake f0 n; q0.execValue f1 n u
        | some t => q.execMarker f0 n u t
      { q1 with
        firings := if f1.todo.isEmpty then ldel i q1.firings else lmod i (fun _ => f1) q1.firings
        busyAc := max q1.busyAc u }

/-- R204, R214: an execution that reads or writes the state of a matrix slot, or takes its snapshot. -/
def matrixDue (q : Quad) : Due → Bool
  | .exec _ n => decide (0x20 ≤ (q.slot n).op) && decide ((q.slot n).op ≤ 0x24)
  | .land _ => false
/-- An execution that waits for a token which an OMERGE of its firing selects late. -/
def stuck (q : Quad) : Due → Bool
  | .exec i n =>
    match q.firings[i]? with
    | some f => f.marker.isNone && f.todo.any fun m => decide ((q.slot m).dly ≤ (q.slot n).dly) && q.lateStuck f m
    | none => false
  | .land _ => false

/-- The executions that are due before time limit (8 * ac); under early those of the ac that begins there too, but for those that touch a
matrix slot's state, which wait for the companions of that ac (R204). -/
def dueExecs (q : Quad) (limit : Nat) (early : Bool) : List (Nat × Due) :=
  q.pendingExecs.filter fun (t, d) => (decide (t < limit) || (early && decide (t < limit + 8) && !q.matrixDue d)) && !q.stuck d

/-- R278: a marker of a round waits in the emission queue of a slot that feeds an output port; one that leaves a DELAY line is not sent
before it leaves. -/
def queuedOut (q : Quad) (r : Nat) : Bool :=
  (numbered 0 q.ops).any fun (n, st) =>
    (q.slot n).op != 0x3D && ((q.slot n).links n).any (·.dst == 127)
      && st.queue.any fun e => e.tok.isMarker && e.tok.tag == r

/-- R278: whether the oldest incomplete cut is complete, with the homes told of the one before. -/
def cutReady (q : Quad) : Bool :=
  let c := q.cuts
  let mt0 := (List.range q.slots.length).filter fun n => !(q.slot n).mt
  q.cutTold && q.blk.isSome && !q.frozen && !(q.spoiled.any fun x => x.round == c) && !q.queuedOut c
    && mt0.all (fun n => q.passedMark.contains (n, c))
    && !(q.outMarks.any fun (r, _) => r == c)
    && (!mt0.isEmpty || q.outDone.contains c)

/-- R278: the cut completes: it replaces the last one, and the count advances. -/
def tryCut (q : Quad) (now : Nat) : Quad :=
  if q.cutReady then
    let c := q.cuts
    { q with
      lastCut := some ⟨c, q.snaps.filter (·.round == c), q.entries.filter (·.round == c)⟩
      cuts := c + 1, cutAc := now, cutTold := false
      snaps := q.snaps.filter (·.round != c)
      entries := q.entries.filter (·.round != c)
      passedMark := q.passedMark.filter fun (_, r) => r != c
      marks := q.marks.filter fun (r, _) => r != c
      inside := q.inside.filter fun (r, _) => r != c
      came := q.came.filter fun (_, t, _) => t.tag != c
      outDone := q.outDone.filter (· != c) }
  else q

/-- Executes what is due, in order; a step that must land before such an execution lands, and a cut that an execution completes is counted in
its ac (R278). Nothing executes in a frozen region (R339). -/
def settleTo (limit : Nat) (early : Bool) : Nat → Quad → Quad
  | 0, q => q
  | fuel + 1, q =>
    match if q.frozen then none else earliest (q.dueExecs limit early) with
    | none => q
    | some (t, d) =>
      match earliest (q.pendingLands.filter fun x => decide (x.1 < t)) with
      | some (_, l) => settleTo limit early fuel (q.runDue l)
      | none => settleTo limit early fuel ((q.runDue d).tryCut (t / 8))

/-- The work in hand, as a bound on what settling does. -/
def workBound (q : Quad) : Nat := 2 * q.pendingExecs.length + q.pendingLands.length + 1

/-- Executions of every ac before now. -/
def settleBefore (q : Quad) (now : Nat) : Quad := q.settleTo (8 * now) false q.workBound
/-- Executions of every ac up to now, but for those of now that touch a matrix slot's state. -/
def settle (q : Quad) (now : Nat) : Quad := q.settleTo (8 * now) true q.workBound
/-- Every execution in hand, whatever its ac: what the firings under way will send. -/
def settleAll (q : Quad) : Quad := q.settleTo (8 * (q.busyAc + 2 ^ 70)) false q.workBound

/-- R278: roundid: the cuts completed, modulo 16, as it reads from the ac after a completion. -/
def roundId (q : Quad) (now : Nat) : Nat :=
  (if 0 < q.cuts ∧ q.cutAc = now then q.cuts - 1 else q.cuts) % 16

/-- Firing is allowed in RUN and in DRAINING, and not while the region is frozen (R222, R225, R339). -/
def live (q : Quad) : Bool := (q.st == .run || q.st == .draining) && !q.frozen

/-- R185, R277: the group has fired in ac now. -/
def firedNow (q : Quad) (now g : Nat) : Bool := q.firedAt.any fun (k, u) => k == g && u == now

/-- R273 item 3 for irregular slots: a free place in each emission queue. -/
def queuesFree (q : Quad) (g : Nat) : Bool :=
  (q.members g).all fun n =>
    !irregular (q.slot n).op ||
      decide ((q.op n).queue.length + (q.firings.filter fun f => f.todo.contains n).length < 4)

/-- Slots in the order of their DLY. -/
def byDelay (q : Quad) (ns : List Nat) : List Nat :=
  ns.foldl (fun l n => l.takeWhile (fun m => decide ((q.slot m).dly ≤ (q.slot n).dly)) ++ n :: l.dropWhile fun m => decide ((q.slot m).dly ≤ (q.slot n).dly)) []
/-- R204: the steps in hand that land before a time are landed. -/
def landBefore (q : Quad) (t : Nat) : Nat → Quad
  | 0 => q
  | fuel + 1 =>
    match earliest (q.pendingLands.filter fun x => decide (x.1 < t)) with
    | some (_, d) => (q.runDue d).landBefore t fuel
    | none => q
/-- R208: the tokens that the OMERGE slots of a group will take which select late, as far as the executions and steps in hand tell; none
while a selected operand holds no token of the firing's round, so that the group is held. The slots stand in the order of their DLY. -/
def latePicks (q : Quad) (f : Firing) : List Nat → Option (List (Nat × Tok))
  | [] => some []
  | n :: ns =>
    let u := f.ac + (q.slot n).dly
    let q := q.landBefore (8 * u + execRank (q.slot n).op) q.ops.length
    if q.lateStuck f n then none
    else
      let (q1, f1) := q.lateTake f n
      let (q2, f2) := q1.execValue f1 n u
      (q2.latePicks f2 ns).map (f1.taken.drop f.taken.length ++ ·)
/-- The tokens that picks take. -/
def pickToks (q : Quad) (ps : List (Nat × Nat × Nat)) : List (Nat × Tok) :=
  ps.flatMap fun (n, o, k) => ((q.buffered n o).take k).map fun t => (opKey n o, t)
/-- R208: the tokens that OMERGE slots of a firing of a group in ac now will take as they execute; none while they hold the group. -/
def lateToks (q : Quad) (now g : Nat) (ps : List (Nat × Nat × Nat)) : Option (List (Nat × Tok)) :=
  let ms := q.members g
  if !ms.any q.selectsLate then some []
  else
    let toks := q.pickToks ps
    let f : Firing := ⟨g, now, none, ((toks.head?).map (·.2.tag)).getD 0, toks.any fun (_, t) => t.lem, toks, [], [], ms⟩
    q.settleAll.latePicks f (q.byDelay ms)
/-- R208: a token is to enter an empty operand of a slot in this ac, before the groups of this ac fire. -/
def entersNow (q : Quad) (now n o : Nat) : Bool :=
  match q.portOf n o with
  | some p => (q.port p).q.isEmpty && (q.port p).incoming.any fun x => decide (x.due ≤ now)
  | none => (q.buf (opKey n o)).isEmpty && q.links.any fun t => t.dst == .buf (opKey n o) && decide (t.due ≤ now)
/-- R208: a MERGE that would take in1 while a token of in0 arrives in the same ac. -/
def mergeEarly (q : Quad) (now : Nat) (ps : List (Nat × Nat × Nat)) : Bool :=
  ps.any fun (n, o, _) => (q.slot n).op == 0x39 && o == 1 && (q.waited n).contains 0 && q.entersNow now n 0
/-- R273 item 1, R208: what a firing of a group in ac now takes at once; none while it is held. -/
def firingPicks (q : Quad) (now g : Nat) : Option (List (Nat × Nat × Nat)) :=
  match q.groupPicks (q.members g) with
  | none => none
  | some ps => if q.mergeEarly now ps || (q.lateToks now g ps).isNone then none else some ps
/-- R275: the LEM of a firing that takes some tokens: of these, and of those that an OMERGE is to take. -/
def firingLem (q : Quad) (now g : Nat) (ps : List (Nat × Nat × Nat)) : Bool :=
  ((q.pickToks ps ++ (q.lateToks now g ps).getD []).any fun (_, t) => t.lem)

/-- R273: group g takes its head tokens in ac now; none while it is not ready, credits apart. -/
def takeValue (q : Quad) (now g : Nat) : Option Quad :=
  let ms := q.members g
  match q.firingPicks now g with
  | none => none
  | some ps =>
    let toks := q.pickToks ps
    let seen := ms.flatMap fun n => [0, 1].filterMap fun o =>
      if (q.slot n).op = 0x4A ∨ (q.slot n).op = 0x4B then (q.headTok n o).map fun t => (opKey n o, t) else none
    match toks with
    | [] => none
    | (_, t0) :: _ =>
      if !(toks.all fun (_, t) => t.tag % 16 == t0.tag % 16) || q.groupBusy g || !q.queuesFree g || !q.live || q.firedNow now g then none
      else
        let q1 := ps.foldl (fun q (n, o, k) => q.takeMany n o k) q
        some { q1 with
          firings := q1.firings ++ [⟨g, now, none, t0.tag, q.firingLem now g ps, toks, seen, [], ms⟩]
          firedAt := aset g now q1.firedAt
          busyAc := now }

/-- R273: the value firing of a group: taken only where every destination has a credit for what the firing will send. -/
def fireValue (q : Quad) (now g : Nat) : Option Quad :=
  match q.takeValue now g with
  | none => none
  | some q1 => if q1.settleAll.withinCredit then some q1 else none

/-- R277: the operands whose markers a group's marker firing takes. -/
def markerKeys (q : Quad) (g : Nat) : List (Nat × Nat) :=
  ((q.members g).filter fun n => !(q.slot n).mt).flatMap fun n => (q.waited n).map fun o => (n, o)

/-- R277, R278: group g takes the marker of its round from every operand its MT = 0 slots wait on. -/
def takeMarker (q : Quad) (now g : Nat) : Option Quad :=
  let ks := q.markerKeys g
  let heads := ks.map fun (n, o) => q.headTok n o
  match heads with
  | some t0 :: _ =>
    if !(heads.all fun h => match h with | some t => t.isMarker && t.tag % 16 == t0.tag % 16 | none => false)
        || q.groupBusy g || !q.queuesFree g || !q.live || q.firedNow now g || decide (q.cuts + 2 ≤ t0.tag) then none
    else
      let q1 := ks.foldl (fun q (n, o) => q.takeTok n o) q
      some { q1 with
        firings := q1.firings ++
          [⟨g, now, some t0.tag, t0.tag, false, [], [], [], (q.members g).filter fun n => !(q.slot n).mt⟩]
        firedAt := aset g now q1.firedAt
        busyAc := now }
  | _ => none

/-- R277: the marker firing of a group. -/
def fireMarker (q : Quad) (now g : Nat) : Option Quad :=
  match q.takeMarker now g with
  | none => none
  | some q1 => if q1.settleAll.withinCredit then some q1 else none

end Quad

/-- R277: an MT = 1 slot has passed a marker, of which operand o is still to take its own. -/
def OpState.hasPassed (st : OpState) (tag o : Nat) : Bool := st.passed.any fun (t, os) => t == tag && !os.contains o
/-- Operand o takes its marker of a tag; the entry goes once each of the operands has. -/
def OpState.takesMark (st : OpState) (tag o : Nat) (waited : List Nat) : OpState :=
  let os := o :: if st.hasPassed tag o then ((st.passed.find? fun (t, _) => t == tag).map (·.2)).getD [] else []
  let rest := st.passed.filter fun (t, _) => t != tag
  { st with passed := if waited.all os.contains then rest else (tag, os) :: rest }

namespace Quad

/-- R277, R278: an MT = 1 slot takes the marker at the head of operand o: the first of its round is sent on, unless it is past the next
round to complete, and a later one is discarded. -/
def markerThrough (q : Quad) (now n o : Nat) : Option Quad :=
  let s := q.slot n
  match q.headTok n o with
  | none => none
  | some t =>
    if !t.isMarker || !s.mt || !q.live || !(q.waited n).contains o then none
    else
      let q1 := (q.takeTok n o).setOp n fun st => st.takesMark t.tag o (q.waited n)
      if (q.op n).hasPassed t.tag o then some { q1 with busyAc := now }
      else if q.cuts + 2 ≤ t.tag then none
      else
        let dummy : Firing := ⟨0, now, none, t.tag, false, [], [], [], []⟩
        let q2 := (q1.deliver dummy n (now + opLat s.op) (fun _ => true) (markerTok t.tag)).1
        if q2.withinCredit then some { q2 with busyAc := now } else none

/-- R202: an MMS4 slot takes phase 1 or 2 of its step, in an ac after that of the phase before. The B token that it forwards carries that token's
LEM alone, also where an A token is taken with it (DEDUCED, log 106). -/
def mms4Phase (q : Quad) (now n : Nat) : Option Quad :=
  let s := q.slot n
  match (q.op n).step with
  | none => none
  | some p =>
    if s.op ≠ 0x21 ∨ p.land.isSome ∨ q.frozen ∨ now < p.nextAt then none
    else
      let needA := p.phase = 0 ∧ mms4N s.mode = 12
      match q.headValue n 1, (if needA then q.headValue n 0 else some default) with
      | some b, some a =>
        let q1 := if needA then (q.takeTok n 1).takeTok n 0 else q.takeTok n 1
        let p' : MatStep := { p with
          bToks := p.bToks ++ [b]
          aToks := if needA then p.aToks ++ [a] else p.aToks
          phase := p.phase + 1
          nextAt := now + 1
          land := if p.phase = 1 then some (now + if mms4N s.mode = 12 then 3 else 1) else none }
        let q2 := q1.setOp n fun st => { st with step := some p' }
        let dummy : Firing := ⟨0, now, none, b.tag, false, [], [], [], []⟩
        let q3 := (q2.deliver dummy n (now + 1) (fun _ => true) ⟨b.pay, b.tag, b.lem, false⟩).1
        if q3.withinCredit then some { q3 with busyAc := now } else none
      | _, _ => none

/-- R201, R202, R204: the step of slot n lands once its last ac is over. -/
def matrixLand (q : Quad) (now n : Nat) : Option Quad :=
  match (q.op n).step with
  | none => none
  | some p =>
    match p.land with
    | some v => if v < now && !q.frozen then some { q.landStep n p with busyAc := max q.busyAc v } else none
    | none => none

/-- R211: the next token of a run and the run that stays. -/
def runNext (r : LoopRun) : Nat × Option LoopRun :=
  if r.onlyStop || decide (r.stop ≤ r.next) then (2 ^ 63 + r.level, none)
  else if r.tiles then
    (r.next % 2 ^ 48 + min r.step (r.stop - r.next) * 2 ^ 48, some { r with next := r.next + r.step })
  else (r.next, some { r with next := r.next + 1 })

/-- R211, R273, R277, R284: an irregular slot emits its next token, one an ac, against a credit of every consumer: what stands in its
emission queue ahead of a run that has begun since. -/
def irregularEmit (q : Quad) (now n : Nat) : Option Quad :=
  let st := q.op n
  let dummy : Firing := ⟨0, now, none, 0, false, [], [], [], []⟩
  if now < st.emitFrom ∨ q.frozen then none
  else
    match st.queue with
    | e :: rest =>
      if now < e.ready then none
      else
        let q1 := q.setOp n fun st => { st with queue := rest, emitFrom := now + 1 }
        let q2 := (q1.deliver dummy n (now + 1) (fun _ => true) e.tok).1
        if q2.withinCredit then some { q2 with busyAc := now } else none
    | [] =>
      match st.run with
      | none => none
      | some r =>
        let (v, r') := runNext r
        let q1 := q.setOp n fun st => { st with run := r', emitFrom := now + 1 }
        let q2 := (q1.deliver dummy n (now + 1) (fun _ => true) ⟨v, r.tag, r.lem && r'.isNone, false⟩).1
        if q2.withinCredit then some { q2 with busyAc := now } else none

/-- Whether a token may enter its destination before transit k: one sent earlier to the same place, not later due. -/
def overtaken (q : Quad) (k : Nat) (t : Transit) : Bool :=
  (numbered 0 q.links).any fun (j, x) => x.dst == t.dst && (decide (x.due < t.due) || (x.due == t.due && decide (j < k)))

/-- R271, R278: token k in transit enters its buffer or port, once due and with a place free. bound tells whether a stream
is bound to an output port. -/
def bufferEntry (q : Quad) (now k : Nat) (bound : Nat → Bool) : Option Quad :=
  match q.links[k]? with
  | none => none
  | some t =>
    if now < t.due || q.overtaken k t || q.frozen then none
    else
      let q0 := { q with links := ldel k q.links, busyAc := now }
      match t.dst with
      | .buf key =>
        if q.capacity t.dst ≤ (q.buf key).length then none
        else some { q0 with bufs := amod [] key (· ++ [t.tok]) q0.bufs }
      | .out p =>
        if q.capacity t.dst ≤ (q.outPort p).length then none
        else
          let q1 := { q0 with outPorts := amod [] p (· ++ [(t.tok, t.rep)]) q0.outPorts }
          if t.tok.isMarker && !bound p then
            some { q1 with outMarks := lrem (t.tok.tag, p) q1.outMarks, outDone := t.tok.tag :: q1.outDone }
          else some q1

/-- R276: a token enters input port p: a value takes TAG = PR; a marker takes it too and advances PR, whose low four bits are the
hardware's. -/
def enterPort (ip : InPort) (t : Tok) : InPort :=
  { ip with q := ip.q ++ [{ t with tag := ip.pr }], pr := if t.isMarker then ip.pr + 1 else ip.pr }

/-- R274, R281: an input port grants a credit: a free place, counting tokens on their way, while the region takes tokens. -/
def portRoom (q : Quad) (p : Nat) : Bool :=
  let ip := q.port p
  q.mapsIn p && decide (ip.q.length + ip.incoming.length < 8) && q.st != .draining && q.st != .drained && !q.frozen

/-- R281: the engine sends a token with n elements of the command src to an input port; it enters in the ac after. -/
def sendToPort (q : Quad) (now p : Nat) (t : Tok) (src : Nat × Nat) (n : Nat) : Quad :=
  { q with
    inPorts := amod {} p (fun ip => { ip with incoming := ip.incoming ++ [⟨now + 1, t, src, n, false⟩] }) q.inPorts
    busyAc := now }
/-- R176: a token that has come over the fabric enters an input port. -/
def enterRemote (q : Quad) (now p : Nat) (t : Tok) : Quad :=
  { q with
    inPorts := amod {} p (enterPort · t) q.inPorts
    busyAc := now }

/-- R276: the first token on its way to port p enters it. -/
def portEntry (q : Quad) (now p : Nat) : Option Quad :=
  let ip := q.port p
  match ip.incoming with
  | [] => none
  | x :: rest =>
    if now < x.due ∨ 8 ≤ ip.q.length ∨ q.frozen then none
    else some { q with inPorts := aset p (enterPort { ip with incoming := rest } x.tok) q.inPorts, busyAc := now }

/-- R266: a bare last-element marker at the head of port p is removed. -/
def bareDiscard (q : Quad) (p : Nat) : Option Quad :=
  let ip := q.port p
  match ip.q with
  | t :: rest => if t.isBare && !q.frozen then some { q with inPorts := aset p { ip with q := rest, taken := [] } q.inPorts } else none
  | [] => none

/-- R270, R339: what a stream finds in an output port; nothing leaves a frozen region. -/
def outHeads (q : Quad) (p : Nat) : List (Tok × Bool) := if q.frozen then [] else q.outPort p

/-- R223, R270: the head of an output port was left there by an earlier configuration. -/
def leftOver (q : Quad) (p : Nat) : Bool := decide (0 < aget 0 p q.earlier)
/-- R278: the round that the head of output port p belongs to; a home reads the tag of a token which an earlier configuration left as a round
from C on (DEDUCED, log 107). -/
def roundOf (q : Quad) (p tag : Nat) : Nat := if q.leftOver p then q.cuts + (tag + 16 - q.cuts % 16) % 16 else tag
/-- R278: a marker of an open round that is counted as sent to output port p. -/
def awaited (q : Quad) (p r : Nat) : Bool := !q.leftOver p && q.outMarks.contains (r, p)
/-- R270, R279: the token at the head of an output port leaves it for the bound stream. -/
def popOut (q : Quad) (p : Nat) : Quad :=
  match q.outPort p with
  | [] => q
  | (t, _) :: rest =>
    let q1 := { q with outPorts := aset p rest q.outPorts, earlier := if q.leftOver p then amod 0 p (· - 1) q.earlier else q.earlier }
    if t.isMarker && q.awaited p t.tag then { q1 with outMarks := lrem (t.tag, p) q1.outMarks, outDone := t.tag :: q1.outDone } else q1

/-- R464: how far the edge that takes from output port p has come. -/
def edgeAt (q : Quad) (p : Nat) : EdgeAt := aget {} p q.edges
/-- R338 item 5: the head of output port p has been passed on before a rollback. -/
def edgePassed (q : Quad) (p : Nat) : Bool := !q.leftOver p && decide ((q.edgeAt p).cursor < (q.edgeAt p).given)
/-- R464, R279: the stream of an edge takes the head t of output port p. -/
def edgeTake (q : Quad) (p : Nat) (t : Tok) : Quad :=
  let took (e : EdgeAt) : EdgeAt :=
    { cursor := e.cursor + 1
      given := max e.given (e.cursor + 1)
      marks := if t.isMarker then (t.tag, e.cursor + 1) :: e.marks.take 3 else e.marks }
  let q1 := q.popOut p
  if q.leftOver p then q1 else { q1 with edges := amod {} p took q1.edges }
/-- R338 item 5: the stream of an edge goes back to where it stood in the last complete cut. -/
def edgesBack (q : Quad) : List (Nat × EdgeAt) :=
  q.edges.map fun (p, e) => (p, { e with cursor :=
    (((q.lastCut.bind fun c => e.marks.find? fun (r, _) => decide (r ≤ c.round)).map (·.2)).getD 0) })

/-- R227, R339: a marker enters port p behind what is there or arrives in this ac, while the port has a place. -/
def appendMarker (q : Quad) (now p : Nat) : Option Quad :=
  let ip := q.port p
  if 8 ≤ ip.q.length + ip.incoming.length ∨ (ip.incoming.any fun x => decide (x.due ≤ now)) ∨ q.frozen then none
  else some { q with inPorts := aset p (enterPort ip (markerTok 0)) q.inPorts, busyAc := now }

/-- The groups of the region. -/
def groupIds (q : Quad) : List Nat := (q.groups.filterMap id).eraseDups

/-- Whether some group can make a value or a marker firing (R225, R280). -/
def canFire (q : Quad) (now : Nat) : Bool :=
  q.groupIds.any fun g => (q.fireValue now g).isSome || (q.fireMarker now g).isSome

/-- What a slot can do of itself, in whatever ac: an emission, a landing, a phase of a step, or the passing of a marker. -/
def canMove (q : Quad) (now : Nat) : Bool :=
  (numbered 0 q.ops).any fun (n, st) =>
    (q.irregularEmit (now + 2 ^ 40) n).isSome || (q.matrixLand (now + 2 ^ 40) n).isSome
      || (match st.step with | some p => p.land.isSome || (q.mms4Phase (now + 2 ^ 40) n).isSome | none => false)
      || (q.waited n).any fun o => (q.markerThrough now n o).isSome

/-- Tokens or markers on links, or on their way to a port (R280). -/
def inTransit (q : Quad) : Bool := !q.links.isEmpty || q.inPorts.any fun (_, ip) => !ip.incoming.isEmpty

/-- R280, R441: no token is in transit, no unit executes or can go on, no group is ready and no bare marker is to be removed; a step of MMS4
that waits for a phase, a run or an emission queue that waits for room, and an execution that waits for its token, rest. -/
def resting (q : Quad) (now : Nat) : Bool :=
  !q.inTransit && (numbered 0 q.firings).all (fun (i, f) => f.todo.all fun n => q.stuck (.exec i n)) && !q.canFire now && !q.canMove now && !q.inPorts.any fun (p, _) => (q.bareDiscard p).isSome
/-- R280: time goes on from an ac, and the last ac before the next one is last: the span in which the region has rested is noted, beside
those before it that the root of the tree still reports. -/
def lapse (q : Quad) (last : Nat) : Quad :=
  let r := q.settle last
  if r.resting last && decide (r.busyAc < last) then
    { q with rested := (r.busyAc + 1, last) :: q.rested.filter fun (a, b) => a != r.busyAc + 1 && decide (last ≤ b + 4) }
  else q
/-- R280: the quiescence tree's root, which reports four ac behind the state, has read zero in four consecutive ac. -/
def quiescent (q : Quad) (now : Nat) : Bool := q.rested.any fun (a, b) => decide (a + 7 ≤ now) && decide (now ≤ b + 4)
/-- R225: no step and no loop-header run is in progress. -/
def stepsDone (q : Quad) : Bool := q.ops.all fun st => st.step.isNone && st.run.isNone

/-- R226: tokens held in the input ports. -/
def portTokens (q : Quad) : Nat := (q.inPorts.map fun (_, ip) => ip.q.length).sum

end Quad

/-- R200, R207: the state of an operator slot at ACFG. -/
def OpState.atCfg (s : BSlot) (w : Nat) : OpState :=
  match s.op with
  | 0x20 => { acc := List.replicate 16 0, sa := List.replicate 64 0, sb := List.replicate 64 0 }
  | 0x21 => { acc := List.replicate 16 0, sa := List.replicate 64 0, sb := List.replicate 64 0 }
  | 0x2B => { acc := List.replicate (CfgWord.inf w).lanes 0 }
  | 0x3D => { line := List.replicate (s.imm % 16 + 1) none }
  | _ => {}

namespace Quad

/-- R223, R276, R285: the quadrant with block b loaded: a configuration period begins. -/
def load (b : Block) (now : Nat) : Quad :=
  { st := .loaded, blk := some b, copy := some b
    ops := (b.slots.zip b.words).map fun (s, w) => OpState.atCfg s w
    busyAc := now }

/-- R248: LOADED with its configuration, operator state as at ACFG, tokens discarded. -/
def resetToLoaded (q : Quad) (now : Nat) : Quad :=
  match q.blk with
  | some b => load b now
  | none => {}

/-- R223, R285: the load by CFG: results that rest in output ports stay there (R270). -/
def reload (q : Quad) (b : Block) (now : Nat) : Quad :=
  { load b now with outPorts := q.outPorts, earlier := q.outPorts.map fun (p, ts) => (p, ts.length) }

end Quad

/-- R338, R445: a snapshot as it is taken back: an emission queue is empty after a cut. -/
def OpState.afterCut (st : OpState) : OpState :=
  { st with
    queue := []
    emitFrom := 0
    step := none }

namespace Quad

/-- R341: a token of another slot's command, or of one that comes over the fabric, has entered input port p with its tag: should the region be
rolled back, it enters again, as if its sender had sent it again from the cut (DEDUCED, log 108). -/
def noteCame (q : Quad) (p : Nat) (t : Tok) (src : Nat × Nat) : Quad := { q with came := q.came ++ [(p, t, src)] }
/-- R285: a value token of a command has entered input port p in round r. -/
def noteInside (q : Quad) (r p : Nat) (src : Nat × Nat) : Quad :=
  if q.inside.contains (r, p, src) then q else { q with inside := (r, p, src) :: q.inside }
/-- R341: what enters port p again after a rollback in slot ctx: the tokens of other senders that had entered in an open round, then those
that were on their way. -/
def comeAgain (q : Quad) (ctx now p : Nat) : List Coming :=
  ((q.came.filter fun (k, _) => k == p).map fun (_, t, src) => ⟨now, t, src, 0, true⟩)
    ++ ((q.port p).incoming.filter fun x => x.again || x.src.1 != ctx).map fun x => { x with again := true }
/-- R338: back to a cut in slot ctx: tokens discarded, operator states from the snapshots, the counts of the cut kept. -/
def rollback (q : Quad) (ctx now : Nat) : Quad :=
  match q.copy with
  | none => q
  | some b =>
    let base := load b now
    let ports (pr : Nat) : List (Nat × InPort) :=
      (b.ports.filter (!·.dir)).foldl (fun l e => aset e.phys { pr := pr, incoming := q.comeAgain ctx now e.phys } l) []
    match q.lastCut with
    | none => { base with
        st := q.st, cuts := q.cuts, cutAc := q.cutAc, cutTold := q.cutTold, spoiled := q.spoiled, edges := q.edgesBack
        inPorts := ports 0 }
    | some c =>
      { base with
        st := q.st
        ops := (numbered 0 base.ops).map fun (n, st) =>
          match c.snaps.find? (·.slot == n) with
          | some s => s.st.afterCut
          | none => st
        cuts := q.cuts, cutAc := q.cutAc, cutTold := q.cutTold, lastCut := q.lastCut, spoiled := q.spoiled
        edges := q.edgesBack
        inPorts := ports (c.round + 1) }

end Quad

end Sys2Proof.Machine
end

