-- ==== Sys2Proof/Machine/Finish.lean ====
section
/-! DEFINITION. How granules are released, how a task leaves its slot, and how a record completes (spec/16 R378, R379, R393,
spec/17 R399, R405). -/

namespace Sys2Proof.Machine

/-! ### Granules (R397 to R399) -/

/-- The oldest of waiting requests (R363). -/
def oldestWaiter : List Waiter → Option Waiter
  | [] => none
  | w :: ws =>
    match oldestWaiter ws with
    | none => some w
    | some v => if older v.age w.age then some v else some w

/-- R399: a released granule goes to its oldest waiter; the younger ones wait on. An entry nobody holds or wants is freed. -/
def Lock.release (l : Lock) : Option Lock :=
  match oldestWaiter l.waiters with
  | none => none
  | some w => some { l with
      holder := some (w.age, w.ctx)
      commit := false
      wounded := false
      waiters := l.waiters.filter fun x => x.age != w.age }

/-- R399, R404: every granule that a task holds is released. -/
def State.releaseGranules (s : State) (age : Word) : State :=
  { s with locks := s.locks.filterMap fun l =>
      match l.holder with
      | some (a, _) => if a = age then l.release else some l
      | none => some l }

/-- R399: the waiting requests of a task, and those on their way, are withdrawn. -/
def State.withdrawWaits (s : State) (age : Word) : State :=
  { s with
    locks := s.locks.map fun l => { l with waiters := l.waiters.filter fun w => w.age != age }
    touches := s.touches.filter fun t => t.age != age }

/-! ### Deliveries to slots (R176, R378, R449) -/

/-- Whether a slot runs a task (R176). -/
def Slot.runs (l : Slot) : Bool := l.task.isSome && (l.stage == .running || l.stage == .gating)

/-- The tasks that wait at the dies with a slot they left. -/
def State.savedTasks (s : State) : List Waiting :=
  (s.dies.flatMap fun d => d.queues.flatten ++ d.drained).filter fun w => w.saved.isSome
/-- R449: the saved task that a slot is borrowed from: the one saved first. -/
def State.lender (s : State) (ctx : Nat) : Option Word :=
  let ws := s.savedTasks.filter fun w => w.left == ctx
  let first := ws.foldl (fun (b : Option Waiting) w =>
    match b with
    | none => some w
    | some v => if w.since < v.since then some w else some v) none
  first.map (·.task.age)

/-- R378, R449: an increment reaches a slot of this package: it is held for a borrowed slot, and dropped where no task runs. -/
def State.deliverCount (s : State) (ctx event : Nat) : State :=
  match s.lender ctx with
  | some age => { s with held := s.held ++ [(age, .count event)] }
  | none => if (s.slotAt ctx).runs then s.setCoreAt ctx (·.addEvent (Fin.ofNat 32 event) 1) else s

/-- R240: the event of a slot that an increment reaches was cleared or decremented in this ac, so the increment takes effect in a later one. -/
def State.countWaits (s : State) (ctx event : Nat) : Bool :=
  (s.lender ctx).isNone && (s.slotAt ctx).runs && (s.slotAt ctx).core.countedNow (s.acStart ctx) (2 ^ event)

/-! ### Endings (R378, R379) -/

/-- R151, R378: the parts of a remote word: V, PKG, OWN, and the slot's ctxid. -/
def remotePkg (w : Nat) : Nat := w / 2 ^ 50 % 1024
def remoteOwn (w : Nat) : Bool := w.testBit 49
def remoteCtx (w : Nat) : Nat := w / 2 ^ 38 % 1024 * 4 + w / 2 ^ 36 % 4
def State.isOwn (s : State) (w : Nat) : Bool := remoteOwn w || remotePkg w == s.pkgId
/-- R358, R467: another package can be reached. -/
def State.reaches (s : State) (pkg : Nat) : Bool := s.linked && !s.unreachable.contains pkg

/-- R378 item 2: a completion event word with V = 1 is carried out. -/
def State.completionEvent (s : State) (w : Nat) : State :=
  if !w.testBit 63 then s
  else if s.isOwn w then
    if s.countWaits (remoteCtx w) (w % 32) then { s with increments := s.increments ++ [BitVec.ofNat 64 w] }
    else s.deliverCount (remoteCtx w) (w % 32)
  else if s.reaches (remotePkg w) then { s with sent := s.sent ++ [.increment (BitVec.ofNat 64 w)] }
  else s

/-- R382: PROGRESS passes every entry whose record, and those of all entries before it, have completed. -/
def HostQueue.advance (q : HostQueue) : Nat → HostQueue
  | 0 => q
  | n + 1 =>
    if q.done.contains q.progress then
      HostQueue.advance { q with
        progress := (q.progress + 1) % 2 ^ 32
        done := q.done.filter (· != q.progress) } n
    else q

/-- R378: a record completes: DONE is written, the completion events are given, progress is advanced and MSI-X is sent. -/
def State.completeRecord (s : State) (pkt : Packet) (host : Option (Nat × Nat)) (word0 : Nat) : State :=
  let s := match host with
    | none => s
    | some (q, k) =>
      let hq := aget ({} : HostQueue) q s.hostQueues
      let at' := hq.ring + 256 * (k % 2 ^ hq.m) + 0xF0
      { s with mem := writeLE (writeLE s.mem at' 8 word0) (at' + 8) 8 s.stc }
  let s := (s.completionEvent pkt.comp0).completionEvent pkt.comp1
  match host with
  | none => s
  | some (q, k) =>
    let hq := aget ({} : HostQueue) q s.hostQueues
    let s := { s with hostQueues := aset q (HostQueue.advance { hq with done := k :: hq.done } (hq.done.length + 1)) s.hostQueues }
    if pkt.irq then { s with sent := s.sent ++ [.msix hq.vector] } else s

/-- R380: the number of tasks of a record. -/
def Packet.tasks (p : Packet) : Nat := p.dims.foldl (· * ·) 1

/-- R378, R347, R376: a task of a record has ended with a status; with its last one the record completes, its filter entries are
removed, and its barrier objects, which keep their values, can be granted to another (R436). -/
def State.taskEnded (s : State) (t : Task) (status : Nat) : State :=
  match s.records.find? fun (e, _) => e == t.epoch with
  | none => s
  | some (_, r) =>
    let r := { r with
      ended := r.ended + 1
      bad := if status = 0 then r.bad else r.bad + 1
      status := if status = 0 then r.status else
        match r.status with
        | none => some (t.ord, status)
        | some (o, x) => if t.ord < o then some (t.ord, status) else some (o, x) }
    if r.ended < r.pkt.tasks then { s with records := aset t.epoch r s.records }
    else
      let s := { s with
        records := adel t.epoch s.records
        routers := s.routers.filter fun e => !r.filters.contains e.fid }
      s.completeRecord r.pkt r.host
        (((r.status.map (·.2)).getD 0) % 65536 + min r.bad (2 ^ 32 - 1) * 65536)

/-! ### A task leaves its slot -/

/-- R452: the encode reservations of a task are freed. -/
def State.freeEncodes (s : State) (age : Word) : State :=
  { s with encodes := s.encodes.filter fun e => e.age != age }

/-- The notices that the fault service holds for a task are withdrawn. -/
def State.withdrawNotices (s : State) (age : Word) : State :=
  { s with notices := s.notices.filter fun n => n.age != age }

/-- R308, R393: the buffers of a slot's completed rounds are applied; its open ones, and its updates on their way, are discarded. -/
def State.dropUpdates (s : State) (ctx : Nat) : State :=
  let t := s.settleBuffers ctx
  { t with updates := t.updates.filter fun u => u.ctx != ctx }

/-- R248, R393: a windrow without its contents. -/
def Windrow.emptied (w : Windrow) : Windrow :=
  { w with
    free := w.count
    filled := 0
    wp := 0
    rp := 0
    wbits := 0
    rbits := 0 }
/-- R248: every command of a slot is discarded, and the contents of `chf`, `sts`, the `xi` FIFOs and the windrows. -/
def Slot.discard (l : Slot) : Slot :=
  { l with
    eng := { retired := l.eng.retired, finals := l.eng.finals, failed := l.eng.failed }
    queueA := []
    queueE := []
    array := none
    chain := { l.chain with cmd := none }
    channels := l.channels.map fun (h : Channel) => { h with cmd := none }
    core := { l.core with
      chf := []
      sts := []
      xi := Vector.replicate 4 []
      windrows := l.core.windrows.map fun (k, w) => (k, w.emptied) } }
/-- R262, R291, R436: the control core of a slot as a task leaves it: every result in flight has landed, and nothing waits to issue. -/
def Core.left (c : Core) : Core :=
  { c.landAll with
    arm := none
    bank := none
    ywait := none
    restamp := false
    woundHeld := false }
/-- R248, R393 item 5: a slot as a task leaves it: free, with its quadrant LOADED as at ACFG and its boundary empty (R421). Its registers,
its command statuses and its tile store keep their values until the next bind (R262, R291, R436, R389). -/
def Slot.vacate (l : Slot) (now : Nat) : Slot :=
  let d := l.discard
  { stage := .free
    core := d.core.left
    eng := d.eng
    ended := l.ended
    quad := l.quad.resetToLoaded now
    chain := { prog := l.chain.prog }
    store := l.store
    badWords := l.badWords }

/-- The tokens that a sender has on their way, or held for a saved task (R449), belong to another. -/
def State.resend (s : State) (a b : Nat) : State :=
  let f (r : Remote) : Remote := if r.src = a then { r with src := b } else r
  { s with
    remotes := s.remotes.map f
    held := s.held.map fun (age, h) => (age, match h with | .token r => .token (f r) | .count e => .count e) }
/-- Tokens on their way from a slot whose task has left it belong to no command (4096 names no slot). -/
def State.orphan (s : State) (ctx : Nat) : State := s.resend ctx 4096
/-- While a task is saved, its age names the sender of its tokens that are on their way. -/
def savedSender (age : Word) : Nat := 2 ^ 64 + age.toNat

/-- R378, R391: the task of a slot ends with a status, and the slot is free. -/
def State.endTask (s : State) (ctx : Nat) (status : Nat) : State :=
  match (s.slotAt ctx).task with
  | none => s
  | some t =>
    let s := (((s.freeEncodes t.age).withdrawNotices t.age).withdrawWaits t.age).orphan ctx
    let s := s.setSlot ctx fun l => l.vacate (s.acOf ctx)
    let s := { s with
      wounds := s.wounds.filter fun w => w.age != t.age
      held := s.held.filter fun (a, _) => a != t.age
      patches := s.patches.filter fun p => p.age != t.age }
    s.taskEnded t status

/-- A die without the waiting task of an age. -/
def Die.forget (d : Die) (age : Word) : Die :=
  { d with
    queues := d.queues.map fun q => q.filter fun x => x.task.age != age
    drained := d.drained.filter fun x => x.task.age != age }

/-- A task that waits at its die ends with a status (R391, R393). -/
def State.endWaiting (s : State) (w : Waiting) (status : Nat) : State :=
  let s := ((((s.freeEncodes w.task.age).withdrawNotices w.task.age).withdrawWaits w.task.age).releaseGranules w.task.age)
  let s := { s with
    dies := s.dies.map fun d : Die => Die.forget d w.task.age
    wounds := s.wounds.filter fun x => x.age != w.task.age
    held := s.held.filter fun (a, _) => a != w.task.age
    patches := s.patches.filter fun p => p.age != w.task.age }
  s.taskEnded w.task status

end Sys2Proof.Machine
end

