-- ==== Sys2Proof/Machine/Journal.lean ====
section
/-! DEFINITION. Where an element lies: translation through extents and tile store; the set journal, and what a task sees through it
(spec/13 R323, R324, R335, spec/06 R152, spec/17 R400 to R403). -/

namespace Sys2Proof.Machine

/-- R110: an address lies in the arena of a slot. -/
def Core.inArena (c : Core) (a : Nat) : Bool :=
  decide (c.arenabase.toNat ≤ a) && decide (a < c.arenabase.toNat + c.arenabound.toNat)

/-! ### Extents (R323, R324) -/

/-- R323: the region's length in bytes. -/
def Region.length (r : Region) : Nat := (r.exts.map (·.len)).sum
/-- The extent that covers a byte, with its index and the byte's offset in it. -/
def findExtent (b : Nat) : Nat → List Extent → Option (Nat × Extent × Nat)
  | _, [] => none
  | i, e :: rest => if b < e.len then some (i, e, b) else findExtent (b - e.len) (i + 1) rest
/-- Where a byte or an element lies (R324): at physical addresses, or withheld as ABSENT or OUTSIDE, or denied by an extent. -/
inductive Where where
  | at (bytes : List Nat)
  | absent
  | outside
  | denied (ext : Nat)
  deriving DecidableEq, Repr
/-- R324: a byte of a region. -/
def Region.byteAt (r : Region) (write : Bool) (b : Nat) : Where :=
  match findExtent b 0 r.exts with
  | none => .outside
  | some (i, e, o) => if !e.p then .absent else if write && e.ro then .denied i else .at [e.pa + o]
/-- R324: the n bytes from b on; the first that does not translate decides (DEDUCED for an element that straddles bytes, log 19). -/
def Region.bytesAt (r : Region) (write : Bool) (b : Nat) : Nat → Where
  | 0 => .at []
  | n + 1 =>
    match r.byteAt write b with
    | .at p =>
      match r.bytesAt write (b + 1) n with
      | .at ps => .at (p ++ ps)
      | w => w
    | w => w
/-- R324: element E of w bits. -/
def Region.place (r : Region) (write : Bool) (w : Nat) (E : Int) : Where :=
  if E < 0 then .outside else r.bytesAt write (elemByte w E.toNat) (elemBytes w E.toNat)
/-- R152: whether an element lies in the tile-store share. -/
def inShare (w : Nat) (E : Int) : Bool := decide (0 ≤ E) && decide (elemByte w E.toNat + elemBytes w E.toNat ≤ 524288)
/-- The tile-store offsets that an element touches. -/
def shareBytes (w : Nat) (E : Int) : List Nat := (List.range (elemBytes w E.toNat)).map (elemByte w E.toNat + ·)

/-! ### The set journal (R400 to R403) -/

/-- R400: the journal's offset, and whether a tile-store byte lies in it. -/
def Packet.journal (p : Packet) : Nat := (p.ts - p.jnl) * 1024
/-- R401: COUNT, the capacity, and entry k's offset. -/
def Slot.journalCount (l : Slot) : Nat := readLE l.store l.pkt.journal 4
def Packet.journalRoom (p : Packet) : Nat := (p.jnl * 1024 - 64) / 32
def Packet.entryAt (p : Packet) (k : Nat) : Nat := p.journal + 64 + 32 * k
/-- R401: an entry. -/
structure Entry where
  efmt : Nat
  region : Nat
  elem : Nat
  seq : Nat
  ord : Nat
  x : Nat
  md : Nat
  op : Nat
  /-- Its element lies in tile store (DESIGN CHOICE, log 84); an encode command made it. -/
  tile : Bool := false
  enc : Bool := false
  deriving DecidableEq, Repr, Inhabited
def Slot.journalEntry (l : Slot) (k : Nat) : Entry :=
  let o := l.pkt.entryAt k
  let w0 := readLE l.store o 8
  let w1 := readLE l.store (o + 8) 8
  let w3 := readLE l.store (o + 24) 8
  { efmt := bitsOf w0 63 56, region := bitsOf w0 55 52, elem := bitsOf w0 47 0, seq := bitsOf w1 63 48, ord := bitsOf w1 47 0,
    x := readLE l.store (o + 16) 8, md := bitsOf w3 12 8, op := bitsOf w3 7 0,
    tile := l.journalTile.contains k, enc := l.journalEnc.contains k }
def Slot.journal (l : Slot) : List Entry := (List.range l.journalCount).map l.journalEntry
/-- The modifiers of an entry: FTZ, SAT and RM. -/
def Entry.mods (e : Entry) : Mods := ⟨RMode.ofCode (e.md % 8), e.md.testBit 3, e.md.testBit 4⟩
/-- What an entry leaves where it found old. -/
def Entry.apply (e : Entry) (old : Nat) : Nat := if e.op = 0 then e.x else rmwNew e.efmt e.op e.mods old e.x
def writeEntry (m : List (Nat × BitVec 8)) (o : Nat) (e : Entry) : List (Nat × BitVec 8) :=
  let w0 := e.elem % 2 ^ 48 + e.region % 16 * 2 ^ 52 + e.efmt % 256 * 2 ^ 56
  let w1 := e.ord % 2 ^ 48 + e.seq % 65536 * 2 ^ 48
  let w3 := e.op % 256 + e.md % 32 * 256
  writeLE (writeLE (writeLE (writeLE m o 8 w0) (o + 8) 8 w1) (o + 16) 8 e.x) (o + 24) 8 w3
/-- R402: one entry is appended. -/
def Slot.appendEntry (l : Slot) (e : Entry) : Slot :=
  let k := l.journalCount
  { l with
    store := writeLE (writeEntry l.store (l.pkt.entryAt k) e) l.pkt.journal 4 (k + 1)
    journalTile := if e.tile then l.journalTile ++ [k] else l.journalTile
    journalEnc := if e.enc then l.journalEnc ++ [k] else l.journalEnc }
/-- R402, R408: the journal holds just these entries, in order. -/
def Slot.setJournal (l : Slot) (es : List Entry) : Slot :=
  let base := clearBytes l.store l.pkt.journal (l.pkt.jnl * 1024)
  let filled := (List.range es.length).foldl (fun m k => writeEntry m (l.pkt.entryAt k) ((es[k]?).getD default)) base
  let those (f : Entry → Bool) : List Nat := ((numbered 0 es).filter fun x => f x.2).map (·.1)
  { l with
    store := writeLE filled l.pkt.journal 4 es.length
    journalTile := those Entry.tile
    journalEnc := those Entry.enc }
/-- R335: an uncorrectable word of the journal in use. -/
def Slot.journalBad (l : Slot) : Bool :=
  l.badWords.any fun a => decide (l.pkt.journal ≤ a) && decide (a < l.pkt.entryAt l.journalCount)
/-- R402: what the task sees of a region's bytes that its journal covers, as region bytes. -/
def State.journalView (s : State) (ctx region : Nat) (r : Region) : List (Nat × BitVec 8) :=
  let home (b : Nat) : Nat :=
    match r.byteAt false b with
    | .at [p] => (getByte s.mem p).toNat
    | _ => 0
  ((s.slotAt ctx).journal.filter fun e => e.region == region && !e.tile).foldl (fun view e =>
    let w := ((Fmt.ofEfmt e.efmt).getD .octet).width
    let bs := (List.range (elemBytes w e.elem)).map (elemByte w e.elem + ·)
    let whole := bs.foldr (fun b v => (if ahas b view then (getByte view b).toNat else home b) + 256 * v) 0
    let old := whole / 2 ^ elemBit w e.elem % 2 ^ w
    let new := putBits whole (elemBit w e.elem) w (e.apply old)
    (bs.foldl (fun (acc : List (Nat × BitVec 8) × Nat) b =>
      (aset b (BitVec.ofNat 8 acc.2) acc.1, acc.2 / 256)) (view, new)).1) []
/-- R402: an entry is applied to tile store. -/
def Entry.applyTile (e : Entry) (m : List (Nat × BitVec 8)) : List (Nat × BitVec 8) :=
  let w := ((Fmt.ofEfmt e.efmt).getD .octet).width
  let as := shareBytes w e.elem
  let bit := elemBit w e.elem
  let whole := gather m as
  scatter m (putBits whole bit w (e.apply (whole / 2 ^ bit % 2 ^ w))) as
/-- R402, R303: tile store as the slot's task sees it, by its commands and by the words that read it as they issue (DEDUCED, log 84). -/
def Slot.tileView (l : Slot) : List (Nat × BitVec 8) :=
  if l.journalTile.isEmpty then l.store else (l.journal.filter (·.tile)).foldl (fun m e => e.applyTile m) l.store
/-- An element of a slot's tile store, as its commands see it. -/
def Slot.readTile (l : Slot) (as : List Nat) (bit w : Nat) : Nat := gather l.tileView as / 2 ^ bit % 2 ^ w
/-- R335, R409: the view of tile store needs the journal, and a word of the journal is uncorrectable. -/
def Slot.tileUnread (l : Slot) : Bool := l.core.jnl && !l.journalTile.isEmpty && l.journalBad
/-- n bytes of a slot's tile store, as its task sees them; zero where the journal cannot be read (log 84). -/
def Slot.viewLE (l : Slot) (o n : Nat) : Nat := if l.tileUnread then 0 else readLE l.tileView o n
/-- The word of a slot's tile store at an offset, as its task sees it. -/
def State.word (s : State) (ctx off : Nat) : Word := BitVec.ofNat 64 ((s.slotAt ctx).viewLE off 8)
/-- R335, R118: the task of a slot is to restart as a wound restarts it; the wounding age is unstated (log 20). -/
def State.unreadWound (s : State) (ctx : Nat) : State :=
  let age := (s.slotAt ctx).age
  if s.wounds.any fun w => w.age == age then s
  else
    { s.setCoreAt ctx fun c => { c with woundHeld := true } with
      wounds := s.wounds ++ [{ ctx := ctx, age := age, source := Config.freeWord s.draws, arrived := true, at' := s.stc }]
      draws := s.draws + 1 }
/-- R402: element E as the task sees it: its home value, with its journal applied. -/
def State.viewElem (s : State) (ctx region : Nat) (r : Region) (w E : Nat) (as : List Nat) : Nat :=
  if !(s.slotAt ctx).core.jnl then s.readPhys as (elemBit w E) w
  else
    let view := s.journalView ctx region r
    let whole := ((List.range as.length).foldr (fun k v =>
      let b := elemByte w E + k
      (if ahas b view then (getByte view b).toNat else (getByte s.mem ((as[k]?).getD 0)).toNat) + 256 * v) 0)
    whole / 2 ^ elemBit w E % 2 ^ w

end Sys2Proof.Machine
end

