-- ==== Sys2Proof/Machine/Heads.lean ====
section
/-! DEFINITION. The four heads: paths, the branch-outcome queue, interlocks, traps and their return, and what it is for a word to
issue at each head (spec/04, spec/01 R17 to R31). -/

namespace Sys2Proof.Machine

/-! ### The path a head walks (R101 to R104) -/

def Core.path (c : Core) : Path := if c.sup then c.firm else c.user
def Core.setPath (c : Core) (f : Path → Path) : Core :=
  if c.sup then { c with firm := f c.firm } else { c with user := f c.user }
def Path.pc (p : Path) : Head → Nat
  | .s => p.pcS | .m => p.pcM | .a => p.pcA | .y => p.pcY
def Path.setPc (p : Path) (h : Head) (v : Nat) : Path :=
  match h with
  | .s => { p with pcS := v }
  | .m => { p with pcM := v }
  | .a => { p with pcA := v }
  | .y => { p with pcY := v }
/-- R101: the words by which a head is behind S. -/
def Path.lag (p : Path) : Head → Nat
  | .s => 0 | .m => p.lagM | .a => p.lagA | .y => p.lagY
def Path.setLag (p : Path) (h : Head) (v : Nat) : Path :=
  match h with
  | .s => p
  | .m => { p with lagM := v }
  | .a => { p with lagA := v }
  | .y => { p with lagY := v }
/-- R104: how many entries of the queue a head has consumed. -/
def Path.used (p : Path) : Head → Nat
  | .s => p.boq.length | .m => p.usedM | .a => p.usedA | .y => p.usedY
def Path.setUsed (p : Path) (h : Head) (v : Nat) : Path :=
  match h with
  | .s => p
  | .m => { p with usedM := v }
  | .a => { p with usedA := v }
  | .y => { p with usedY := v }
/-- R101, R103: the head is past the first word of the 64-bit instruction at its program counter. -/
def Path.half (p : Path) : Head → Bool
  | .s => p.halfS | .m => p.halfM | .a => p.halfA | .y => p.halfY
def Path.setHalf (p : Path) (h : Head) (v : Bool) : Path :=
  match h with
  | .s => { p with halfS := v }
  | .m => { p with halfM := v }
  | .a => { p with halfA := v }
  | .y => { p with halfY := v }
/-- R101: how many of the n words at its program counter a head has still to step past. -/
def Path.left (p : Path) (h : Head) (n : Nat) : Nat := if p.half h then n - 1 else n
/-- R101: the words from the one at a trailing head's program counter up to the one at that of S. -/
def Path.whole (p : Path) (h : Head) : Nat := (if p.half h then p.lag h + 1 else p.lag h) - if p.halfS then 1 else 0
/-- R117: where a trailing head is lost off the path, if it is. -/
def Path.lost (p : Path) : Head → Option Nat
  | .s => none | .m => p.lostM | .a => p.lostA | .y => p.lostY
def Path.setLost (p : Path) (h : Head) (v : Option Nat) : Path :=
  match h with
  | .s => p
  | .m => { p with lostM := v }
  | .a => { p with lostA := v }
  | .y => { p with lostY := v }
/-- R114: the address at which a head goes on: where it is lost, if it is; S at the prefix of a unit that has not issued (R28). -/
def Path.place (p : Path) (h : Head) : Nat :=
  match h with
  | .s => match p.pfx with | some q => q.addr | none => p.pcS
  | h => (p.lost h).getD (p.pc h)
/-- R104: an entry that every trailing head has consumed leaves the queue. -/
def Path.trim (p : Path) : Path :=
  let k := min p.usedM (min p.usedA p.usedY)
  { p with
    boq := p.boq.drop k
    usedM := p.usedM - k
    usedA := p.usedA - k
    usedY := p.usedY - k }
/-- R101, R103: S has stepped past k more words; while it repeats a BRP loop its position stands still. -/
def Path.advance (p : Path) (k : Nat) : Path :=
  let k := if p.replay.isSome then 0 else k
  { p with
    lagM := p.lagM + k
    lagA := p.lagA + k
    lagY := p.lagY + k }
/-- R101, R103: S steps past the n words at its program counter. -/
def Path.passS (p : Path) (n : Nat) : Path :=
  { p.advance (p.left .s n) with
    pcS := p.pcS + 4 * n
    halfS := false
    pfx := p.pfx.filter fun q => q.goal != p.pcS }
/-- R101, R103: a head steps past the first word of a 64-bit instruction. -/
def Path.passHalf (p : Path) (h : Head) : Path :=
  match h with
  | .s => (p.advance 1).setHalf .s true
  | h => (p.setLag h (p.lag h - 1)).setHalf h true
/-- The branch-outcome queue's depth (R104). -/
def boqDepth : Nat := 64
/-- R77, R104: the word of the linear path at which a trailing head follows an entry; none for one of a repeated pass. -/
def Branch.at' (b : Branch) : Option Nat :=
  match b.pass with
  | .first => some b.xfer
  | .again => none
  | .left brp _ => some brp
/-- R77: a trailing head does not step past the BRP at which it would follow the entry. -/
def Branch.holds (b : Branch) : Bool :=
  match b.pass with
  | .left _ held => held
  | _ => false
/-- R77: S has executed the BRP at an address not taken. -/
def Branch.release (brp : Nat) (b : Branch) : Branch :=
  match b.pass with
  | .left a _ => if a = brp then { b with pass := .left a false } else b
  | _ => b
/-- The entries at the front of a queue that no trailing head meets. -/
def skipAgain : List Branch → Nat
  | [] => 0
  | b :: rest => if b.pass = .again then skipAgain rest + 1 else 0
/-- R104: each trailing head consumes the entries of repeated passes as they become its oldest (DEDUCED, log 14), and an entry that
all have consumed leaves the queue. -/
def Path.settle (p : Path) : Path :=
  { p with
    usedM := p.usedM + skipAgain (p.boq.drop p.usedM)
    usedA := p.usedA + skipAgain (p.boq.drop p.usedA)
    usedY := p.usedY + skipAgain (p.boq.drop p.usedY) }.trim
/-- R74: how a transfer moves S: a branch, a call that leaves a link, or a return. -/
inductive Going where
  | jump | call | ret
  deriving DecidableEq, Repr
/-- R101: the loop that S goes on repeating after a transfer to an address; none where the transfer takes S out of it. -/
def Loop.after (l : Loop) (g : Going) (tkn : Bool) (tgt : Nat) : Option Loop :=
  let stays : Option Loop := if !tkn || l.depth != 0 || (decide (l.start ≤ tgt) && decide (tgt ≤ l.brp)) then some l else none
  match g with
  | .jump => stays
  | .call => if tkn then some { l with depth := l.depth + 1 } else some l
  | .ret => if tkn && l.depth != 0 then some { l with depth := l.depth - 1 } else stays
/-- R104: S appends the outcome of the transfer at xfer. -/
def Path.record (p : Path) (g : Going) (tgt xfer : Nat) (tkn : Bool) : Path :=
  let next := p.replay.bind fun l => l.after g tkn tgt
  let pass : Pass := match p.replay, next with
    | none, _ => .first
    | some _, some _ => .again
    | some l, none => .left l.brp true
  let b : Branch := ⟨if tkn then tgt else 0, xfer, tkn, pass⟩
  { p with
    boq := p.boq ++ [b]
    replay := next : Path }.settle
/-- R102: the outcome that a trailing head holds for the word at its pc, if S has executed a transfer there. -/
def Path.entry (p : Path) (h : Head) : Option Branch :=
  match p.boq[p.used h]? with
  | some b => if b.at' = some (p.pc h) then some b else none
  | none => none
/-- R102: a trailing head steps past a word of n words, following the outcome of a transfer. -/
def Path.passX (p : Path) (h : Head) (n : Nat) : Path :=
  let q := (p.setLag h (p.lag h - p.left h n)).setHalf h false
  match p.entry h with
  | some b => ((q.setPc h (if b.tkn then b.tgt else p.pc h + 4 * n)).setUsed h (p.used h + 1)).settle
  | none => q.setPc h (p.pc h + 4 * n)

/-! ### Fetch (R24, R110, R111) -/

/-- The arena the slot fetches from: base and bound. -/
def State.arena (s : State) (ctx : Nat) : Nat × Nat :=
  let c := (s.slotAt ctx).core
  if c.sup then
    let d := s.die (dieOf (nodeOf ctx))
    (d.fwBase, d.fwBound)
  else (c.arenabase.toNat, c.arenabound.toNat)
/-- What a fetch finds. -/
inductive Fetch where
  | outside
  | unbacked (addr : Nat)
  | word (w : Nat)
  deriving DecidableEq, Repr
/-- R110, R335: the word at an arena offset. An uncorrectable one counts as outside. -/
def State.fetch (s : State) (ctx off : Nat) : Fetch :=
  let (base, bound) := s.arena ctx
  let a := base + off
  if bound < off + 4 then .outside
  else if !backed a then .unbacked a
  else if s.badWords.contains (a / 8 * 8) then .outside
  else .word (readLE s.mem a 4)
/-- A byte of the arena, for the block checks, the loader and the order program. At an address that no storage backs it reads as zero,
and a word that is uncorrectable reads as the bytes it holds (DESIGN CHOICE, log 73: the spec says what neither reads as). -/
def State.arenaByte (s : State) (ctx off : Nat) : Nat :=
  (getByte s.mem ((s.slotAt ctx).core.arenabase.toNat + off)).toNat
/-- R17: how many words a head steps over. -/
def wordLen (w : Nat) : Nat := if w % 4 = 1 then 2 else 1
def wordTag (w : Nat) : Nat := w / 4 % 8
def wordOp (w : Nat) : Nat := w / 32 % 256
/-- R247: a TEND or TYLD word. -/
def endsTask (w : Nat) : Bool :=
  w % 4 != 2 && wordTag w == 3 && (wordOp w == 0xAD || wordOp w == 0xAE)
/-- R27: a control transfer of any head. -/
def transferWord (w : Nat) : Bool :=
  w % 4 != 2 && ((wordTag w == 0 && [0x40, 0x41, 0x42, 0x43, 0x44, 0x52, 0x53].contains (wordOp w)) || endsTask w)

/-! ### Words that a trailing head has not reached (R88, R106, R107, R238) -/

/-- R102: where the path goes on behind a word of n words at an address, and the entries that are still ahead there. -/
def nextOnPath (pc n : Nat) : List Branch → Nat × List Branch
  | [] => (pc + 4 * n, [])
  | b :: rest =>
    match b.at' with
    | none => nextOnPath pc n rest
    | some a => if a = pc then (if b.tkn then b.tgt else pc + 4 * n, rest) else (pc + 4 * n, b :: rest)
/-- The words of head h between it and S on the linear path, each with its distance behind S; fuel is a bound on words. -/
def State.behindFrom (s : State) (ctx : Nat) (h : Head) : Nat → Nat → Nat → List Branch → List (Nat × Instr)
  | 0, _, _, _ => []
  | fuel + 1, pc, lag, boq =>
    if lag = 0 then []
    else
      match s.fetch ctx pc with
      | .word w =>
        let n := wordLen w
        let x := if n = 2 then (match s.fetch ctx (pc + 4) with | .word x => x | _ => 0) else 0
        let (next, boq') := nextOnPath pc n boq
        let rest := s.behindFrom ctx h fuel next (lag - n) boq'
        if wordTag w = headCode h && w % 4 != 2 then
          match decode w x with
          | .ok i => (lag, i) :: rest
          | .error _ => rest
        else rest
      | _ => []
/-- The words of head h that S has stepped past and h has not. -/
def State.behind (s : State) (ctx : Nat) (h : Head) : List (Nat × Instr) :=
  let p := (s.slotAt ctx).core.path
  s.behindFrom ctx h (p.whole h) (p.pc h) (p.whole h) (p.boq.drop (p.used h))
def trailing : List Head := [.m, .a, .y]

/-- R107: a trailing word that precedes S's instruction reads the register it writes and has not issued. -/
def State.warBlocked (s : State) (i : Instr) : Bool :=
  match i.dest with
  | none => false
  | some r => !r.wired && trailing.any fun h => (s.behind s.cur h).any fun (_, j) => j.trailReads.contains r
/-- R397: the lock entry of a key. -/
def State.lockAt (s : State) (addr log2g : Nat) : Option Lock :=
  s.locks.find? fun l => l.addr == addr && l.log2g == log2g
/-- The task of an age holds the granule of a key. -/
def State.holds (s : State) (age : Word) (addr log2g : Nat) : Bool :=
  match s.lockAt addr log2g with
  | some l => (l.holder.map (·.1)) == some age
  | none => false
/-- R299: a command of the current slot has made the first touch of a granule of an atomic set, which is not yet granted (DEDUCED, log 76:
the touch is an acquire from when it is made). A place of 2^60 and beyond is no granule: the command waits for its journal. -/
def State.touchPending (s : State) : Bool :=
  (s.me.eng.flying ++ s.me.chain.cmd.toList ++ s.me.channels.filterMap (·.cmd)).any fun c =>
    match c.waitGranule with
    | some (a, g) => decide (a < 2 ^ 60) && !s.holds s.me.age a g
    | none => false
/-- R88, R299: an acquire that precedes S's instruction has not completed: one of Y, or the first touch of a set granule. -/
def State.acquirePending (s : State) : Bool := ((s.behind s.cur .y).any fun (_, j) => j.acquires) || s.touchPending
/-- R88, R164: a word that reads tile store as it issues precedes S's store and has not issued. -/
def State.storeBlocked (s : State) : Bool := trailing.any fun h => (s.behind s.cur h).any fun (_, j) => j.readsStore
/-- R238, R299: an acquire stands before the word at head h's pc and has not completed: one of Y, or the first touch of a set granule. -/
def State.acquireBefore (s : State) (h : Head) : Bool :=
  let lag := s.core.path.whole h
  ((s.behind s.cur .y).any fun (l, j) => j.acquires && decide (lag < l)) || s.touchPending
/-- R103: S may step past the n words at its program counter; in a repeated pass of a BRP loop nothing holds it. -/
def Core.slipOk (c : Core) (n : Nat) : Bool :=
  c.path.replay.isSome || trailing.all fun h => decide (c.path.lag h + c.path.left .s n ≤ c.slipwin.toNat)
/-- R103: S may step past the first word of the 64-bit instruction at its program counter, and not yet past both. -/
def Core.slipHalf (c : Core) : Bool :=
  !c.path.halfS && !c.slipOk 2 && trailing.all fun h => decide (c.path.lag h + 1 ≤ c.slipwin.toNat)

/-! ### Traps (R113 to R118) -/

/-- R114 item 2, R109: an LDT or STT that waits for its bank is granted. An uncorrectable word reads as zero and makes cause 0x12
pending (R335); an LDT that the journal hides reads as zero, and its task restarts (R409). -/
def State.grantBank (s : State) (ctx : Nat) : State :=
  let l := s.slotAt ctx
  match l.core.bank with
  | none => s
  | some b =>
    if b.store then
      s.setSlot ctx fun l => { l with
        store := writeLE l.store b.addr 8 b.data.toNat
        badWords := l.badWords.filter (· != b.addr)
        core := { l.core with bank := none } }
    else
      let bad := l.badWords.contains b.addr
      let v : Word := if bad then 0 else s.word ctx b.addr
      (if l.tileUnread then s.unreadWound ctx else s).setCoreAt ctx fun c =>
        let c := { c with
          bank := none
          flights := c.flights.map fun f => if f.wait then { f with val := v, wait := false } else f }
        if bad then c.addPend 0x12 0 (BitVec.ofNat 64 b.addr) else c

/-- R118, R339, R393, R114: a task ends with a failure code: its results land, an LDT that waits on its bank too; its commands, its
journal, its deferred acts and its buffers are discarded, its granules released and its FIFOs emptied. -/
def State.failTask (s : State) (ctx : Nat) (code : Nat) : State :=
  let s := s.grantBank ctx
  match (s.slotAt ctx).task with
  | none => s
  | some t =>
    let u := (((s.dropUpdates ctx).withdrawWaits t.age).releaseGranules t.age).endTask ctx (code * 256)
    u.setCoreAt ctx fun c => { c with xo := Vector.replicate 4 [] }
/-- R28: a trailing head goes back over the n words from a prefix to its target. -/
def Path.back (p : Path) (h : Head) (addr n : Nat) : Path :=
  match h with
  | .s => p
  | h => (p.setPc h addr).setLag h (p.lag h + n)
/-- R28: the unit of a prefix and its target has not issued: head h stands at the prefix again. -/
def Core.disarm (c : Core) (h : Head) : Core :=
  match c.arm with
  | none => c
  | some a => { c.setPath (·.back h a.addr a.dist) with arm := none }

/-- R114 items 2 to 5: results land, the trap PC of S takes the address next and the others those of the next words, the cause is
written, and the heads start in the firmware arena on a path of its own (DEDUCED, log 15). -/
def Core.enterTrap (c : Core) (next : Nat) (cause val : Word) : Core :=
  let c := c.landAll
  { c with
    trappcS := BitVec.ofNat 32 next
    trappcM := BitVec.ofNat 32 (c.user.place .m)
    trappcA := BitVec.ofNat 32 (c.user.place .a)
    trappcY := BitVec.ofNat 32 (c.user.place .y)
    trapcause := cause
    trapval := val
    sup := true
    ywait := none
    firm := {} }

/-- R26: a prefix word that no head accepts. -/
def prefixBad (w : Nat) : Bool := decide (3 ≤ wordTag w) || decide (5 ≤ w / 32 % 8) || decide (2 ^ 10 ≤ w % 2 ^ 32)
/-- R18: S steps over the word: it is another head's, S does not wait at it (R247), and it is no illegal encoding at S. -/
def passedByS (w : Nat) : Bool :=
  w % 4 != 3 && decide (wordTag w < 4) && wordTag w != 0 && !(w % 4 == 2 && prefixBad w) && !endsTask w
/-- R114 item 3: the address of the next S unit not issued, from a place of S on; fuel bounds the words. -/
def State.nextUnit (s : State) (ctx : Nat) : Nat → Nat → Nat
  | 0, pc => pc
  | fuel + 1, pc =>
    match s.fetch ctx pc with
    | .word w => if passedByS w then s.nextUnit ctx fuel (pc + 4 * wordLen w) else pc
    | _ => pc
/-- R114 item 3: the next S unit of a slot in user mode; a unit of a prefix and its target is at the prefix (R28). -/
def State.nextS (s : State) (ctx : Nat) : Nat :=
  let p := (s.slotAt ctx).core.user
  match p.pfx with
  | some q => q.addr
  | none => s.nextUnit ctx ((s.slotAt ctx).core.arenabound.toNat / 4) p.pcS
/-- R114: trap entry of a slot in user mode; next is the address that `trappc.s` takes. -/
def State.trapAt (s : State) (ctx next : Nat) (cause val : Word) : State :=
  (s.grantBank ctx).setCoreAt ctx (·.enterTrap next cause val)

/-- R118: the fault service is told of a second trap in supervisor mode. -/
def State.alert (s : State) (ctx cause : Nat) : State :=
  { s with dies := lmod (dieOf (nodeOf ctx)) (fun d => { d with alerts := d.alerts ++ [(ctx, cause)] }) s.dies }

/-- R113, R114, R118: a synchronous trap at head h of the current slot: it is entered in user mode; in supervisor mode the slot
halts, the fault service is told, and the task ends with code 0x02. sw is the software trap's code. -/
def State.syncTrap (s : State) (h : Head) (cause : Nat) (val : Word) (sw : Nat := 0) : State :=
  if s.core.sup then (s.alert s.cur cause).failTask s.cur 0x02
  else
    let t := s.setCore (·.disarm h)
    t.trapAt s.cur (if h = .s then t.core.user.pcS else t.nextS s.cur) (causeWord sw false (headCode h) cause) val

/-! ### What a head meets at its program counter (R17, R18, R31) -/

inductive Look where
  | stay
  | moved (s : State)
  | stop (r : Fault)
  | unit (i : Instr)

/-- R31: an illegal encoding at head h. -/
def State.illegal (s : State) (h : Head) (w x : Nat) : State :=
  s.syncTrap h 0x01 (BitVec.ofNat 64 (w % 2 ^ 32 + if w % 4 = 1 then x % 2 ^ 32 * 2 ^ 32 else 0))
/-- R390, R118: the gating of a slot is due: GRACE after its request, or held since supervisor mode. -/
def State.gateDue (s : State) (ctx : Nat) : Bool :=
  (s.slotAt ctx).gateHeld || (match (s.slotAt ctx).preq with | some t => decide (t + s.grace ≤ s.acOf ctx) | none => false)
/-- R113, R118, R392: what a user-mode head waits behind: a pending cause, and a wound, a gating or a drain held until TRET. None of
them is taken during a commit (R257, R404). A word that raises a synchronous trap does not wait (R113, R120). -/
def State.userHold (s : State) : Bool :=
  !s.core.sup && !s.core.commit && (!s.core.pend.isEmpty || s.me.gateHeld || s.me.drainHeld
    || s.wounds.any fun w => w.arrived && w.ctx == s.cur)
/-- R247: Y has come to the TEND or TYLD word at which S stands, and M and A with it. -/
def Path.together (p : Path) : Bool :=
  p.lagY == 0 && p.lagM == 0 && p.lagA == 0 && p.replay.isNone && p.pcY == p.pcS
/-- R102: a BR, DBRP, CALL or RET word. -/
def recordsWord (w : Nat) : Bool :=
  w % 4 != 2 && wordTag w == 0 && [0x40, 0x42, 0x43, 0x44].contains (wordOp w)

/-- R18, R77, R102, R103, R247: head h steps over a word of another head, or waits before it. -/
def State.stepOver (s : State) (h : Head) (w : Nat) : Look :=
  let p := s.core.path
  let n := wordLen w
  match h with
  | .s =>
    if endsTask w && p.replay.isNone then .stay
    else if s.core.slipOk n then .moved (s.setCore (·.setPath (·.passS n)))
    else if n = 2 ∧ s.core.slipHalf then .moved (s.setCore (·.setPath (·.passHalf .s)))
    else .stay
  | h =>
    match p.entry h with
    | some b => if b.holds then .stay else .moved (s.setCore (·.setPath (·.passX h n)))
    | none => if recordsWord w then .stay else .moved (s.setCore (·.setPath (·.passX h n)))

/-- R103: S is about to issue instruction i, or steps past its first word alone. -/
def State.startUnit (s : State) (h : Head) (i : Instr) : Look :=
  if h = .s ∧ i.long ∧ s.core.slipHalf then .moved (s.setCore (·.setPath (·.passHalf .s))) else .unit i
/-- R18, R31: head h meets the word w, its own or another's, at an address. -/
def State.meet (s : State) (h : Head) (pc w : Nat) : Look :=
  let own := wordTag w == headCode h
  match (if w % 4 = 1 ∧ (own ∨ 4 ≤ wordTag w) then s.fetch s.cur (pc + 4) else .word 0) with
  | .unbacked a => .stop (.unbacked a)
  | .outside => .moved (s.syncTrap h 0x03 (BitVec.ofNat 64 (pc + 4)))
  | .word x =>
    if w % 4 = 3 ∨ 4 ≤ wordTag w ∨ (w % 4 = 2 ∧ prefixBad w) then .moved (s.illegal h w x)
    else if !own then s.stepOver h w
    else
      match decode w x with
      | .error _ => .moved (s.illegal h w x)
      | .ok i => if i.wf then s.startUnit h i else .moved (s.illegal h w x)
/-- What head h of the current slot does next: it waits, steps over a word, takes a trap, or issues an instruction. A head that is
lost fetches where it stands, and waits (R92, R117). -/
def State.look (s : State) (h : Head) : Look :=
  let p := s.core.path
  let pc := p.pc h
  if s.me.stage != .running || s.offBeat s.cur then .stay
  else if h == .s && s.core.bank.isSome then .stay
  else match p.lost h with
    | some a =>
      match s.fetch s.cur a with
      | .unbacked b => .stop (.unbacked b)
      | .outside => .moved (s.syncTrap h 0x03 (BitVec.ofNat 64 a))
      | .word _ => .stay
    | none =>
      if h != .s && p.replay.isSome && decide (p.whole h ≤ 1) then .stay
      else
        match s.fetch s.cur pc with
        | .unbacked a => .stop (.unbacked a)
        | .outside => if h != .s && p.lag h == 0 then .stay else .moved (s.syncTrap h 0x03 (BitVec.ofNat 64 pc))
        | .word w =>
          if h != .s && decide (p.lag h < p.left h (wordLen w)) && !(h == .y && endsTask w && p.together) then
            if p.lag h = 0 then .stay else .moved (s.setCore (·.setPath (·.passHalf h)))
          else s.meet h pc w

/-! ### Issue -/

/-- The words of an instruction (R24). -/
def words (i : Instr) : Nat := if i.long then 2 else 1

/-- R108: an S unit has issued: S is past it, and one issue cycle is over. -/
def State.finishS (s : State) (n : Nat) : State :=
  { s.setCore (fun c => { c.setPath (·.passS n) with cycle := c.cycle + 1 }) with draws := s.draws + 4 }

/-- R52, R88, R103, R107: what holds back every S instruction: a bank it waits for, the slip window, an earlier result for the same
register, and a trailing word that has still to read that register. -/
def State.stalledS (s : State) (i : Instr) : Bool :=
  s.core.bank.isSome || !s.core.slipOk (words i) || s.warBlocked i
    || (match i.dest with
        | some r => s.core.closeWindows.unlanded r
        | none => false)

/-- R22, R53, R108: instruction i issues at the S head: guarded off it has no effect; otherwise, unless hold keeps it back, body
gives its effect. -/
def State.issueS (s : State) (i : Instr) (hold : State → Bool) (body : State → Res) : Res :=
  if s.stalledS i then .next s
  else
    let t := s.setCore (·.closeWindows)
    if i.guard && !t.readGuard then .next (t.finishS (words i))
    else if hold t then .next s
    else body t

/-- R52: an S instruction whose only effect is a result. -/
def State.issueResult (s : State) (i : Instr) (cls : Nat) (val : State → Word) : Res :=
  s.issueS i (fun _ => false) fun t =>
    .next ((match i.dest with
      | some r => t.setCore (·.land r (val t) cls)
      | none => t).finishS (words i))

/-- R102: a unit of a trailing head has issued. -/
def State.finishX (s : State) (h : Head) (n : Nat) : State :=
  s.setCore fun c => { c.setPath (·.passX h n) with arm := none }

/-- R102, R106, R238, R299: what holds back every word of a trailing head. -/
def State.stalledX (s : State) (h : Head) (i : Instr) : Bool :=
  decide (s.core.path.lag h < s.core.path.left h (words i)) || i.trailReads.any s.core.unlanded
    || ((i.queues || i.readsStore) && s.acquireBefore h) || (h == .y && s.core.ywait.isSome)

/-- R22, R106: instruction i issues at trailing head h. -/
def State.issueX (s : State) (h : Head) (i : Instr) (body : State → Res) : Res :=
  if s.stalledX h i then .next s
  else if i.guard && !s.core.getP 1 then .next (s.finishX h (words i))
  else body s

/-- R113, R118: from s to t the current slot has taken a synchronous trap. -/
def State.trapped (s t : State) : Bool :=
  if s.core.sup then
    let d := dieOf (nodeOf s.cur)
    decide ((t.die d).alerts.length ≠ (s.die d).alerts.length)
  else t.core.sup
/-- R113, R118, R120: a head that waits behind a pending cause, or one held until TRET, does nothing but take a synchronous trap. -/
def State.held' (s : State) (r : Res) : Res :=
  if s.userHold then
    match r with
    | .next t => if s.trapped t then .next t else .next s
    | _ => .next s
  else r
/-- R113: of the synchronous traps that heads raise in one ac, that of the first in the order S, M, A, Y is taken, before any
asynchronous cause; r is what happens if none of the heads hs traps, and act is what a head does. -/
def State.firstTrap (s : State) (act : Head → Res) (r : Res) : List Head → Res
  | [] => r
  | h :: hs =>
    match act h with
    | .next t => if s.trapped t then .next t else s.firstTrap act r hs
    | _ => s.firstTrap act r hs
/-- R113: the heads that come before a head. -/
def headsBefore : Head → List Head
  | .s => [] | .m => [.s] | .a => [.s, .m] | .y => [.s, .m, .a]
/-- R113: what a head's turn comes to. -/
def State.headTurn (s : State) (act : Head → Res) (h : Head) : Res :=
  match act h with
  | .next t => if s.trapped t then s.firstTrap act (.next t) (headsBefore h) else .next t
  | r => r

/-- R28: the modifiers that a prefix gives the S unit whose target S stands at. -/
def Core.mods (c : Core) : Mods :=
  match c.path.pfx with
  | some q => if q.goal = c.path.pcS then ⟨RMode.ofCode q.rm, q.sat, q.ftz⟩ else {}
  | none => {}

end Sys2Proof.Machine
end

