-- ==== Sys2Proof/Machine/MemS.lean ====
section
/-! DEFINITION. The S head's reach of spill memory, tile store and the engine FIFOs (spec/02 R82 to R88, spec/04 R109). -/

namespace Sys2Proof.Machine

/-! ### Spill memory (R82, R111) -/

def Core.getSpill (c : Core) (k : Nat) : Word := if c.sup then aget 0 k c.supSpill else aget 0 k c.spill
/-- Spill memory lists the entries that differ from zero (the model's own form). -/
def setEntry (l : List (Nat × Word)) (k : Nat) (v : Word) : List (Nat × Word) := if v = 0 then adel k l else aset k v l
def Core.setSpill (c : Core) (k : Nat) (v : Word) : Core :=
  if c.sup then { c with supSpill := setEntry c.supSpill k v } else { c with spill := setEntry c.spill k v }
/-- R82: the register that CLS and D name. -/
def spillReg (cls : Bool) (d : SReg) : RegId := if cls then .f (Fin.ofNat 16 d.val) else .s d

/-- SPLD (R82). -/
def execSpld (d : SReg) (cls : Bool) (slot : Fin 512) (g : Bool) (lat : Fin 8) (s : State) : Res :=
  s.issueResult (.spld d cls slot g lat) (latClass lat) fun t => t.core.getSpill slot.val

/-- SPST (R82). -/
def execSpst (d : SReg) (cls : Bool) (slot : Fin 512) (g : Bool) (s : State) : Res :=
  s.issueS (.spst d cls slot g) (fun _ => false) fun t =>
    .next ((t.setCore (·.setSpill slot.val (t.readReg 1 (spillReg cls d)))).finishS 1)

/-! ### Tile store (R83, R84, R109) -/

/-- R83: the address s[A] + s[B]. -/
def State.tileAddr (t : State) (a b : SReg) : Word := t.readS 1 a + t.readS 2 b
/-- R83: within the share, and aligned. -/
def tileAddrOk (v : Word) : Bool := decide (v.toNat < 524288) && v.toNat % 8 == 0
/-- R84: the address lies in a windrow that holds no filled slot. -/
def Core.windrowEmpty (c : Core) (a : Nat) : Bool :=
  c.windrows.any fun (_, w) => decide (w.base ≤ a) && decide (a < w.base + w.size * w.count) && w.filled == 0
/-- R400: the address lies in the task's journal. -/
def Packet.inJournal (p : Packet) (a : Nat) : Bool := decide ((p.ts - p.jnl) * 1024 ≤ a) && decide (a < p.ts * 1024)
/-- R109: the LDT in flight waits for its bank. -/
def Core.awaitBank (c : Core) (d : SReg) : Core :=
  { c with flights := c.flights.map fun f => if f.reg == .s d then { f with wait := true } else f }

/-- LDT (R83, R84, R88, R109): it lands once its bank is granted. -/
def execLdt (d : SReg) (a : SReg) (b : SReg) (g : Bool) (lat : Fin 8) (s : State) : Res :=
  s.issueS (.ldt d a b g lat) (fun t => t.acquirePending || t.core.windrowEmpty (t.tileAddr a b).toNat) fun t =>
    let v := t.tileAddr a b
    if !tileAddrOk v then .next (t.syncTrap .s 0x06 v)
    else .next ((t.setCore fun c => { (c.land (.s d) 0 (latClass lat)).awaitBank d with
      bank := some ⟨v.toNat, false, 0, 0⟩ }).finishS 1)

/-- STT (R83, R88, R109, R400): it waits for its bank; earlier words that read tile store go first. -/
def execStt (d : SReg) (a : SReg) (b : SReg) (g : Bool) (s : State) : Res :=
  s.issueS (.stt d a b g) (fun t => t.acquirePending || t.storeBlocked) fun t =>
    let v := t.tileAddr a b
    if !tileAddrOk v || t.me.pkt.inJournal v.toNat then .next (t.syncTrap .s 0x06 v)
    else .next ((t.setCore fun c => { c with bank := some ⟨v.toNat, true, t.readS 3 d, 0⟩ }).finishS 1)

/-! ### Engine FIFOs (R85 to R87) -/

/-- The elements of a FIFO that POPF names. -/
def Core.fifo (c : Core) (k : Nat) : List Word :=
  if k = 3 then c.chf else if k = 4 then c.sts else c.xi[Fin.ofNat 4 (k - 8)]
def Core.setFifo (c : Core) (k : Nat) (l : List Word) : Core :=
  if k = 3 then { c with chf := l } else if k = 4 then { c with sts := l }
  else { c with xi := c.xi.set (Fin.ofNat 4 (k - 8)) l }

/-- POPF (R86, R88): it waits for an element. -/
def execPopf (d : SReg) (fifo : Fin 32) (g : Bool) (lat : Fin 8) (s : State) : Res :=
  s.issueS (.popf d fifo g lat) (fun t => t.acquirePending || (t.core.fifo fifo.val).isEmpty) fun t =>
    match t.core.fifo fifo.val with
    | [] => .next s
    | x :: rest => .next ((t.setCore fun c => (c.setFifo fifo.val rest).land (.s d) x (latClass lat)).finishS 1)

/-- A record's sixteen words. -/
def recordOf (ws : List Word) : Vector Word 16 := Vector.ofFn fun k => (ws[k.val]?).getD 0
/-- R149, R157, R164: a record as it is queued: SEQ and STATUS are the device's. eng is none for a stream command. -/
def queuedCmd (ws : Vector Word 16) (seq : BitVec 16) (head : Nat) (eng : Option Nat) : Cmd :=
  let hdr := BitVec.ofNat 64 (ws[0].toNat % 2 ^ 48 + seq.toNat * 2 ^ 48)
  let c : Cmd := { raw := ws.set 0 hdr, seq := seq.toNat, head := head }
  let st := match eng with
    | none => c.status
    | some e => c.engineStatus e
  { c with raw := c.raw.set 15 st }
/-- A command enters the stream queue of a slot. -/
def Slot.queueM (l : Slot) (ws : Vector Word 16) (head : Nat) : Slot :=
  { l with
    eng := { l.eng with queue := l.eng.queue ++ [queuedCmd ws l.core.seqM head none] }
    core := { l.core with seqM := l.core.seqM + 1 } }
/-- R219, R220: ENG of a kind of the array-and-chain queue: 1 for the chain engine's. -/
def kindEng (kind : Nat) : Nat := if 0x48 ≤ kind ∧ kind ≤ 0x4B then 1 else 0
/-- R217: a command enters the array-and-chain queue. -/
def Slot.queueCA (l : Slot) (ws : Vector Word 16) (head : Nat) : Slot :=
  { l with
    queueA := l.queueA ++ [queuedCmd ws l.core.seqA head (some (kindEng (ws[0].toNat % 256)))]
    core := { l.core with seqA := l.core.seqA + 1 } }
/-- R217: a command enters the encode queue. -/
def Slot.queueCE (l : Slot) (ws : Vector Word 16) (head : Nat) : Slot :=
  { l with
    queueE := l.queueE ++ [queuedCmd ws l.core.seqE head (some 2)]
    core := { l.core with seqE := l.core.seqE + 1 } }

/-- R119, R217: the commands of the array-and-chain queue (enc false) or the encode queue that count towards its 64: those in execution
are held in it (DEDUCED, log 80). -/
def Slot.queueLoad (l : Slot) (enc : Bool) : Nat :=
  if enc then l.queueE.length + (l.channels.filterMap (·.cmd)).length
  else l.queueA.length + l.array.toList.length + l.chain.cmd.toList.length
/-- R158, R217: the commands that a command FIFO's queue holds. -/
def Slot.queued (l : Slot) (k : Nat) : Nat := if k = 0 then l.eng.queue.length else l.queueLoad (k != 1)
/-- The partial assembly buffer of a command FIFO. -/
def Slot.assembly (l : Slot) (k : Nat) : List Word :=
  if k = 0 then l.core.asmM else if k = 1 then l.core.asmA else l.core.asmE
def Slot.setAssembly (l : Slot) (k : Nat) (ws : List Word) : Slot :=
  l.setCore fun c =>
    if k = 0 then { c with asmM := ws } else if k = 1 then { c with asmA := ws } else { c with asmE := ws }
/-- R87: PUSHF waits: an `xo` FIFO is full, or the push completes a record and the queue is full. -/
def Slot.pushWaits (l : Slot) (k : Nat) : Bool :=
  if 12 ≤ k then decide (fifoDepth ≤ (l.core.xo[Fin.ofNat 4 (k - 12)]).length)
  else (l.assembly k).length == 15 && decide (queueDepth ≤ l.queued k)
/-- R87: the push. -/
def Slot.push (l : Slot) (k : Nat) (v : Word) : Slot :=
  if 12 ≤ k then
    l.setCore fun c => { c with xo := c.xo.set (Fin.ofNat 4 (k - 12)) (c.xo[Fin.ofNat 4 (k - 12)] ++ [v]) }
  else
    let ws := l.assembly k ++ [v]
    if ws.length < 16 then l.setAssembly k ws
    else
      let l := l.setAssembly k []
      if k = 0 then l.queueM (recordOf ws) 0 else if k = 1 then l.queueCA (recordOf ws) 0 else l.queueCE (recordOf ws) 0

/-- PUSHF (R87, R88). -/
def execPushf (a : SReg) (fifo : Fin 32) (g : Bool) (s : State) : Res :=
  s.issueS (.pushf a fifo g) (fun t => t.acquirePending || t.me.pushWaits fifo.val) fun t =>
    .next ((t.setMe (·.push fifo.val (t.readS 1 a))).finishS 1)

end Sys2Proof.Machine
end

