-- ==== Sys2Proof/Machine/Cmds.lean ====
section
/-! DEFINITION. The fields of the 128-byte record of an engine command (spec/06 R148 to R156). -/

namespace Sys2Proof.Machine


/-- Word k of the record, as a number. -/
def Cmd.w (c : Cmd) (k : Nat) : Nat := ((c.raw.toList[k]?).getD 0).toNat

/-! ### HDR and PMAP (R149, R150) -/

def Cmd.kind (c : Cmd) : Nat := c.w 0 % 256
def Cmd.ver (c : Cmd) : Nat := bitsOf (c.w 0) 15 8
def Cmd.lateBit (c : Cmd) : Bool := (c.w 0).testBit 16
def Cmd.trapf (c : Cmd) : Bool := (c.w 0).testBit 17
def Cmd.doneBit (c : Cmd) : Bool := (c.w 0).testBit 18
def Cmd.oobf (c : Cmd) : Bool := (c.w 0).testBit 19
def Cmd.patch (c : Cmd) : Nat := bitsOf (c.w 0) 31 24
/-- R150: the flag of a field index. -/
def Cmd.flag (c : Cmd) (i : Nat) : Nat := c.w 1 / 4 ^ i % 4
def Cmd.has (c : Cmd) (i : Nat) : Bool := c.flag i == 1 || c.flag i == 2
/-- R148: the word of a field, or d when it is absent. -/
def Cmd.field (c : Cmd) (i k d : Nat) : Nat := if c.has i then c.w k else d

/-! ### Fields (R148, R152, R153, R155) -/

def Cmd.waitMask (c : Cmd) : Nat := if c.has 0 then c.w 2 % 2 ^ 32 else 0
def Cmd.signalMask (c : Cmd) : Nat := if c.has 1 then c.w 2 / 2 ^ 32 else 0
def Cmd.stamp (c : Cmd) : Option Nat := if c.has 2 then some (c.w 3) else none
/-- The endpoint of TYPE none. -/
def noEp : Nat := 7 * 2 ^ 60
def Cmd.ep0 (c : Cmd) : Nat := c.field 3 4 noEp
def Cmd.ep1 (c : Cmd) : Nat := c.field 4 5 noEp
/-- R152: SIZE and STRIDE of a dimension. -/
def Cmd.dim (c : Cmd) (k : Nat) : Nat × Int :=
  if c.has (5 + k) then (c.w (6 + k) % 2 ^ 32, toSigned 32 (c.w (6 + k) / 2 ^ 32)) else (1, 0)
def Cmd.size (c : Cmd) (k : Nat) : Nat := (c.dim k).1
def Cmd.stride (c : Cmd) (k : Nat) : Int := (c.dim k).2
def Cmd.fmtW (c : Cmd) : Nat := c.field 9 10 0
def Cmd.aux0 (c : Cmd) : Nat := c.field 10 11 0
def Cmd.aux1 (c : Cmd) : Nat := c.field 11 12 0
def Cmd.bind (c : Cmd) : Word := BitVec.ofNat 64 (c.field 12 13 0)
def Cmd.cursorW (c : Cmd) : Nat := c.field 13 14 0
/-- R155: BIND with V = 1. -/
def Cmd.bound (c : Cmd) : Bool := c.bind.getLsbD 63
def Cmd.efmtCode (c : Cmd) : Nat := c.fmtW % 256
def Cmd.efmt (c : Cmd) : Fmt := (Fmt.ofEfmt c.efmtCode).getD .octet
def Cmd.op (c : Cmd) : Nat := bitsOf c.fmtW 23 16
def Cmd.rm (c : Cmd) : Nat := bitsOf c.fmtW 26 24
def Cmd.sat (c : Cmd) : Bool := c.fmtW.testBit 27
def Cmd.ftz (c : Cmd) : Bool := c.fmtW.testBit 28
def Cmd.filter (c : Cmd) : Nat := bitsOf c.fmtW 39 32
def Cmd.vc (c : Cmd) : Nat := bitsOf c.fmtW 42 40
def Cmd.padv (c : Cmd) : Nat := bitsOf c.fmtW 63 48
/-- R152: the element count. -/
def Cmd.count (c : Cmd) : Nat := c.size 0 * c.size 1 * c.size 2 * c.size 3
/-- R168: the initial count I of an SREC. -/
def Cmd.initial (c : Cmd) : Nat := c.aux0 % 16
/-- R167, R174: the link of AUX1: its command, if it is valid. -/
def Cmd.link (c : Cmd) : Option Nat := if c.aux1.testBit 16 then some (c.aux1 % 65536) else none

/-! ### Endpoints (R151) -/

def epType (e : Nat) : Nat := e / 2 ^ 60
def epRegion (e : Nat) : Nat := bitsOf e 59 56
def epOff (e : Nat) : Nat := e % 2 ^ 48
def epPort (e : Nat) : Nat := e % 256
def epCpl (e : Nat) : Bool := e.testBit 8
def epFifo (e : Nat) : Nat := e % 16
/-- R151: reserved bits of an endpoint are zero. -/
def epReservedOk (e : Nat) : Bool :=
  match epType e with
  | 0 => bitsOf e 55 48 == 0
  | 1 => bitsOf e 59 48 == 0
  | 2 => bitsOf e 59 9 == 0
  | 3 => bitsOf e 59 4 == 0
  | 4 => bitsOf e 28 0 == 0 && !e.testBit 48
  | 5 => bitsOf e 59 4 == 0
  | 6 => e % 2 ^ 60 == 0
  | 7 => e % 2 ^ 60 == 0
  | _ => true
/-- A remote port: its package, whether it names its own, its slot by ctxid, its port and plane. -/
def epPkg (e : Nat) : Nat := bitsOf e 59 50
def epOwn (e : Nat) : Bool := e.testBit 49
def epCtx (e : Nat) : Nat := bitsOf e 47 38 * 4 + bitsOf e 37 36
def epRemotePort (e : Nat) : Nat := bitsOf e 35 30
def epRemoteCpl (e : Nat) : Bool := e.testBit 29

/-- The final endpoint of an SREC, and the return endpoint of an SATM (R165). -/
def Cmd.ep2 (c : Cmd) : Nat :=
  if c.kind = 5 then c.aux1 else if c.kind = 0x0A ∧ c.has 10 then c.aux0 else noEp
/-- The endpoints that a command uses, with whether each is a source. -/
def Cmd.ends (c : Cmd) : List (Nat × Bool) := [(c.ep0, true), (c.ep1, false), (c.ep2, false)]
/-- R179: the command names a windrow. -/
def Cmd.namesWindrow (c : Cmd) (id : Nat) : Bool :=
  c.ends.any fun (e, _) => epType e == 5 && epFifo e == id

end Sys2Proof.Machine
end

