-- ==== Sys2Proof/Machine/Access.lean ====
section
/-! DEFINITION. Granules of atomic sets, and the restart of a wounded task (spec/17 R395, R397, R405, R406). -/

namespace Sys2Proof.Machine

/-! ### Granules (R395, R397) -/

/-- R395: the set and granule of a region byte. -/
def Decl.granuleOf (d : Decl) (region b : Nat) : Option (Nat × Nat) :=
  ((List.range 8).filterMap fun j =>
    match (d.sets[j]?).getD none with
    | some t =>
      if t.region = region ∧ t.base ≤ b ∧ b < t.base + t.count * 2 ^ t.log2g then some (j, (b - t.base) / 2 ^ t.log2g) else none
    | none => none).head?
/-- R395: the first byte of a granule, in its region. -/
def DeclSet.first (t : DeclSet) (g : Nat) : Nat := t.base + g * 2 ^ t.log2g

/-! ### Restart (R405, R406) -/

/-- R388: a task enters the queue of its class at a die, at the front or at the tail. -/
def Die.putTask (d : Die) (front : Bool) (w : Waiting) : Die :=
  { d with queues := lmod w.task.pkt.cls (fun q => if front then w :: q else q ++ [w]) d.queues }
/-- R406: the task as it waits for its restart. -/
def Task.restarted (t : Task) (source : Word) : Task :=
  { t with
    restarts := min 0xFFFF (t.restarts + 1)
    wounder := some source.toNat }
/-- What a wounded task loses, wherever it stands: its updates, its notices, its waiting requests, its encode reservations and then
its granules. -/
def State.loseTask (s : State) (age : Word) : State :=
  let s := (((s.freeEncodes age).withdrawNotices age).withdrawWaits age).releaseGranules age
  { s with
    wounds := s.wounds.filter fun w => w.age != age
    patches := s.patches.filter fun p => p.age != age }
/-- R405, R406: the running task of a slot is wounded: it is queued at the front of its class. -/
def State.restartTask (s : State) (ctx : Nat) (source : Word) : State :=
  match (s.slotAt ctx).task with
  | none => s
  | some t =>
    let s := (((s.dropUpdates ctx).loseTask t.age).orphan ctx).setSlot ctx fun l => l.vacate (s.acOf ctx)
    s.setDie (dieOf (nodeOf ctx)) (·.putTask true { task := t.restarted source, left := ctx, since := s.stc })
/-- R335: a task whose journal cannot be read restarts as a wound restarts it, in supervisor mode after TRET (R118); the wounding age is
unstated (log 20). -/
def State.restartUnread (s : State) (ctx : Nat) : State :=
  if (s.slotAt ctx).core.sup then s.unreadWound ctx
  else { s.restartTask ctx (Config.freeWord s.draws) with draws := s.draws + 1 }
/-- R335, R409: a word that issues reads tile store; where the journal cannot be read the task restarts, and in supervisor mode the word reads
zeros and the task restarts after TRET. -/
def State.readTile (s : State) (go : State → Res) : Res :=
  if !s.me.tileUnread then go s
  else if s.core.sup then go (s.unreadWound s.cur)
  else .next (s.restartUnread s.cur)

end Sys2Proof.Machine
end

