-- ==== Sys2Proof/Machine/MHead.lean ====
section
/-! DEFINITION. The instructions of the M head (spec/06 R163 to R182). -/

namespace Sys2Proof.Machine

/-! ### Building a record (R164) -/

/-- Word k of a record with its low n bits, or with bits from n up, replaced. -/
def Vector.setLow (v : Vector Word 16) (k : Fin 16) (n x : Nat) : Vector Word 16 :=
  v.set k (BitVec.ofNat 64 ((v[k]).toNat / 2 ^ n * 2 ^ n + x % 2 ^ n))
def Vector.setHigh (v : Vector Word 16) (k : Fin 16) (n x : Nat) : Vector Word 16 :=
  v.set k (BitVec.ofNat 64 ((v[k]).toNat % 2 ^ n + x * 2 ^ n))
/-- The PMAP flag of a field becomes 10. -/
def setFlag (v : Vector Word 16) (i : Nat) : Vector Word 16 :=
  let m := (v[1]).toNat
  v.set 1 (BitVec.ofNat 64 (m - m / 4 ^ i % 4 * 4 ^ i + 2 * 4 ^ i))
/-- R164: Patch. -/
def patchField (v : Vector Word 16) (i : Nat) (x : Word) : Vector Word 16 :=
  let n := x.toNat
  match i with
  | 0 => Vector.setLow v 2 32 n
  | 1 => Vector.setHigh v 2 32 (n % 2 ^ 32)
  | 2 => v.set 3 x
  | 3 => Vector.setLow v 4 48 n
  | 4 => Vector.setLow v 5 48 n
  | 5 => Vector.setLow v 6 32 n
  | 6 => Vector.setLow v 7 32 n
  | 7 => Vector.setLow v 8 32 n
  | 8 => Vector.setLow v 9 32 n
  | 10 => v.set 11 x
  | 11 => v.set 12 x
  | 12 => v.set 13 x
  | 13 => v.set 14 x
  | _ => v
/-- R164: the KIND that an instruction writes. -/
def setKind (k : Nat) (v : Vector Word 16) : Vector Word 16 := Vector.setLow v 0 8 k
/-- R164: the patch that B gives, if PATCH names a field. -/
def applyPatch (x : Word) (v : Vector Word 16) : Vector Word 16 :=
  let p := (v[0]).toNat / 2 ^ 24 % 256
  if p ≤ 13 then setFlag (patchField v p x) p else v
/-- R164: the link to the command that an h register names. -/
def applyLink (h : BitVec 32) (v : Vector Word 16) : Vector Word 16 :=
  setFlag (v.set 12 (BitVec.ofNat 64 (bitIf (h.getLsbD 31) 16 + h.toNat % 65536))) 11
/-- R164: FMT[28:24] from the prefix. -/
def applyMods (a : Option Arm) (v : Vector Word 16) : Vector Word 16 :=
  let m := match a with
    | some a => bitIf a.ftz 4 + bitIf a.sat 3 + a.rm % 8
    | none => 0
  let f := (v[10]).toNat
  v.set 10 (BitVec.ofNat 64 (f - f / 2 ^ 24 % 32 * 2 ^ 24 + m * 2 ^ 24))
/-- R164: AUX0 or AUX1 written whole. -/
def setAux0 (x : Word) (v : Vector Word 16) : Vector Word 16 := setFlag (v.set 11 x) 10
def setAux1 (x : Word) (v : Vector Word 16) : Vector Word 16 := setFlag (v.set 12 x) 11

/-- The record at a tile-store offset. -/
def Slot.recordAt (l : Slot) (t : Nat) : Vector Word 16 :=
  Vector.ofFn fun k => BitVec.ofNat 64 (l.viewLE (t + 8 * k.val) 8)
/-- R164: a template's offset. -/
def templateOk (t : Word) : Bool := t.toNat % 64 == 0 && decide (t.toNat + 128 ≤ 524288)
/-- R157: the handle of a command. -/
def handle (seq : BitVec 16) : BitVec 32 := BitVec.ofNat 32 (2 ^ 31 + seq.toNat)

/-- R164: an M word that queues a stream command: it reads its template, edits the record, and waits while the queue is full. -/
def State.queueStream (s : State) (i : Instr) (d : HReg) (a : SReg) (edit : Core → Vector Word 16 → Vector Word 16) : Res :=
  s.issueX .m i fun s =>
    let t := s.core.getS a
    if !templateOk t then .next (s.syncTrap .m 0x06 t)
    else if queueDepth ≤ s.me.eng.queue.length then .next s
    else s.readTile fun s =>
      let ws := edit s.core (s.me.recordAt t.toNat)
      let h := handle s.core.seqM
      .next ((s.setMe fun l => (l.queueM ws 1).setCore fun c => { c with hreg := c.hreg.set d h }).finishX .m (words i))

/-- SAFF (R164, R166). -/
def execSaff (d : HReg) (a : SReg) (b : SReg) (g : Bool) (s : State) : Res :=
  s.queueStream (.saff d a b g) d a fun c v => applyPatch (c.getS b) (setKind 0x01 v)

/-- SAFFW (R164, R166). -/
def execSaffw (d : HReg) (a : SReg) (b : SReg) (g : Bool) (s : State) : Res :=
  s.queueStream (.saffw d a b g) d a fun c v => applyPatch (c.getS b) (setKind 0x02 v)

/-- SIND (R164, R167). -/
def execSind (d : HReg) (a : SReg) (b : HReg) (g : Bool) (s : State) : Res :=
  s.queueStream (.sind d a b g) d a fun c v => applyLink (c.hreg[b]) (setKind 0x03 v)

/-- SINDW (R164, R167). -/
def execSindw (d : HReg) (a : SReg) (b : HReg) (g : Bool) (s : State) : Res :=
  s.queueStream (.sindw d a b g) d a fun c v => applyLink (c.hreg[b]) (setKind 0x04 v)

/-- SREC (R164, R168). -/
def execSrec (d : HReg) (a : SReg) (b : SReg) (g : Bool) (s : State) : Res :=
  s.queueStream (.srec d a b g) d a fun c v => applyPatch (c.getS b) (setKind 0x05 v)

/-- SFILL (R164, R169). -/
def execSfill (d : HReg) (a : SReg) (b : SReg) (imm : BitVec 32) (g : Bool) (s : State) : Res :=
  s.queueStream (.sfill d a b imm g) d a fun c v =>
    setAux0 (imm.zeroExtend 64) (applyPatch (c.getS b) (setKind 0x06 v))

/-- SMC (R164, R170). -/
def execSmc (d : HReg) (a : SReg) (b : SReg) (g : Bool) (s : State) : Res :=
  s.queueStream (.smc d a b g) d a fun c v => applyPatch (c.getS b) (setKind 0x07 v)

/-- SGROW (R164, R167). -/
def execSgrow (d : HReg) (a : SReg) (b : HReg) (g : Bool) (s : State) : Res :=
  s.queueStream (.sgrow d a b g) d a fun c v => applyLink (c.hreg[b]) (setKind 0x08 v)

/-- SRED (R164, R171): FMT takes the prefix's modifiers. -/
def execSred (d : HReg) (a : SReg) (b : SReg) (g : Bool) (s : State) : Res :=
  s.queueStream (.sred d a b g) d a fun c v => applyMods c.arm (applyPatch (c.getS b) (setKind 0x09 v))

/-- SATM (R164, R171): FMT takes the prefix's modifiers. -/
def execSatm (d : HReg) (a : SReg) (b : SReg) (g : Bool) (s : State) : Res :=
  s.queueStream (.satm d a b g) d a fun c v => applyMods c.arm (applyPatch (c.getS b) (setKind 0x0A v))

/-- SCPY (R164, R172). -/
def execScpy (d : HReg) (a : SReg) (b : SReg) (g : Bool) (s : State) : Res :=
  s.queueStream (.scpy d a b g) d a fun c v => applyPatch (c.getS b) (setKind 0x0B v)

/-- SBAR (R164, R173). -/
def execSbar (d : HReg) (a : SReg) (b : SReg) (g : Bool) (s : State) : Res :=
  s.queueStream (.sbar d a b g) d a fun c v => applyPatch (c.getS b) (setKind 0x0C v)

/-- STAP (R164, R174). -/
def execStap (d : HReg) (a : SReg) (b : HReg) (g : Bool) (s : State) : Res :=
  s.queueStream (.stap d a b g) d a fun c v => applyLink (c.hreg[b]) (setKind 0x0D v)

/-- SFILT (R164, R175). -/
def execSfilt (d : HReg) (a : SReg) (b : SReg) (g : Bool) (s : State) : Res :=
  s.queueStream (.sfilt d a b g) d a fun c v => applyPatch (c.getS b) (setKind 0x0E v)

/-- SMETA (R164, R166). -/
def execSmeta (d : HReg) (a : SReg) (b : SReg) (g : Bool) (s : State) : Res :=
  s.queueStream (.smeta d a b g) d a fun c v => applyPatch (c.getS b) (setKind 0x0F v)

/-- STOK (R164, R176): B is its payload. -/
def execStok (d : HReg) (a : SReg) (b : SReg) (imm : BitVec 32) (g : Bool) (s : State) : Res :=
  s.queueStream (.stok d a b imm g) d a fun c v =>
    setAux1 (imm.zeroExtend 64) (setAux0 (c.getS b) (setKind 0x10 v))

/-- SDESC (R177): the template's own KIND. -/
def execSdesc (d : HReg) (a : SReg) (b : SReg) (g : Bool) (s : State) : Res :=
  s.queueStream (.sdesc d a b g) d a fun c v => applyPatch (c.getS b) v

/-! ### Windrows (R178, R179) -/

/-- A declared windrow of the slot. -/
def Core.windrow (c : Core) (id : Nat) : Option Windrow := aget none id (c.windrows.map fun (k, w) => (k, some w))
def Core.setWindrow (c : Core) (id : Nat) (w : Windrow) : Core := { c with windrows := aset id w c.windrows }
/-- R179: a queued or in-flight command names the windrow. -/
def Slot.windrowNamed (l : Slot) (id : Nat) : Bool :=
  l.eng.queue.any (·.namesWindrow id) || l.eng.flying.any (·.namesWindrow id)
/-- R179: the base is aligned, the area lies in the share, and it overlaps no other declared windrow. -/
def Core.windrowOk (c : Core) (id base area : Nat) : Bool :=
  base % 64 == 0 && decide (base + area ≤ 524288) &&
    c.windrows.all fun (k, w) =>
      k == id || decide (base + area ≤ w.base) || decide (w.base + w.size * w.count ≤ base)
/-- R178: n counts go from FILLED to FREE, and RP advances. -/
def Windrow.take (w : Windrow) (n : Nat) : Windrow :=
  { w with
    filled := w.filled - n
    free := w.free + n
    rp := (w.rp + n) % w.count }
/-- R178: n counts go from FREE to FILLED, and WP advances. -/
def Windrow.give (w : Windrow) (n : Nat) : Windrow :=
  { w with
    free := w.free - n
    filled := w.filled + n
    wp := (w.wp + n) % w.count }

/-- SWIN decl (R179). -/
def execSwinDecl (d : Sys2Proof.Windrow) (a : SReg) (cnt : Fin 256) (sz : Fin 2048) (g : Bool) (s : State) : Res :=
  let i : Instr := .swinDecl d a cnt sz g
  s.issueX .m i fun s =>
    let base := s.core.getS a
    let size := 64 * sz.val
    let count := cnt.val + 1
    if !s.core.windrowOk d.val base.toNat (size * count) then .next (s.syncTrap .m 0x06 base)
    else if s.me.windrowNamed d.val then .next s
    else
      let w : Windrow := { base := base.toNat, size := size, count := count, free := count, filled := 0, wp := 0, rp := 0 }
      .next ((s.setCore (·.setWindrow d.val w)).finishX .m (words i))

/-- SWIN take (R179). -/
def execSwinTake (d : Sys2Proof.Windrow) (cnt : Fin 256) (g : Bool) (s : State) : Res :=
  let i : Instr := .swinTake d cnt g
  s.issueX .m i fun s =>
    match s.core.windrow d.val with
    | none => .next (s.syncTrap .m 0x06 (BitVec.ofNat 64 d.val))
    | some w =>
      if w.filled < cnt.val + 1 then .next s
      else .next ((s.setCore (·.setWindrow d.val (w.take (cnt.val + 1)))).finishX .m (words i))

/-- SWIN give (R179). -/
def execSwinGive (d : Sys2Proof.Windrow) (cnt : Fin 256) (g : Bool) (s : State) : Res :=
  let i : Instr := .swinGive d cnt g
  s.issueX .m i fun s =>
    match s.core.windrow d.val with
    | none => .next (s.syncTrap .m 0x06 (BitVec.ofNat 64 d.val))
    | some w =>
      if w.free < cnt.val + 1 then .next s
      else .next ((s.setCore (·.setWindrow d.val (w.give (cnt.val + 1)))).finishX .m (words i))

/-! ### Closing and querying (R180, R181) -/

/-- R180: the command of an ordinal is to end at its next element boundary; one that has retired is not touched. -/
def StreamEng.close (e : StreamEng) (seq : Nat) : StreamEng :=
  let mark (c : Cmd) : Cmd := if c.seq = seq then { c with closing := true } else c
  { e with
    queue := e.queue.map mark
    flying := e.flying.map mark }

/-- SCLOSE (R180). -/
def execSclose (d : HReg) (g : Bool) (s : State) : Res :=
  s.issueX .m (.sclose d g) fun s =>
    let h := s.core.hreg[d]
    let s := if h.getLsbD 31 then s.setMe fun l => { l with eng := l.eng.close (h.toNat % 65536) } else s
    .next (s.finishX .m 1)

/-- R181: the status of the command that an ordinal names; the engine keeps the last 64 that have retired. -/
def StreamEng.statusOf (e : StreamEng) (seq : Nat) : Option Word :=
  match (e.queue ++ e.flying).find? fun c => c.seq == seq with
  | some c => some c.status
  | none => (e.retired.find? fun (k, _) => k == seq).map (·.2)
/-- R181: STATE unknown. -/
def unknownStatus (seq : Nat) : Word := BitVec.ofNat 64 (seq % 65536 * 2 ^ 46 + 7 * 2 ^ 32)

/-- SQRY of a command (R181). -/
def execSqryCommand (d : HReg) (g : Bool) (s : State) : Res :=
  s.issueX .m (.sqryCommand d g) fun s =>
    if !s.core.stsRoom then .next s
    else
      let h := s.core.hreg[d]
      let seq := h.toNat % 65536
      let st := if h.getLsbD 31 then (s.me.eng.statusOf seq).getD (unknownStatus seq) else unknownStatus seq
      .next ((s.setCore (·.postSts st)).finishX .m 1)

/-- SQRY of a windrow (R181). -/
def execSqryWindrow (d : Sys2Proof.Windrow) (g : Bool) (s : State) : Res :=
  s.issueX .m (.sqryWindrow d g) fun s =>
    if !s.core.stsRoom then .next s
    else .next ((s.setCore fun c => c.postSts (windrowStatus d.val (c.windrow d.val))).finishX .m 1)

end Sys2Proof.Machine
end

