-- ==== Sys2Proof/Machine/AHead.lean ====
section
/-! DEFINITION. The instructions of the A head (spec/08 R216 to R219, R229 to R235). -/

namespace Sys2Proof.Machine

/-- R148: the word of a record that holds a field index from 2 on. -/
def fieldWord (i : Nat) : Nat := i + 1
/-- R217: a field is filled and flagged 10. -/
def fill (v : Vector Word 16) (i : Nat) (x : Word) : Vector Word 16 := setFlag (v.set (Fin.ofNat 16 (fieldWord i)) x) i
/-- R217: HDR of a record that the A head builds: KIND, VER, TRAPF and PATCH. -/
def engineHdr (kind : Nat) : Word := BitVec.ofNat 64 (kind + 2 ^ 8 + 2 ^ 17 + 0xFF * 2 ^ 24)
/-- R217: the record, with its masks and its filled fields. -/
def engineRecord (kind : Nat) (masks : Word) (fields : List (Nat × Word)) : Vector Word 16 :=
  let v : Vector Word 16 := (Vector.replicate 16 0).set 0 (engineHdr kind)
  fields.foldl (fun v (i, x) => fill v i x) (setFlag (setFlag (v.set 2 masks) 0) 1)

/-- R217, R218: an A word that queues a command: its operands are checked, then it waits while its queue is full. -/
def State.queueEngine (s : State) (i : Instr) (b : SReg) (kind : Nat) (check : State → Option (Nat × Word))
    (fields : State → List (Nat × Word)) : Res :=
  s.issueX .a i fun s =>
    match check s with
    | some (cause, v) => .next (s.syncTrap .a cause v)
    | none =>
      let enc := decide (0x80 ≤ kind)
      if queueDepth ≤ s.me.queueLoad enc then .next s
      else
        let queue (s : State) : Res :=
          let ws := engineRecord kind (s.core.getS b) (fields s)
          .next ((s.setMe fun l => if enc then l.queueCE ws 2 else l.queueCA ws 2).finishX .a (words i))
        if kind = 0x81 then s.readTile queue else queue s

/-- R218: a tile-store offset. -/
def checkTile (a : SReg) (s : State) : Option (Nat × Word) :=
  let o := s.core.getS a
  if o.toNat % 64 ≠ 0 ∨ 524288 < o.toNat + 128 then some (0x06, o) else none
/-- R218, R219: bits of s[A] that must be zero. -/
def checkZero (a : SReg) (ok : Nat → Bool) (s : State) : Option (Nat × Word) :=
  if ok (s.core.getS a).toNat then none else some (0x06, s.core.getS a)
/-- R50: `trapval` of a block check. -/
def blockTrapval (code off : Nat) : Word := BitVec.ofNat 64 (code % 256 + off % 2 ^ 32 * 2 ^ 32)
/-- R461: the code that makes a listed block unusable: that of the check it fails, or 0x05 where it cannot be placed. -/
def Listed.fault (b : Listed) : Option Nat :=
  match b.code with
  | some c => some c
  | none => if b.place.isNone then some 0x05 else none
def Slot.unusable (l : Slot) (off : Nat) : Option Nat := ((l.blocks.find? fun b => b.off == off).map (·.fault)).getD none
/-- R218: the block offset of an ACFG, an exact sum (R7). -/
def State.blockOffset (s : State) (a : SReg) (imm : BitVec 32) : Nat := (s.core.getS a).toNat + imm.toNat
/-- R218, R461: the block that an offset names fails one of checks 0x01 to 0x04, or is listed as unusable. -/
def State.blockFault (s : State) (ctx off : Nat) : Option Nat :=
  let l := s.slotAt ctx
  match headCheck (s.arenaByte ctx) l.core.arenabound.toNat off with
  | some c => some c
  | none => l.unusable off
def checkBlock (a : SReg) (imm : BitVec 32) (s : State) : Option (Nat × Word) :=
  let o := s.blockOffset a imm
  if o % 16 ≠ 0 then some (0x06, BitVec.ofNat 64 o)
  else if s.core.arenabound.toNat < o + 16 then some (0x03, BitVec.ofNat 64 o)
  else (s.blockFault s.cur o).map fun c => (0x07, blockTrapval c o)
/-- R218: the arena offset of a CHORD. -/
def checkSteps (a : SReg) (imm : BitVec 32) (s : State) : Option (Nat × Word) :=
  let o := s.core.getS a
  if o.toNat % 16 ≠ 0 then some (0x06, o)
  else if s.core.arenabound.toNat < o.toNat + 16 * (imm.toNat % 64) then some (0x03, o)
  else none
def checkNone (_ : State) : Option (Nat × Word) := none

/-- ACFG (R217, R218). -/
def execAcfg (a : SReg) (b : SReg) (imm : BitVec 32) (g : Bool) (s : State) : Res :=
  s.queueEngine (.acfg a b imm g) b 0x40 (checkBlock a imm) fun s => [(10, BitVec.ofNat 64 (s.blockOffset a imm))]

/-- ARUN (R217). -/
def execArun (b : SReg) (g : Bool) (s : State) : Res :=
  s.queueEngine (.arun b g) b 0x41 checkNone fun _ => []

/-- ADRN (R217). -/
def execAdrn (b : SReg) (g : Bool) (s : State) : Res :=
  s.queueEngine (.adrn b g) b 0x42 checkNone fun _ => []

/-- AQUI (R217). -/
def execAqui (k : Bool) (b : SReg) (g : Bool) (s : State) : Res :=
  s.queueEngine (.aqui k b g) b 0x43 checkNone fun _ => [(10, if k then 1 else 0)]

/-- AMRK (R217, R219). -/
def execAmrk (a : SReg) (b : SReg) (g : Bool) (s : State) : Res :=
  s.queueEngine (.amrk a b g) b 0x44 (checkZero a fun v => v / 2 ^ 48 == 0) fun s => [(10, s.core.getS a)]

/-- APRT (R217, R219). -/
def execAprt (a : SReg) (b : SReg) (g : Bool) (s : State) : Res :=
  s.queueEngine (.aprt a b g) b 0x45 (checkZero a fun v => v / 128 == 0) fun s => [(10, s.core.getS a)]

/-- CHBD (R229): the value is trapped outside 1 to 1,024. -/
def execChbd (d : BdReg) (a : SReg) (g : Bool) (s : State) : Res :=
  s.issueX .a (.chbd d a g) fun s =>
    let v := s.core.getS a
    if v.toNat < 1 ∨ 1024 < v.toNat then .next (s.syncTrap .a 0x06 v)
    else .next ((s.setCore fun c => { c with bdreg := c.bdreg.set d (v.truncate 16) }).finishX .a 1)

/-- CHORD (R217, R230). -/
def execChord (a : SReg) (b : SReg) (imm : BitVec 32) (g : Bool) (s : State) : Res :=
  s.queueEngine (.chord a b imm g) b 0x48 (checkSteps a imm) fun s => [(10, s.core.getS a), (11, imm.zeroExtend 64)]

/-- R219: DIMk of a CRUN from the bond registers. -/
def bondDim (c : Core) (k : Fin 4) : Word :=
  let at' (j : Nat) : Nat := ((c.bdreg.toList[j]?).getD 0).toNat
  BitVec.ofNat 64 (at' (2 * k.val) + at' (2 * k.val + 1) * 65536)
/-- R219: AUX0 of a CRUN: the step range and KEEP from s[A], with the prefix's RM and FTZ. -/
def runAux (c : Core) (a : SReg) : Word :=
  let m := match c.arm with
    | some p => p.rm % 8 * 2 ^ 24 + bitIf p.ftz 28
    | none => 0
  BitVec.ofNat 64 ((c.getS a).toNat + m)

/-- CHRUN (R217, R219). -/
def execChrun (a : SReg) (b : SReg) (g : Bool) (s : State) : Res :=
  s.queueEngine (.chrun a b g) b 0x49
    (checkZero a fun v => v / 2 ^ 17 == 0 && bitsOf v 15 13 == 0 && bitsOf v 7 5 == 0) fun s =>
    [(5, bondDim s.core 0), (6, bondDim s.core 1), (7, bondDim s.core 2), (8, bondDim s.core 3), (10, runAux s.core a)]

/-- CHSV (R217, R218). -/
def execChsv (a : SReg) (b : SReg) (g : Bool) (s : State) : Res :=
  s.queueEngine (.chsv a b g) b 0x4A (checkTile a) fun s => [(10, s.core.getS a)]

/-- CHLD (R217, R218). -/
def execChld (a : SReg) (b : SReg) (g : Bool) (s : State) : Res :=
  s.queueEngine (.chld a b g) b 0x4B (checkTile a) fun s => [(10, s.core.getS a)]

/-- ENCO (R217, R233). -/
def execEnco (ch : Fin 4) (a : SReg) (b : SReg) (g : Bool) (s : State) : Res :=
  s.queueEngine (.enco ch a b g) b 0x80 (checkTile a) fun s => [(10, BitVec.ofNat 64 ch.val), (11, s.core.getS a)]

/-- ENCF (R217, R235): STAMP and BIND from the descriptor. -/
def execEncf (ch : Fin 4) (a : SReg) (b : SReg) (g : Bool) (s : State) : Res :=
  s.queueEngine (.encf ch a b g) b 0x81 (checkTile a) fun s =>
    let o := (s.core.getS a).toNat
    let w0 := s.word s.cur o
    let w1 := s.word s.cur (o + 8)
    (if w0 = 0 then [] else [(2, w0)]) ++ (if w1.getLsbD 63 then [(12, w1)] else [])
      ++ [(10, BitVec.ofNat 64 ch.val), (11, BitVec.ofNat 64 o)]

/-- ENCC (R217, R234). -/
def execEncc (ch : Fin 4) (b : SReg) (g : Bool) (s : State) : Res :=
  s.queueEngine (.encc ch b g) b 0x82 checkNone fun _ => [(10, BitVec.ofNat 64 ch.val)]

end Sys2Proof.Machine
end

