-- ==== Sys2Proof/Machine/Crypto.lean ====
section
/-! DEFINITION. The algorithms that R470 and R471 name by their standards and do not repeat: SHA-384 and SHA-512 (FIPS 180-4), SHAKE
(FIPS 202), and the verification of Ed25519 (RFC 8032) and of ML-DSA-65 (FIPS 204), taken from those standards (PRESUMED, log 49). -/

namespace Sys2Proof.Machine.Crypto

/-! ### Numbers and bytes -/

/-- A number from its bytes, the last one most significant. -/
def leNat : List Byte → Nat
  | [] => 0
  | b :: bs => b.toNat + 256 * leNat bs
def beNat (bs : List Byte) : Nat := leNat bs.reverse
/-- n bytes of a number, the least significant first. -/
def leBytes : Nat → Nat → List Byte
  | 0, _ => []
  | n + 1, v => BitVec.ofNat 8 v :: leBytes n (v / 256)
def beBytes (n v : Nat) : List Byte := (leBytes n v).reverse
/-- The first k pieces of n elements each. -/
def pieces {α : Type} (n : Nat) : Nat → List α → List (List α)
  | 0, _ => []
  | k + 1, xs => xs.take n :: pieces n k (xs.drop n)
/-- b^e modulo m, for an exponent of at most so many bits. -/
def powMod (b m : Nat) : Nat → Nat → Nat
  | 0, _ => 1 % m
  | k + 1, e =>
    let h := powMod b m k (e / 2)
    if e % 2 = 1 then h * h % m * b % m else h * h % m
/-- The greatest number at or above r whose k-th power is at most n, where it differs from r in the low bits only. -/
def root (k n : Nat) : Nat → Nat → Nat
  | 0, r => r
  | b + 1, r => root k n b (if (r + 2 ^ b) ^ k ≤ n then r + 2 ^ b else r)

/-! ### SHA-2 with words of 64 bits (FIPS 180-4) -/

def isPrime (n : Nat) : Bool := decide (2 ≤ n) && (List.range n).all fun d => decide (d < 2) || n % d != 0
/-- The first 80 primes. -/
def primes : List Nat := (List.range 410).filter isPrime
/-- The first 64 bits of the fraction of the k-th root of n. -/
def rootBits (k n : Nat) : Word := BitVec.ofNat 64 (root k (n * 2 ^ (64 * k)) 72 0)
/-- The constants of the rounds, and the first hash values of SHA-512 and SHA-384. -/
def roundConstants : List Word := primes.map (rootBits 3)
def start512 : List Word := (primes.take 8).map (rootBits 2)
def start384 : List Word := ((primes.drop 8).take 8).map (rootBits 2)

def bigSigma0 (x : Word) : Word := x.rotateRight 28 ^^^ x.rotateRight 34 ^^^ x.rotateRight 39
def bigSigma1 (x : Word) : Word := x.rotateRight 14 ^^^ x.rotateRight 18 ^^^ x.rotateRight 41
def smallSigma0 (x : Word) : Word := x.rotateRight 1 ^^^ x.rotateRight 8 ^^^ x >>> 7
def smallSigma1 (x : Word) : Word := x.rotateRight 19 ^^^ x.rotateRight 61 ^^^ x >>> 6
/-- The message schedule, the last word first. -/
def schedule : Nat → List Word → List Word
  | 0, ws => ws
  | n + 1, ws =>
    let at' (k : Nat) : Word := (ws[k]?).getD 0
    schedule n ((smallSigma1 (at' 1) + at' 6 + smallSigma0 (at' 14) + at' 15) :: ws)
def shaRound (h : List Word) (kw : Word × Word) : List Word :=
  match h with
  | [a, b, c, d, e, f, g, h] =>
    let t1 := h + bigSigma1 e + ((e &&& f) ^^^ (~~~e &&& g)) + kw.1 + kw.2
    let t2 := bigSigma0 a + ((a &&& b) ^^^ (a &&& c) ^^^ (b &&& c))
    [t1 + t2, a, b, c, d + t1, e, f, g]
  | h => h
/-- One block of 128 bytes. -/
def shaBlock (h : List Word) (b : List Byte) : List Word :=
  let ws := (pieces 8 16 b).map fun w => BitVec.ofNat 64 (beNat w)
  let sched := (schedule 64 ws.reverse).reverse
  List.zipWith (· + ·) h ((roundConstants.zip sched).foldl shaRound h)
def sha2 (start : List Word) (m : List Byte) : List Byte :=
  let padded := m ++ [0x80] ++ List.replicate ((239 - m.length % 128) % 128) 0 ++ beBytes 16 (8 * m.length)
  ((pieces 128 (padded.length / 128) padded).foldl shaBlock start).flatMap fun w => beBytes 8 w.toNat
def sha512 (m : List Byte) : List Byte := sha2 start512 m
def sha384 (m : List Byte) : List Byte := (sha2 start384 m).take 48

/-! ### SHAKE (FIPS 202): lane (x, y) is word x + 5y -/

def lane (a : List Word) (x y : Nat) : Word := (a[x % 5 + 5 * (y % 5)]?).getD 0
def lanes (f : Nat → Nat → Word) : List Word := (List.range 25).map fun k => f (k % 5) (k / 5)
/-- The walk that gives the lanes their rotations. -/
def rhoWalk : Nat → Nat → Nat → Nat → List ((Nat × Nat) × Nat)
  | 0, _, _, _ => []
  | n + 1, t, x, y => ((x, y), (t + 1) * (t + 2) / 2 % 64) :: rhoWalk n (t + 1) y ((2 * x + 3 * y) % 5)
def rho (x y : Nat) : Nat := (((rhoWalk 24 0 1 0).find? fun e => e.1 == (x, y)).map (·.2)).getD 0
/-- The bits of the round constants: a shift register of eight bits. -/
def roundBit : Nat → Nat → Bool
  | 0, r => r.testBit 0
  | n + 1, r => roundBit n (if (2 * r).testBit 8 then (2 * r).xor 0x171 else 2 * r)
def roundConst (i : Nat) : Word :=
  (List.range 7).foldl (fun v j => if roundBit ((j + 7 * i) % 255) 1 then v ^^^ BitVec.ofNat 64 (2 ^ (2 ^ j - 1)) else v) 0
def keccakRound (a : List Word) (rc : Word) : List Word :=
  let c (x : Nat) : Word := lane a x 0 ^^^ lane a x 1 ^^^ lane a x 2 ^^^ lane a x 3 ^^^ lane a x 4
  let theta := lanes fun x y => lane a x y ^^^ c (x + 4) ^^^ (c (x + 1)).rotateLeft 1
  let turned := lanes fun x y => (lane theta (x + 3 * y) x).rotateLeft (rho ((x + 3 * y) % 5) x)
  let chi := lanes fun x y => lane turned x y ^^^ (~~~(lane turned (x + 1) y) &&& lane turned (x + 2) y)
  (lane chi 0 0 ^^^ rc) :: chi.drop 1
def keccak (a : List Word) : List Word := (List.range 24).foldl (fun a i => keccakRound a (roundConst i)) a
def absorb (a : List Word) (block : List Byte) : List Word :=
  keccak (List.zipWith (· ^^^ ·) a ((pieces 8 25 block).map fun w => BitVec.ofNat 64 (leNat w)))
def squeeze (rate : Nat) : Nat → List Word → List Byte
  | 0, _ => []
  | n + 1, a => ((a.flatMap fun w => leBytes 8 w.toNat).take rate) ++ squeeze rate n (keccak a)
/-- So many blocks of output of SHAKE with the rate in bytes. -/
def shakeBlocks (rate : Nat) (m : List Byte) (blocks : Nat) : List Byte :=
  let z := rate - 1 - m.length % rate
  let tail : List Byte := if z = 0 then [0x9F] else [0x1F] ++ List.replicate (z - 1) 0 ++ [0x80]
  let padded := m ++ tail
  squeeze rate blocks ((pieces rate (padded.length / rate) padded).foldl absorb (List.replicate 25 0))
def shake128 (m : List Byte) (n : Nat) : List Byte := (shakeBlocks 168 m (n / 168 + 1)).take n
def shake256 (m : List Byte) (n : Nat) : List Byte := (shakeBlocks 136 m (n / 136 + 1)).take n

/-! ### Ed25519 (RFC 8032, section 5.1) -/

def edP : Nat := 2 ^ 255 - 19
def edL : Nat := 2 ^ 252 + 27742317777372353535851937790883648493
def edInv (x : Nat) : Nat := powMod x edP 255 (edP - 2)
def edD : Nat := (edP - 121665) * edInv 121666 % edP
def edSub (a b : Nat) : Nat := (a + edP - b % edP) % edP
/-- A point in extended coordinates: X, Y, Z and T. -/
structure EdPoint where
  x : Nat
  y : Nat
  z : Nat
  t : Nat
  deriving DecidableEq, Repr
def edZero : EdPoint := ⟨0, 1, 1, 0⟩
def EdPoint.add (p q : EdPoint) : EdPoint :=
  let a := edSub p.y p.x * edSub q.y q.x % edP
  let b := (p.y + p.x) * (q.y + q.x) % edP
  let c := p.t * 2 * edD % edP * q.t % edP
  let d := p.z * 2 * q.z % edP
  let e := edSub b a
  let f := edSub d c
  let g := d + c
  let h := b + a
  ⟨e * f % edP, g * h % edP, f * g % edP, e * h % edP⟩
def EdPoint.mul (p : EdPoint) : Nat → Nat → EdPoint
  | 0, _ => edZero
  | k + 1, e =>
    let h := p.mul k (e / 2)
    let d := h.add h
    if e % 2 = 1 then d.add p else d
def EdPoint.same (p q : EdPoint) : Bool :=
  p.x * q.z % edP == q.x * p.z % edP && p.y * q.z % edP == q.y * p.z % edP
/-- The point with coordinate y, and x of the given least bit. -/
def edLift (y : Nat) (odd : Bool) : Option EdPoint :=
  let u := edSub (y * y) 1
  let v := (edD * (y * y % edP) + 1) % edP
  let r := u * powMod v edP 2 3 % edP * powMod (u * powMod v edP 3 7 % edP) edP 253 ((edP - 5) / 8) % edP
  let vr := v * (r * r % edP) % edP
  let x? : Option Nat := if vr = u then some r else if (vr + u) % edP = 0 then some (r * powMod 2 edP 253 ((edP - 1) / 4) % edP) else none
  match x? with
  | none => none
  | some x =>
    if edP ≤ y ∨ (x = 0 ∧ odd = true) then none
    else
      let x := if (x % 2 == 1) == odd then x else edP - x
      some ⟨x, y, 1, x * y % edP⟩
def edDecode (bs : List Byte) : Option EdPoint := edLift (leNat bs % 2 ^ 255) (decide (2 ^ 255 ≤ leNat bs))
def edBase : EdPoint := (edLift (4 * edInv 5 % edP) false).getD edZero
/-- Verification of a signature of 64 bytes under a key of 32, in the form with the cofactor. -/
def ed25519Ok (key m sig : List Byte) : Bool :=
  match edDecode key, edDecode (sig.take 32) with
  | some a, some r =>
    let n := leNat (sig.drop 32)
    let k := leNat (sha512 (sig.take 32 ++ key ++ m)) % edL
    key.length == 32 && sig.length == 64 && decide (n < edL) && ((edBase.mul 256 n).mul 4 8).same ((r.add (a.mul 256 k)).mul 4 8)
  | _, _ => false

/-! ### ML-DSA-65 (FIPS 204): a polynomial is the list of its 256 coefficients modulo q -/

def dsaQ : Nat := 8380417
def gamma1 : Nat := 2 ^ 19
def gamma2 : Nat := (dsaQ - 1) / 32
def dsaBeta : Nat := 196
/-- Fields of w bits of a byte string. -/
def bitFields (w : Nat) (bs : List Byte) : List Nat :=
  let v := leNat bs
  (List.range (8 * bs.length / w)).map fun k => v / 2 ^ (w * k) % 2 ^ w
/-- Numbers of w bits each as bytes. -/
def packBits (w : Nat) (xs : List Nat) : List Byte :=
  leBytes (w * xs.length / 8) (xs.foldr (fun x v => x % 2 ^ w + 2 ^ w * v) 0)
def rev8 (i : Nat) : Nat := (List.range 8).foldl (fun v k => 2 * v + i / 2 ^ k % 2) 0
/-- The value of a polynomial at x. -/
def polyAt (p : List Nat) (x : Nat) : Nat := p.foldr (fun c v => (c + x * v) % dsaQ) 0
/-- The exponent of the root of unity 1753 at which entry i of the transform stands. -/
def nttPower (i : Nat) : Nat := 2 * rev8 i + 1
def ntt (p : List Nat) : List Nat := (List.range 256).map fun i => polyAt p (powMod 1753 dsaQ 9 (nttPower i))
def invNtt (p : List Nat) : List Nat :=
  (List.range 256).map fun j =>
    ((List.range 256).zip p).foldl (fun v (i, c) => (v + c * powMod 1753 dsaQ 9 ((512 - nttPower i * j % 512) % 512)) % dsaQ) 0
      * powMod 256 dsaQ 23 (dsaQ - 2) % dsaQ
def polyMul (a b : List Nat) : List Nat := List.zipWith (fun x y => x * y % dsaQ) a b
def polyAdd (a b : List Nat) : List Nat := List.zipWith (fun x y => (x + y) % dsaQ) a b
def polySub (a b : List Nat) : List Nat := List.zipWith (fun x y => (x + dsaQ - y) % dsaQ) a b
/-- Algorithm 30: the entry of the public matrix for a row and a column, in the transform; eight blocks of the stream hold enough. -/
def matrixEntry (seed : List Byte) (row col : Nat) : List Nat :=
  let bytes := shake128 (seed ++ [BitVec.ofNat 8 col, BitVec.ofNat 8 row]) 1344
  (((pieces 3 448 bytes).map fun b => leNat b % 2 ^ 23).filter (· < dsaQ)).take 256
/-- Algorithm 29: 49 coefficients of 1 or -1 at places that the stream gives. -/
def ballFrom (signs : Nat) : Nat → Nat → List Byte → List Nat → List Nat
  | 0, _, _, c => c
  | _ + 1, _, [], c => c
  | n + 1, i, b :: bs, ball =>
    if i < b.toNat then ballFrom signs n i bs ball
    else
      let ball := (ball.set i ((ball[b.toNat]?).getD 0)).set b.toNat (if signs.testBit (i - 207) then dsaQ - 1 else 1)
      if i = 255 then ball else ballFrom signs n (i + 1) bs ball
def sampleInBall (seed : List Byte) : List Nat :=
  let bytes := shake256 seed 408
  ballFrom (leNat (bytes.take 8)) 400 207 (bytes.drop 8) (List.replicate 256 0)
/-- Algorithm 21: the places of the hints of each of six polynomials, if they ascend and nothing stands behind them. -/
def hintRows (y : List Nat) : Nat → Nat → Option (List (List Nat))
  | 0, first => if (y.take 55).drop first |>.all (· == 0) then some [] else none
  | n + 1, first =>
    let last := (y[60 - n]?).getD 0
    let row := (y.take last).drop first
    if last < first ∨ 55 < last ∨ !decide (row.Pairwise (· < ·)) then none else (hintRows y n last).map (row :: ·)
/-- Algorithm 40: a coefficient's high part as the hint says. -/
def useHint (hint : Bool) (r : Nat) : Nat :=
  let low := r % (2 * gamma2)
  let neg := decide (gamma2 < low)
  let top := if neg then r + 2 * gamma2 - low else r - low
  let r1 := if top = dsaQ - 1 then 0 else top / (2 * gamma2)
  let down := neg || low == 0 || top == dsaQ - 1
  if !hint then r1 else if down then (r1 + 15) % 16 else (r1 + 1) % 16
/-- A coefficient of z: below gamma1 - beta in magnitude. -/
def zSmall (v : Nat) : Bool := decide (v < gamma1 - dsaBeta) || decide (dsaQ - (gamma1 - dsaBeta) < v)
/-- Algorithms 3 and 8, with an empty context. -/
def mlDsa65Ok (key m sig : List Byte) : Bool :=
  let seed := key.take 32
  let t1 := (pieces 320 6 (key.drop 32)).map (bitFields 10)
  let challenge := sig.take 48
  let z := (pieces 640 5 (sig.drop 48)).map fun b => (bitFields 20 b).map fun v => (gamma1 + dsaQ - v) % dsaQ
  match hintRows ((sig.drop 3248).map (·.toNat)) 6 0 with
  | none => false
  | some hints =>
    let mu := shake256 (shake256 key 64 ++ [0, 0] ++ m) 64
    let c := ntt (sampleInBall challenge)
    let zs := z.map ntt
    let row (i : Nat) (t : List Nat) : List Nat :=
      let az := ((List.range 5).zip zs).foldl (fun v (j, p) => polyAdd v (polyMul (matrixEntry seed i j) p)) (List.replicate 256 0)
      invNtt (polySub az (polyMul c (ntt (t.map fun x => x * 2 ^ 13 % dsaQ))))
    let w1 := (((List.range 6).zip t1).zip hints).map fun ((i, t), h) =>
      ((List.range 256).zip (row i t)).map fun (k, r) => useHint (h.contains k) r
    key.length == 1952 && sig.length == 3309 && z.all (·.all zSmall)
      && shake256 (mu ++ w1.flatMap (packBits 4)) 48 == challenge

end Sys2Proof.Machine.Crypto
end

