-- ==== Sys2Proof/Machine/Place.lean ====
section
/-! DEFINITION. Where the slots of a block stand in a quadrant, and the block list of a task (spec/22 R460 to R463, spec/07 R184, spec/10
R267, R271). -/

namespace Sys2Proof.Machine

/-- R460, R462: the usable PEs of a slot's quadrant, in ascending index; PE p of slot k is part 64·k + p of its tile. -/
def State.usablePes (s : State) (ctx : Nat) : List Nat :=
  (List.range 64).filter fun p => !s.retired.contains (.pe (nodeOf ctx) (64 * planeOf ctx + p))
/-- Hops between two PEs of a quadrant (R460). -/
def peHops (a b : Nat) : Nat :=
  let dist (x y : Nat) : Nat := if x ≤ y then y - x else x - y
  dist (a % 8) (b % 8) + dist (a / 8) (b / 8)
/-- R271: the slack of an intra-group link covers its hops. -/
def slackOk (slots : List BSlot) (place : List Nat) (l : Link) : Bool :=
  match slots[l.src]?, slots[l.dst]?, place[l.src]?, place[l.dst]? with
  | some a, some b, some p, some q => decide (a.dly + opLat a.op + peHops p q ≤ b.dly)
  | _, _, _, _ => true
/-- The intra-group links of a block. -/
def intraLinks (slots : List BSlot) : List Link :=
  let g := groupsOf slots
  (slotLinks slots).filter (intraLink slots g)
/-- R184: at most 64 slots of a plane. -/
def planesFit (slots : List BSlot) : Bool :=
  decide ((slots.filter (·.pl)).length ≤ 64) && decide ((slots.filter (!·.pl)).length ≤ 64)
/-- R460: fixed placement. -/
def placeFixed (usable : List Nat) (slots : List BSlot) : Option (List Nat) :=
  let place := usable.take slots.length
  if place.length = slots.length && (intraLinks slots).all (slackOk slots place) then some place else none
/-- R460: free placement: the least assignment in lexicographic order, slot by slot; done holds the PEs of the slots before. -/
def placeFree (usable : List Nat) (slots : List BSlot) (links : List Link) : List BSlot → List Nat → Option (List Nat)
  | [], done => some done
  | b :: rest, done =>
    usable.findSome? fun p =>
      let now := done ++ [p]
      let free := !((numbered 0 done).any fun (n, q) => q == p && ((slots[n]?).map (·.pl)).getD false == b.pl)
      if free && links.all (slackOk slots now) then placeFree usable slots links rest now else none

/-- R46: the region-relative port indices of a direction that a block names, in ascending order. -/
def Block.portNames (b : Block) (input : Bool) : List Nat :=
  (List.range 48).filter fun p => b.ports.any fun e => e.dir != input && e.phys == p
/-- The physical ports of a direction that a placement maps onto. -/
def Placement.ports (pl : Placement) (input : Bool) : List Nat := ((if input then pl.ins else pl.outs).map (·.2))
/-- The usable ports among some of a tile's, by number. -/
def State.usablePorts (s : State) (node : Nat) (input : Bool) (ps : List Nat) : Nat :=
  (ps.filter fun p => !s.retired.contains (if input then .inPort node p else .outPort node p)).length
/-- R267: the physical ports that the blocks of a bound task hold: those of its list, and that of its quadrant (DEDUCED, log 25). -/
def Slot.portsHeld (l : Slot) (input : Bool) : List Nat :=
  if l.stage = .free then []
  else (l.blocks.filterMap (·.place) ++ (l.quad.blk.map (·.place)).toList).flatMap (·.ports input)
/-- R267, R460: the usable physical ports that no other quadrant of the tile holds: the quadrant's own in ascending order, then the rest. -/
def State.freePorts (s : State) (ctx : Nat) (input : Bool) : List Nat :=
  let node := nodeOf ctx
  let per := if input then 12 else 8
  let own := (List.range per).map (· + per * planeOf ctx)
  let held := ((List.range 4).filter (· != planeOf ctx)).flatMap fun k => (s.slotAt (4 * node + k)).portsHeld input
  (own ++ (List.range (4 * per)).filter fun p => !own.contains p).filter fun p =>
    !held.contains p && !s.retired.contains (if input then .inPort node p else .outPort node p)
/-- R460: the port indices of a block, in ascending order, onto physical ports; none where they run out. -/
def State.mapPorts (s : State) (ctx : Nat) (input : Bool) (b : Block) : Option (List (Nat × Nat)) :=
  let names := b.portNames input
  let free := s.freePorts ctx input
  if free.length < names.length then none else some (names.zip free)

/-- R184, R267, R460: the placement of a block in the quadrant of a slot. -/
def State.placeBlock (s : State) (ctx : Nat) (b : Block) : Option Placement :=
  if !planesFit b.slots then none
  else
    (s.mapPorts ctx true b).bind fun ins =>
      (s.mapPorts ctx false b).bind fun outs =>
        (if b.anyq then placeFree (s.usablePes ctx) b.slots (intraLinks b.slots) b.slots [] else placeFixed (s.usablePes ctx) b.slots).map
          fun pes => ⟨pes, ins, outs⟩

/-- A byte of a packet's arena. -/
def State.codeByte (s : State) (p : Packet) (off : Nat) : Nat := (getByte s.mem (p.code + off)).toNat
/-- R461: the block at an offset as the loader lists it: the code of R50 for which it is rejected, or its placement. -/
def State.listBlock (s : State) (ctx : Nat) (p : Packet) (off : Nat) : Listed :=
  let rd := s.codeByte p
  let id := (blockHeader rd off).1 / 2 ^ 32 % 65536
  match blockCheck rd p.bound p.cfgtab off with
  | some c => ⟨off, id, some c, none⟩
  | none => ⟨off, id, none, s.placeBlock ctx (readBlock rd p.cfgtab off {})⟩
/-- R461: the block list: every multiple of 16 whose bytes pass checks 0x01 to 0x04. -/
def State.listBlocks (s : State) (ctx : Nat) (p : Packet) : List Listed :=
  (((List.range (p.bound / 16)).map (16 * ·)).filter fun o => (headCheck (s.codeByte p) p.bound o).isNone).map (s.listBlock ctx p)
/-- The listed block at an offset; one that came to stand in the arena after the bind is judged as it stands (DEDUCED, log 26). -/
def State.listed (s : State) (ctx off : Nat) : Listed :=
  ((s.slotAt ctx).blocks.find? fun b => b.off == off).getD (s.listBlock ctx (s.slotAt ctx).pkt off)
/-- R50: the loader's report of a block, if it rejected it. -/
def Listed.rejection (b : Listed) (t : Task) : Option Rejection := b.code.map fun c => ⟨t.epoch, t.ord, b.off, c, b.blkid⟩
/-- R461, R38: the loader forms the block list of a task that binds, and reports the blocks that it rejects. -/
def State.listFor (s : State) (ctx : Nat) (t : Task) : State :=
  let bs := s.listBlocks ctx t.pkt
  { s.setSlot ctx fun l => { l with blocks := bs } with rejections := s.rejections ++ bs.filterMap (·.rejection t) }
/-- R50: the loader reports a block that a packet names and that is not listed at all. -/
def State.reportUnlisted (s : State) (ctx : Nat) (t : Task) : State :=
  match t.pkt.block with
  | none => s
  | some off =>
    if (s.slotAt ctx).blocks.any fun b => b.off == off then s
    else { s with rejections := s.rejections ++ ((s.listed ctx off).rejection t).toList }

end Sys2Proof.Machine
end

