-- ==== Sys2Proof/Machine/StreamChecks.lean ====
section
/-! DEFINITION. The checks of a stream command as it leaves its queue, its route, its filter and the endpoint sides that it holds
(spec/06 R158, R159, R165, spec/14 R346 to R351). -/

namespace Sys2Proof.Machine

/-! ### Formats and filters -/

/-- R348: FN of a filter entry: 1 CONV, 2 ZRD, 3 TRP; 0 without one. -/
def Cmd.filtFn (c : Cmd) : Nat :=
  match c.filt with
  | some (w0, _) => bitsOf w0.toNat 31 29
  | none => 0
/-- The format in which a command reads its source; STOK moves a 64-bit payload. -/
def Cmd.srcFmt (c : Cmd) : Fmt := if c.kind = 0x10 then .i64 else c.efmt
/-- R350: the format in which it delivers, and its EFMT code. -/
def Cmd.dstCode (c : Cmd) : Nat :=
  match c.filt with
  | some (w0, _) => bitsOf w0.toNat 15 8
  | none => if c.kind = 0x10 then 0x0B else c.efmtCode
def Cmd.dstFmt (c : Cmd) : Fmt := (Fmt.ofEfmt c.dstCode).getD .octet
/-- R348: rows and columns of a TRP entry. -/
def Cmd.rows (c : Cmd) : Nat := match c.filt with | some (_, w1) => 2 ^ bitsOf w1.toNat 2 0 | none => 1
def Cmd.cols (c : Cmd) : Nat := match c.filt with | some (_, w1) => 2 ^ bitsOf w1.toNat 10 8 | none => 1
/-- R348: SFILT rejects the entry. -/
def filterBad (w0 w1 : Nat) : Bool :=
  let fn := bitsOf w0 31 29
  let de := bitsOf w0 15 8
  let se := w0 % 256
  let num (e : Nat) : Bool := e == 0x0C || e == 0x0D || e == 0x0B
  w0 / 2 ^ 32 != 0 || bitsOf w0 23 16 != 0 || w1 / 2 ^ 11 != 0 || bitsOf w1 7 3 != 0
    || decide (fn < 1) || decide (3 < fn)
    || (fn == 1 && decide (4 < bitsOf w0 26 24)) || (fn != 1 && bitsOf w0 28 24 != 0)
    || (fn != 3 && w1 != 0) || decide (6 < bitsOf w1 2 0) || decide (6 < bitsOf w1 10 8)
    || (Fmt.ofEfmt de).isNone || (Fmt.ofEfmt se).isNone
    || (fn == 1 && (num de || num se)) || (fn == 2 && se != 0x0D)
    || (fn == 3 && (de != se || decide (12 < bitsOf w1 2 0 + bitsOf w1 10 8)))

/-! ### Routes (R346, R349) -/

/-- The numbers from a to b, up or down. -/
def stepRange (a b : Nat) : List Nat :=
  if a ≤ b then (List.range (b - a + 1)).map (a + ·) else (List.range (a - b + 1)).map (a - ·)
/-- R346: the nodes of a route: along x, then along y. -/
def routeNodes (a b : Nat) : List Nat :=
  (stepRange (a % 32) (b % 32)).map (fun x => x + a / 32 * 32)
    ++ ((stepRange (a / 32) (b / 32)).drop 1).map fun y => b % 32 + 32 * y
/-- The node of an endpoint's home; a region's is that of its offset, and the slot's own where that has no page (DEDUCED,
log 22). -/
def State.epHome (s : State) (ctx e w : Nat) : Nat :=
  match epType e with
  | 0 =>
    match (((s.slotAt ctx).regions[epRegion e]?).getD {}).place false w (epOff e) with
    | .at (p :: _) => homeNode (homeOf p)
    | _ => nodeOf ctx
  | 4 => if epOwn e || epPkg e == s.pkgId then nodeOf (epCtx e) else nodeOf ctx
  | _ => nodeOf ctx
/-- R170: the nodes of an SMC, by mask bit; none for a bit that lies off the mesh. -/
def smcNodes (aux0 : Nat) : List (Nat × Option Nat) :=
  let base := bitsOf aux0 63 54
  ((List.range 32).filter fun i => aux0.testBit i).map fun i =>
    let x := base % 32 + i % 8
    let y := base / 32 + i / 8
    (i, if x < 32 ∧ y < 32 then some (x + 32 * y) else none)
def smcSlot (aux0 : Nat) : Nat := bitsOf aux0 53 52
/-- The slots of an SMC, by mask bit. -/
def Cmd.smcSlots (c : Cmd) : List (Nat × Nat) :=
  (smcNodes c.aux0).filterMap fun (i, n) => n.map fun n => (i, 4 * n + smcSlot c.aux0)
/-- The homes that a command delivers to. -/
def State.cmdHomes (s : State) (ctx : Nat) (c : Cmd) : List Nat :=
  if c.kind = 7 then c.smcSlots.map fun (_, d) => nodeOf d else [s.epHome ctx c.ep1 c.dstFmt.width]
/-- The nodes that a command's traffic passes. -/
def State.cmdRoute (s : State) (ctx : Nat) (c : Cmd) : List Nat :=
  (s.cmdHomes ctx c).flatMap fun d => routeNodes (s.epHome ctx c.ep0 c.srcFmt.width) d
/-- R347: an entry of a router's table. -/
def State.routerEntry (s : State) (node plane vc fid : Nat) : Option RouterEntry :=
  s.routers.find? fun e => e.node == node && e.plane == plane && e.vc == vc && e.fid == fid
/-- R350: the entry that a command with a filter id uses, if one stands on its whole route, which its destination offsets in DEFMT give: at
the source's home, and for ZRD at the destination's. -/
def State.filterOf (s : State) (ctx : Nat) (c : Cmd) : Option (Word × Word) :=
  let at' (n : Nat) := s.routerEntry n (planeOf ctx) c.vc c.filter
  match at' (s.epHome ctx c.ep0 c.srcFmt.width) with
  | none => none
  | some e =>
    let c := { c with filt := some (e.w0, e.w1) }
    if (s.cmdRoute ctx c).all fun n => (at' n).isSome then
      if bitsOf e.w0.toNat 31 29 = 2 then
        ((s.cmdHomes ctx c).head?.bind at').map fun e => (e.w0, e.w1)
      else some (e.w0, e.w1)
    else none
/-- R350, R351: the entry serves the command. -/
def Cmd.filterServes (c : Cmd) (e : Word × Word) : Bool :=
  let fn := bitsOf e.1.toNat 31 29
  let c' := { c with filt := some e }
  e.1.toNat % 256 == c.efmtCode
    && (fn != 2 || c.kind == 1 || c.kind == 0x0B)
    && (fn != 2 || (c.count % 256 == 0 && c.stride 0 == 1 && c.size 1 == 1 && c.size 2 == 1 && c.size 3 == 1))
    && (fn != 3 || c.count % (c'.rows * c'.cols) == 0)

/-! ### The checks (R159) -/

/-- A rejection: its cause, DETAIL and `trapval`. -/
structure Reject where
  cause : Nat
  detail : Nat
  val : Word
  deriving DecidableEq, Repr, Inhabited

/-- R161: `trapval` of stream format and of unknown field. -/
def Cmd.formatVal (c : Cmd) (code : Nat) : Word := BitVec.ofNat 64 (c.seq % 65536 + code % 256 * 2 ^ 32)
/-- R159: a rejection with a check code, and the index of the field that breaks it where there is one. -/
def Cmd.bad (c : Cmd) (code : Nat) (field : Nat := 0) : Option Reject :=
  some ⟨0x0F, code + field * 256, c.formatVal code⟩
/-- A check that fails on the first of several fields. -/
def Cmd.badAt (c : Cmd) (code : Nat) (tests : List (Nat × Bool)) : Option Reject :=
  match tests.find? (·.2) with
  | some (i, _) => c.bad code i
  | none => none

/-- R150: the lowest field that is not known, or whose flag is 11. -/
def Cmd.unknownField (c : Cmd) : Option Nat :=
  (List.range 32).find? fun i => c.flag i == 3 || (decide (14 ≤ i) && c.flag i == 2)
/-- R165: the fields that a kind requires. -/
def kindRequires : Nat → List Nat
  | 0x03 => [3, 4, 9, 11] | 0x04 => [3, 4, 9, 11] | 0x05 => [3, 4, 9, 11] | 0x06 => [4, 9] | 0x07 => [3, 4, 9, 10]
  | 0x08 => [3, 4, 9, 11] | 0x0C => [] | 0x0D => [11, 12] | 0x10 => [4] | _ => [3, 4, 9]
/-- R165: endpoint types allowed as EP0 and as EP1. -/
def kindSources : Nat → List Nat
  | 0x01 => [0, 1, 5] | 0x02 => [2, 3, 5] | 0x03 => [0, 1] | 0x04 => [2, 3, 5] | 0x05 => [2] | 0x06 => [7]
  | 0x07 => [0, 1, 2] | 0x08 => [0, 1] | 0x09 => [0, 1, 2, 3, 5] | 0x0A => [2, 3, 5] | 0x0B => [0, 1] | 0x0C => [7]
  | 0x0D => [7] | 0x0E => [0, 1, 2, 3, 4, 5, 6] | 0x0F => [0, 1] | _ => [7]
def kindDests : Nat → List Nat
  | 0x01 => [2, 3, 5, 4, 6] | 0x02 => [0, 1] | 0x03 => [2, 3, 5, 4] | 0x04 => [0, 1] | 0x05 => [2] | 0x06 => [0, 1, 2, 5]
  | 0x07 => [2, 1, 5] | 0x08 => [2, 3, 5, 4] | 0x09 => [0, 1] | 0x0A => [0] | 0x0B => [0, 1] | 0x0C => [7]
  | 0x0D => [7] | 0x0E => [0, 1, 2, 3, 4, 5, 6] | 0x0F => [2] | _ => [2, 3, 4]
/-- The kinds that use FMT (R165). -/
def usesFmt (k : Nat) : Bool := k != 0x0C && k != 0x0D
/-- The kinds that take an index link in AUX1 (R167, R174). -/
def linkKind (k : Nat) : Bool := [0x03, 0x04, 0x08, 0x0D].contains k
def indirectKind (k : Nat) : Bool := [0x03, 0x04, 0x08].contains k
/-- The plane that an endpoint asks for. -/
def epControl (e : Nat) : Bool := if epType e = 4 then epRemoteCpl e else epCpl e

/-- 0x04: reserved bits of HDR and of every present field. -/
def Cmd.reservedBad (c : Cmd) : Option Reject :=
  let k := c.kind
  c.badAt 0x04 [(0, bitsOf (c.w 0) 47 32 != 0 || bitsOf (c.w 0) 23 20 != 0),
    (3, c.has 3 && !epReservedOk c.ep0), (4, c.has 4 && !epReservedOk c.ep1),
    (9, (bitsOf c.fmtW 47 43 != 0 || bitsOf c.fmtW 31 29 != 0 || bitsOf c.fmtW 15 8 != 0)),
    (10, (k == 5 && c.aux0 / 16 != 0) || (k == 7 && bitsOf c.aux0 51 32 != 0)
      || (k == 0x0A && !epReservedOk c.aux0 && c.has 10)),
    (11, (k == 5 && !epReservedOk c.aux1) || (linkKind k && c.aux1 / 2 ^ 17 != 0)
      || (k == 0x10 && (c.aux1 / 2 ^ 32 != 0 || bitsOf c.aux1 30 5 != 0))),
    (12, !(refReservedOk c.bind)),
    (13, if k = 5 then c.cursorW / 2 ^ 52 != 0 else c.cursorW / 2 ^ 48 != 0)]
/-- 0x05: endpoint types for the kind and their role; the return endpoint of an SATM may have any TYPE but link (DEDUCED, log 119). -/
def Cmd.typesBad (c : Cmd) : Option Reject :=
  let k := c.kind
  c.badAt 0x05 [(3, !(kindSources k).contains (epType c.ep0)),
    (4, !(kindDests k).contains (epType c.ep1) || (k == 0x10 && epType c.ep1 != 3 && !epControl c.ep1)),
    (11, k == 5 && !([2, 3, 5, 1, 0].contains (epType c.aux1))),
    (10, k == 0x0A && !([7, 0, 1, 2, 3, 4, 5].contains (epType c.ep2)))]
/-- 0x06 for one endpoint: its port, FIFO, node or windrow is out of range. here tells that a port or windrow is the slot's own. -/
def State.endBad (s : State) (ctx e : Nat) (source here : Bool) : Bool :=
  let l := s.slotAt ctx
  match epType e with
  | 2 =>
    if source then decide (31 < epPort e) || !l.quad.mapsOut (epPort e)
    else decide (47 < epPort e) || (here && !l.quad.mapsIn (epPort e))
  | 3 => if source then decide (epFifo e < 12) else decide (epFifo e < 8) || decide (11 < epFifo e)
  | 4 =>
    (decide (48 ≤ epRemotePort e) && decide (epRemotePort e < 60))
      || ((epOwn e || epPkg e == s.pkgId) && !computeNode (nodeOf (epCtx e)))
  | 5 => here && (l.core.windrow (epFifo e)).isNone
  | _ => false
/-- 0x06: ranges. -/
def State.rangeBad (s : State) (ctx : Nat) (c : Cmd) : Option Reject :=
  let k := c.kind
  let here := k != 7 || c.smcSlots.any fun (_, d) => d == ctx
  c.badAt 0x06 [(3, s.endBad ctx c.ep0 true true), (4, s.endBad ctx c.ep1 false here),
    (9, usesFmt k && decide (5 < c.vc)), (10, k == 5 && decide (8 < c.initial)),
    (10, k == 7 && (smcNodes c.aux0).any fun (_, n) => match n with | some n => !computeNode n | none => true),
    (10, k == 0x0A && s.endBad ctx c.ep2 false true), (11, k == 5 && s.endBad ctx c.ep2 false true),
    (12, c.bound && !refNames (s.slotAt ctx).decl c.bind)]
/-- R166: the port feeds operand 2 of an MMS4 slot. -/
def Quad.metaPort (q : Quad) (p : Nat) : Bool :=
  q.ports.any fun e => !e.dir && e.phys == p && e.opnd == 2 && (q.slot e.slot).op == 0x21
/-- R167: the format and endpoint of a command that may supply indices. -/
def Cmd.suppliesIndex (c : Cmd) : Bool := epType c.ep1 == 6 && [8, 10, 11].contains c.efmtCode
/-- R171: formats and operations of SRED and SATM. -/
def rmwBad (k ef op : Nat) : Bool :=
  op == 0 || decide (7 < op) || (k == 9 && op == 7)
    || !([1, 2, 3, 8, 10, 11].contains ef || (ef == 0x0D && decide (4 ≤ op)))
    || (decide (4 ≤ op) && decide (op ≤ 6) && !([8, 10, 11, 0x0D].contains ef))
/-- 0x07: formats, operations, the producer of an index link, and a filter entry. A present FMT that a kind does not use, as that of a STOK, SBAR or
STAP, is not held to it (R150), and is held to check 0x04 (DEDUCED, log 118). -/
def State.formatBad (s : State) (ctx : Nat) (c : Cmd) : Option Reject :=
  let k := c.kind
  let l := s.slotAt ctx
  let ef := c.efmtCode
  let producer := match c.link with
    | some q => (l.eng.queue ++ l.eng.flying).find? fun (x : Cmd) => x.seq == q
    | none => none
  let gone := match c.link with
    | some q => producer.isNone && (l.eng.statusOf q).isSome && !ahas q l.eng.links
    | none => false
  c.badAt 0x07 [(9, usesFmt k && k != 0x10 && ((Fmt.ofEfmt ef).isNone || decide (4 < c.rm))),
    (9, (k == 9 || k == 0x0A) && rmwBad k ef c.op),
    (9, usesFmt k && k != 9 && k != 0x0A && k != 0x10 && c.op != 0),
    (9, k == 0x0F && (ef != 0x0C || !l.quad.metaPort (epPort c.ep1))),
    (10, k == 0x0E && filterBad c.aux0 c.aux1),
    (11, indirectKind k && (gone || match producer with | some p => !p.suppliesIndex | none => false)),
    (9, c.patch == 9)]
/-- 0x08: counts, CURSOR and the dimensions of indirect kinds. -/
def Cmd.countBad (c : Cmd) : Option Reject :=
  let k := c.kind
  let used := usesFmt k && k != 0x0E && k != 0x10
  c.badAt 0x08 [(5, used && decide (2 ^ 48 ≤ c.count)),
    (13, used && (if k = 5 then decide (c.count + c.initial < c.cursorW % 2 ^ 48)
        || decide (c.initial < bitsOf c.cursorW 51 48) else decide (c.count < c.cursorW))),
    (6, (k == 3 || k == 4) && c.size 1 != 1), (7, indirectKind k && c.size 2 != 1), (8, indirectKind k && c.size 3 != 1)]
/-- 0x09: the pitch of sub-byte elements (R144), of a kind whose dimensions enumerate elements; of a command with a filter EFMT alone is
looked at (DESIGN CHOICE, log 83). -/
def Cmd.pitchBad (c : Cmd) : Option Reject :=
  c.badAt 0x09 [(6, usesFmt c.kind && c.kind != 0x0E && c.kind != 0x10 && (c.efmtCode == 7 || c.efmtCode == 9)
    && c.stride 0 == 1 && decide (1 < c.size 1) && decide ((c.stride 1).natAbs < c.size 0))]
/-- R347: the filter ids granted to the record of a slot's task. -/
def State.grantedFilters (s : State) (ctx : Nat) : List Nat :=
  ((s.records.find? fun (e, _) => e == (s.slotAt ctx).epoch).map fun (_, r) => r.filters).getD []
/-- 0x0A: the filter (R350); for SFILT the id must be granted (R175). -/
def State.filterBadAt (s : State) (ctx : Nat) (c : Cmd) : Option Reject :=
  let k := c.kind
  let bad :=
    if k = 0x0E then !(s.grantedFilters ctx).contains c.filter
    else if !usesFmt k || c.filter == 0 then false
    else !([1, 2, 7, 0x0B].contains k) ||
      match s.filterOf ctx c with
      | some e => !c.filterServes e
      | none => true
  if bad then c.bad 0x0A 9 else none
/-- 0x0D: each region named has an entry, with the permission that its role needs. -/
def State.regionBad (s : State) (ctx : Nat) (c : Cmd) : Option Reject :=
  let l := s.slotAt ctx
  let test (e field : Nat) (source : Bool) : Option Reject :=
    if epType e != 0 then none
    else
      let r := (l.regions[epRegion e]?).getD {}
      if r.v && (if source then r.rd else r.wr) then none
      else some ⟨0x0D, 0x0D + field * 256 + epRegion e * 65536, BitVec.ofNat 64 (epRegion e * 2 ^ 48)⟩
  [test c.ep0 3 true, test c.ep1 4 false, test c.ep2 (if c.kind = 5 then 11 else 10) false].findSome? id
/-- R159: the first check that a command of the slot fails as it leaves its queue. -/
def State.rejects (s : State) (ctx : Nat) (c : Cmd) : Option Reject :=
  let k := c.kind
  if c.ver ≠ 1 then c.bad 0x01
  else if k = 0 ∨ 0x10 < k then c.bad 0x02
  else
    match c.unknownField with
    | some i => some ⟨0x09, i, c.formatVal i⟩
    | none =>
      [c.badAt 0x03 ((kindRequires k).map fun i => (i, !c.has i)), c.reservedBad, c.typesBad, s.rangeBad ctx c,
        s.formatBad ctx c, c.countBad, c.pitchBad, s.filterBadAt ctx c,
        (if 13 < c.patch ∧ c.patch ≠ 0xFF then c.bad 0x0B else none),
        (if linkKind k && (match c.link with
            | some q => ((s.slotAt ctx).eng.statusOf q).isNone
            | none => true) then c.bad 0x0C 11 else none),
        s.regionBad ctx c].findSome? id

/-! ### Sides (R158) -/

/-- The side that an endpoint takes: input ports from 0, output ports from 100, FIFOs from 200, windrow readers from 300 and writers
from 320. -/
def sideOf (e : Nat) (source : Bool) : List Nat :=
  match epType e with
  | 2 => [epPort e + if source then 100 else 0]
  | 3 => [200 + epFifo e]
  | 5 => [epFifo e + if source then 300 else 320]
  | _ => []
/-- R158: the sides of its slot that a command needs; an SMC's are its slot's own where that is a destination. -/
def Cmd.sides (c : Cmd) (ctx : Nat) : List Nat :=
  if c.kind = 0x0E then []
  else
    let here := c.kind != 7 || c.smcSlots.any fun (_, d) => d == ctx
    sideOf c.ep0 true ++ (if here then sideOf c.ep1 false else []) ++ sideOf c.ep2 false
/-- R158: no command that left the queue before it holds or awaits a side that it needs. -/
def StreamEng.holdsSides (e : StreamEng) (ctx : Nat) (c : Cmd) : Bool :=
  (e.flying.takeWhile fun x => x.seq != c.seq).all fun x => (x.sides ctx).all fun d => !(c.sides ctx).contains d

end Sys2Proof.Machine
end

