-- ==== Sys2Proof/Machine/YHead.lean ====
section
/-! DEFINITION. The instructions of the Y head but for TEND and TYLD: counted events, barriers, fences, enqueue packets, polls and
time (spec/08 R236 to R256). -/

namespace Sys2Proof.Machine

/-- R239: the amount of an event word; A = 0 gives dflt. -/
def State.amount (s : State) (a : SReg) (dflt : Nat) : Nat := if a = 0 then dflt else (s.core.getS a).toNat % 65536
/-- R237: a word that posts an answer waits while `sts` is full. -/
def State.answer (s : State) (i : Instr) (w : State → Word) : Res :=
  s.issueX .y i fun s =>
    if !s.core.stsRoom then .next s else .next ((s.setCore (·.postSts (w s))).finishX .y (words i))

/-! ### Counted events (R239) -/

/-- EVSIG (R239); an increment comes first in an ac, so one in whose ac the event has been decremented waits for the next (R240). -/
def execEvsig (d : EvReg) (a : SReg) (g : Bool) (s : State) : Res :=
  s.issueX .y (.evsig d a g) fun s =>
    if s.core.countedNow (s.acStart s.cur) (2 ^ d.val) then .next s
    else .next ((s.setCore (·.addEvent d (s.amount a 1))).finishX .y 1)

/-- EVWAIT (R239): with n = 0 it completes at once; else it waits for EVWAIT_COMPLETE. It takes ahead of commands, so one in whose ac a
command has taken a count issues in the next (R240). -/
def execEvwait (d : EvReg) (a : SReg) (g : Bool) (s : State) : Res :=
  s.issueX .y (.evwait d a g) fun s =>
    let n := s.amount a 1
    if n = 0 then .next (s.finishX .y 1)
    else if s.core.takenNow (s.acStart s.cur) d.val then .next s
    else .next (s.setCore fun c => { c with ywait := some (.event d n) })

/-- R239, R240: an event is set in an ac. -/
def Core.clearEvent (c : Core) (now : Nat) (d : EvReg) (n : Nat) : Core :=
  { c.setEvent d (BitVec.ofNat 16 n) with evClear := aset d.val now c.evClear }
/-- EVCLR (R239); in an ac it comes before every decrement, so one in whose ac the event has been decremented waits for the next (R240). -/
def execEvclr (d : EvReg) (a : SReg) (g : Bool) (s : State) : Res :=
  s.issueX .y (.evclr d a g) fun s =>
    if s.core.takenNow (s.acStart s.cur) d.val then .next s
    else .next ((s.setCore (·.clearEvent (s.acStart s.cur) d (s.amount a 0))).finishX .y 1)

/-! ### Barriers (R241 to R245) -/

/-- R241: a reference that may be used: bit 63 set, no reserved bit, and an object granted to the record. -/
def State.refOk (s : State) (w : Word) : Bool := w.getLsbD 63 && refReservedOk w && refNames s.me.decl w
/-- R241: the object that a reference names. -/
def State.refBarrier (s : State) (ctx : Nat) (w : Word) : Barrier :=
  s.barrier (s.slotAt ctx).epoch (refScope w) (scopePlace (refScope w) (nodeOf ctx)) (refBid w)

/-- BARI (R243). -/
def execBari (imm : BitVec 32) (g : Bool) (s : State) : Res :=
  s.issueX .y (.bari imm g) fun s =>
    let v := imm.toNat
    let scope := v / 2 ^ 29
    let bid := bitsOf v 21 16
    if s.me.decl.granted scope ≤ bid then .next (s.syncTrap .y 0x06 (imm.zeroExtend 64))
    else .next ((s.modBarrier s.me.epoch scope (scopePlace scope (nodeOf s.cur)) bid
      (·.setCount (v % 65536))).finishX .y 2)

/-- BARA (R242, R254). -/
def execBara (a : SReg) (b : SReg) (g : Bool) (s : State) : Res :=
  s.issueX .y (.bara a b g) fun s =>
    let ref := s.core.getS a
    if !s.refOk ref then .next (s.syncTrap .y 0x06 ref)
    else .next ((s.arriveOrDefer s.cur ref (s.amount b 1)).finishX .y 1)

/-- BARW (R244): it waits for BARW_COMPLETE. -/
def execBarw (k : Bool) (a : SReg) (b : SReg) (g : Bool) (s : State) : Res :=
  s.issueX .y (.barw k a b g) fun s =>
    let ref := s.core.getS a
    if !s.refOk ref then .next (s.syncTrap .y 0x06 ref)
    else .next (s.setCore fun c => { c with ywait := some (.barrier ref ((c.getS b).toNat % 65536) k) })

/-- BARQ (R245). -/
def execBarq (a : SReg) (g : Bool) (s : State) : Res :=
  s.issueX .y (.barq a g) fun s =>
    let ref := s.core.getS a
    if !s.refOk ref then .next (s.syncTrap .y 0x06 ref)
    else if !s.core.stsRoom then .next s
    else .next ((s.setCore (·.postSts (barrierAnswer ((s.refBarrier s.cur ref).seen (s.refAc s.cur ref))))).finishX .y 1)

/-! ### Fences (R246): every earlier access of S has performed when Y can reach the word -/

/-- FENCE (R246). -/
def execFence (scope : Fin 8) (g : Bool) (s : State) : Res :=
  s.issueX .y (.fence scope g) fun s => if s.core.bank.isSome then .next s else .next (s.finishX .y 1)

/-- ACQ (R246). -/
def execAcq (scope : Fin 8) (g : Bool) (s : State) : Res :=
  s.issueX .y (.acq scope g) fun s => if s.core.bank.isSome then .next s else .next (s.finishX .y 1)

/-- REL (R246). -/
def execRel (scope : Fin 8) (g : Bool) (s : State) : Res :=
  s.issueX .y (.rel scope g) fun s => if s.core.bank.isSome then .next s else .next (s.finishX .y 1)

/-! ### Enqueue packets (R250, R251, R254) -/

/-- R250: the offset of a packet. -/
def packetOffsetOk (o : Word) : Bool := o.toNat % 64 == 0 && decide (o.toNat + 64 ≤ 524288)
/-- R250: no reserved bit of a destination word is set. -/
def destOk (w : Word) : Bool :=
  let v := w.toNat
  v / 2 ^ 60 == 0 && bitsOf v 48 34 == 0 && bitsOf v 31 16 == 0 && (!v.testBit 49 || bitsOf v 59 50 == 0)
/-- The eight words of a packet. -/
def Slot.packet (l : Slot) (o : Nat) : List Word :=
  (List.range 8).map fun k => BitVec.ofNat 64 (l.viewLE (o + 8 * k) 8)
/-- R237: the ordinal of an acknowledged packet, and the core that has counted it. -/
def Core.takeAck (c : Core) (ack : Bool) : Option Nat × Core :=
  if ack then (some c.acks, { c with acks := c.acks + 1 }) else (none, c)
/-- R254: the packet is deferred to the commit. -/
def Slot.deferPacket (l : Slot) (o : Nat) (dest : Word) (ack spawn : Bool) : Slot :=
  let (k, c) := l.core.takeAck ack
  { l with
    core := c
    deferred := l.deferred ++ [.enqueue (l.packet o) dest k spawn] }

/-- TENQ (R250, R254): it waits for TENQ_PLACED. -/
def execTenq (k : Bool) (a : SReg) (b : SReg) (g : Bool) (s : State) : Res :=
  s.issueX .y (.tenq k a b g) fun s =>
    let o := s.core.getS a
    let dest := s.core.getS b
    if !packetOffsetOk o then .next (s.syncTrap .y 0x06 o)
    else if !destOk dest then .next (s.syncTrap .y 0x06 dest)
    else if s.core.jnl then s.readTile fun s => .next ((s.setMe (·.deferPacket o.toNat dest k false)).finishX .y 1)
    else .next (s.setCore fun c => { c with ywait := some (.enqueue o.toNat dest k false) })

/-- R251: a packet for the slot's own die dispatcher is on its way. -/
def State.spawn (s : State) (ctx : Nat) (ws : List Word) (ack : Option Nat) : State :=
  { s with enqs := s.enqs ++ [⟨ws, 0, some (dieOf (nodeOf ctx)), false, ack.map fun k => ((s.slotAt ctx).age, k)⟩] }

/-- TSPWN (R251, R254). -/
def execTspwn (k : Bool) (a : SReg) (g : Bool) (s : State) : Res :=
  s.issueX .y (.tspwn k a g) fun s =>
    let o := s.core.getS a
    if !packetOffsetOk o then .next (s.syncTrap .y 0x06 o)
    else if s.core.jnl then s.readTile fun s => .next ((s.setMe (·.deferPacket o.toNat 0 k true)).finishX .y 1)
    else
      let (ack, c) := s.core.takeAck k
      .next (((s.setCore fun _ => c).spawn s.cur (s.me.packet o.toNat) ack).finishX .y 1)

/-! ### Polls (R252, R253) -/

/-- R252: time to the deadline, saturating; zero once past. -/
def timeLeft (deadline : Word) (now : Nat) : Nat := min (deadline.toNat - now) 0xFFFFFFFF
/-- R237: the task answer. -/
def State.taskAnswer (s : State) : Word :=
  let c := s.core
  yAnswer 2 (bitIf s.me.preq.isSome 57 + bitIf (decide (c.deadline.toNat ≤ s.stc)) 56 + c.restarts.toNat * 2 ^ 32
    + timeLeft c.deadline s.stc)
/-- R462: a retired tile takes no task. -/
def State.tileUsable (s : State) (node : Nat) : Bool := !s.retired.contains (.tile node)
/-- R391: the free context slots among those of some nodes. -/
def State.freeSlots (s : State) (nodes : List Nat) : Nat :=
  (nodes.map fun n => ((List.range 4).filter fun k => s.tileUsable n && (s.slotAt (4 * n + k)).stage == .free).length).sum
/-- Tasks that wait at a die dispatcher. -/
def Die.waiting (d : Die) : Nat := (d.queues.map (·.length)).sum
/-- R237: the die answer. -/
def State.dieAnswer (s : State) : Word :=
  let node := nodeOf s.cur
  let die := dieOf node
  yAnswer 3 (s.freeSlots (dieNodes die) % 65536 * 2 ^ 32 + min (s.die die).waiting 0xFFFF * 65536 + s.freeSlots [node])

/-- TPOLL task (R252). -/
def execTpollTask (g : Bool) (s : State) : Res :=
  s.answer (.tpollTask g) (·.taskAnswer)

/-- TPOLL die (R252). -/
def execTpollDie (g : Bool) (s : State) : Res :=
  s.answer (.tpollDie g) (·.dieAnswer)

/-- R253: the holder of a granule as its home reports it: held by the task itself, or by another. -/
def State.probe (s : State) (ctx set g : Nat) : Bool × Bool :=
  let l := s.slotAt ctx
  match (l.decl.sets[set]?).getD none with
  | none => (false, false)
  | some t =>
    match ((l.regions[t.region]?).getD {}).byteAt false (t.first g) with
    | .at [p] =>
      match ((s.lockAt p t.log2g).map (·.holder)).getD none with
      | some (a, _) => (a == l.age, a != l.age)
      | none => (false, false)
    | _ => (false, false)
/-- R253: the index names a declared set. -/
def Decl.setCount (d : Decl) (set : Nat) : Option Nat :=
  if set < 8 then ((d.sets[set]?).getD none).map (·.count) else none

/-- LKPRB (R253). -/
def execLkprb (a : SReg) (b : SReg) (g : Bool) (s : State) : Res :=
  s.issueX .y (.lkprb a b g) fun s =>
    let set := s.core.getS a
    let k := s.core.getS b
    match s.me.decl.setCount set.toNat with
    | none => .next (s.syncTrap .y 0x06 set)
    | some n =>
      if n ≤ k.toNat then .next (s.syncTrap .y 0x06 k)
      else if !s.core.stsRoom then .next s
      else
        let (held, other) := s.probe s.cur set.toNat k.toNat
        let w := yAnswer 1 (set.toNat * 2 ^ 55 + bitIf held 54 + bitIf other 53 + k.toNat % 2 ^ 32)
        .next ((s.setCore (·.postSts w)).finishX .y 1)

/-! ### Time (R255, R256) -/

/-- STAMP (R255). -/
def execStamp (k : Bool) (a : SReg) (g : Bool) (s : State) : Res :=
  s.issueX .y (.stamp k a g) fun s =>
    let t := s.core.getS a
    if s.stc < t.toNat then .next (s.setCore fun c => { c with ywait := some (.stamp t.toNat k) })
    else
      let miss := k && decide (t.toNat < s.stc) && !s.core.restamp
      .next ((s.setCore fun c =>
        let c := { c with restamp := false }
        if miss then c.addPend 0x0A 3 t else c).finishX .y 1)

/-- R256: t, clamped. -/
def lowered (base : Nat) (off : Int) : Nat := (max 0 (min (2 ^ 64 - 1) ((base : Int) + off))).toNat
/-- R256: the deadline is lowered to t; a t not after now raises the deadline cause. -/
def Core.lowerDeadline (c : Core) (t now : Nat) : Core :=
  let d := if t < c.deadline.toNat then BitVec.ofNat 64 t else c.deadline
  let c' := { c with
    deadline := d
    dued := (c.dued && !decide (t < c.deadline.toNat)) || decide (t ≤ now) }
  if t ≤ now then c'.addPend 0x10 7 d else c'

/-- DLN (R256). -/
def execDln (a : SReg) (imm : BitVec 32) (g : Bool) (s : State) : Res :=
  s.issueX .y (.dln a imm g) fun s =>
    let t := lowered (if a = 0 then s.stc else (s.core.getS a).toNat) imm.toInt
    .next ((s.setCore (·.lowerDeadline t s.stc)).finishX .y 2)

end Sys2Proof.Machine
end

