-- ==== Sys2Proof/Machine/Streams.lean ====
section
/-! DEFINITION. How a stream command reads its source, writes its destination, sends tokens and reports a fault (spec/06 R160 to R182,
spec/13 R324 to R335, spec/14 R350 to R358, spec/17 R398 to R403). -/

namespace Sys2Proof.Machine

/-! ### Commands in flight, faults and taps (R156, R161, R174, R333) -/

/-- An old value of an SATM is on its way from its home or waits to be written. -/
def Cmd.oldOpen (c : Cmd) : Bool := decide (0 < c.updates) || c.returns.any fun (_, v) => v.isSome
/-- R326: an SATM that returns to a region: its last element is not done until its old value is written. -/
def Cmd.returnOpen (c : Cmd) : Bool := c.kind == 0x0A && epType c.ep2 == 0 && c.oldOpen
/-- R298, R326: an SATM whose old values go to a region, to tile store or to a windrow takes no further element until the old value of the
last one is written there. -/
def Cmd.returnHolds (c : Cmd) : Bool := c.kind == 0x0A && [0, 1, 5].contains (epType c.ep2) && c.oldOpen
def StreamEng.update (e : StreamEng) (seq : Nat) (f : Cmd → Cmd) : StreamEng :=
  { e with flying := e.flying.map fun c => if c.seq = seq then f c else c }
def State.cmdAt (s : State) (ctx seq : Nat) : Option Cmd := (s.slotAt ctx).eng.flying.find? fun c => c.seq == seq
def State.setEng (s : State) (ctx : Nat) (f : StreamEng → StreamEng) : State :=
  s.setSlot ctx fun l => { l with eng := f l.eng }
def State.setCmd (s : State) (ctx : Nat) (c : Cmd) : State := s.setEng ctx (·.update c.seq fun _ => c)

/-- How a command's CURSOR stands (R155, R326): that of a queued one is as it was submitted; an SREC's holds the initial tokens sent in its upper bits; an SATM's last element is not done
while its old value is not written. -/
def Cmd.cursorNow (c : Cmd) : Nat :=
  if c.st = .queued then c.cursorW
  else if c.kind = 5 then c.cursor + c.sent * 2 ^ 48 else if c.returnOpen then c.cursor - 1 else c.cursor
/-- R181: a command leaves flight; its final status and CURSOR are kept among the last 64. -/
def StreamEng.retire (e : StreamEng) (c : Cmd) : StreamEng :=
  { e with
    flying := e.flying.filter fun x => x.seq != c.seq
    retired := ((c.seq, c.status) :: e.retired).take 64
    finals := ((c.seq, BitVec.ofNat 64 c.cursorNow) :: e.finals).take 64 }
/-- What a command of an engine has asked for elsewhere is withdrawn: touches, waiting requests and notices. -/
def State.withdrawFor (s : State) (ctx engine seq : Nat) : State :=
  let age := (s.slotAt ctx).age
  let who := seq + 65536 * engine
  { s with
    touches := s.touches.filter fun t => !(t.ctx == ctx && t.seq == who)
    locks := s.locks.map fun l => { l with waiters := l.waiters.filter fun w => !(w.ctx == ctx && w.seq == who) }
    notices := s.notices.filter fun n => !(n.age == age && n.engine == engine && n.seq == seq) }
def State.withdrawCmd (s : State) (ctx seq : Nat) : State := s.withdrawFor ctx 0 seq

/-- R155, R174: a tap arrives on its BIND barrier, or poisons it, if BIND has V = 1. -/
def State.tapArrives (s : State) (ctx : Nat) (r : Word) : State := if r.getLsbD 63 then s.arriveOrDefer ctx r 1 else s
def State.tapPoisons (s : State) (ctx : Nat) (r : Word) : State := if r.getLsbD 63 then s.poison ctx r else s
/-- R174, R333: the taps on a command that faults poison their barriers. -/
def State.tapsPoison (s : State) (ctx seq : Nat) : State :=
  let ts := (s.slotAt ctx).eng.taps.filter fun (_, k, _) => k == seq
  let s := ts.foldl (fun s (_, _, r) => s.tapPoisons ctx r) s
  s.setEng ctx fun e => { e with
    taps := e.taps.filter fun (_, k, _) => k != seq
    flying := e.flying.map fun c => if ts.any fun (q, _, _) => q == c.seq then { c with told := true } else c }
/-- R174: the last-element marker of a command has reached its destination: its taps arrive. -/
def State.tapsArrive (s : State) (ctx seq : Nat) : State :=
  let ts := (s.slotAt ctx).eng.taps.filter fun (_, k, _) => k == seq
  let s := ts.foldl (fun s (_, _, r) => s.tapArrives ctx r) s
  s.setEng ctx fun e => { e with
    taps := e.taps.filter fun (_, k, _) => k != seq
    flying := e.flying.map fun c => if ts.any fun (q, _, _) => q == c.seq then { c with fin := true } else c }

/-- A windrow slot that a command had in part when it faults is neither published nor consumed, and the next command starts it afresh
(DESIGN CHOICE, log 98: R178 speaks of retirement alone). -/
def Core.forgetPart (c : Core) (m : Cmd) : Core :=
  let c := if epType m.ep0 = 5 then
      (match c.windrow (epFifo m.ep0) with | some w => c.setWindrow (epFifo m.ep0) { w with rbits := 0 } | none => c) else c
  if epType m.ep1 = 5 ∧ m.kind ≠ 7 then
    match c.windrow (epFifo m.ep1) with
    | some w => c.setWindrow (epFifo m.ep1) { w with wbits := 0 }
    | none => c
  else c
/-- R161, R458: a command whose fault has been reported leaves flight; while its slot gates it stays, to be saved faulted. -/
def State.failed (s : State) (ctx : Nat) (c : Cmd) : State :=
  if (s.slotAt ctx).stage == .gating then s.setCmd ctx { c with reported := true }
  else s.setEng ctx fun e => { e.retire c with failed := c :: e.failed }
/-- R161: a faulted command is reported if it can be: by the trap, or by its record once `sts` has room. -/
def State.reportFault (s : State) (ctx : Nat) (c : Cmd) : State :=
  if c.trapf || c.reported then s.failed ctx c
  else if (s.slotAt ctx).core.stsRoom then (s.failed ctx c).setCoreAt ctx (·.postSts c.status)
  else s.setCmd ctx c
/-- R167: a command that may supply indices has ended. -/
def StreamEng.endLink (e : StreamEng) (seq : Nat) : StreamEng :=
  { e with links := e.links.map fun (x : Nat × IndexLink) => if x.1 = seq then (x.1, { x.2 with ended := true }) else x }
/-- The input ports that a command delivers to, with their slots: its destination's or its return endpoint's, an SMC's at each destination,
a remote one's in this package. -/
def State.feeds (s : State) (ctx : Nat) (c : Cmd) : List (Nat × Nat) :=
  [c.ep1, c.ep2].flatMap fun e =>
    match epType e with
    | 2 => if c.kind = 7 then c.peers.map fun (_, d, _) => (d, epPort e) else [(ctx, epPort e)]
    | 4 => if (epOwn e || epPkg e == s.pkgId) && decide (epRemotePort e < 48) then [(epCtx e, epRemotePort e)] else []
    | _ => []
/-- R285: tokens of a command in the round that port p is in are inside the region, or on their way into the port. -/
def Quad.holdsOf (q : Quad) (p : Nat) (src : Nat × Nat) : Bool :=
  q.inside.contains ((q.port p).pr, p, src) || (q.port p).incoming.any fun x => x.src == src && x.tok.isValue
/-- R285, R361: the cut of the round that port p is in cannot complete until another command resumes the stream of the one that has faulted
and a marker follows (DEDUCED, log 104); after a decode error it cannot complete. -/
def Slot.spoil (l : Slot) (p : Nat) (src : Nat × Nat) (fatal : Bool) : Slot :=
  let q := l.quad
  if q.mapsIn p && (fatal || q.holdsOf p src) then
    { l with quad := { q with spoiled := ⟨(q.port p).pr, p, src, false, fatal⟩ :: q.spoiled } }
  else l
def State.spoil (s : State) (ctx : Nat) (c : Cmd) (cause : Nat) : State :=
  if c.started then (s.feeds ctx c).foldl (fun s (d, p) => s.setSlot d (·.spoil p (ctx, c.seq) (cause == 0x0E))) s else s
/-- R161, R333: a command of a slot faults. -/
def State.failCmd (s : State) (ctx : Nat) (c : Cmd) (r : Reject) : State :=
  let c := { c with
    st := .faulted
    cause := r.cause
    detail := r.detail
    notice := none
    waitGranule := none }
  let s := (s.withdrawCmd ctx c.seq).setCoreAt ctx fun k =>
    let k := k.forgetPart c
    if c.trapf then k.addPend r.cause c.head r.val else k
  let s := if c.bound && refNames (s.slotAt ctx).decl c.bind then s.poison ctx c.bind else s
  let s := s.spoil ctx c r.cause
  ((s.tapsPoison ctx c.seq).setEng ctx (·.endLink c.seq)).reportFault ctx c

/-- What an attempt at the next piece of work comes to: it waits, something else happened instead, or it is done. -/
inductive Try where
  | wait
  | stop (s : State)
  | ok (s : State) (c : Cmd) (v : Nat)

/-! ### Reaching an element (R324, R326, R334, R397) -/

/-- R326: a command of an engine withholds at an element; the fault service gets one notice. put puts the command back where it
stands. -/
def State.withholdBy (s : State) (ctx engine : Nat) (put : State → Cmd → State) (c : Cmd) (region w : Nat) (elem : Int)
    (outside : Bool) : Try :=
  if (c.notice.map fun n => (n.region, n.elem, n.outside)) = some (region, elem, outside) then .wait
  else
    let since := match c.notice with | some n => n.since | none => s.acOf ctx
    let c := { c with
      st := .withheld
      waitGranule := if c.waitGranule = some (2 ^ 60, 0) then c.waitGranule else none
      notice := some ⟨region, elem, w, outside, since⟩ }
    let s := s.withdrawFor ctx engine c.seq
    .stop (put { s with notices := s.notices ++ [(⟨(s.slotAt ctx).age, engine, c.seq⟩ : NoticeMsg)] } c)
def State.withhold (s : State) (ctx : Nat) (c : Cmd) (region w : Nat) (elem : Int) (outside : Bool) : Try :=
  s.withholdBy ctx 0 (fun s c => s.setCmd ctx c) c region w elem outside
/-- A region fault at an element (R167, R328): DETAIL and `trapval`. -/
def regionFault (region reason : Nat) (E : Int) : Reject :=
  ⟨0x0D, region * 65536 + reason, BitVec.ofNat 64 (region * 2 ^ 48 + (E % 2 ^ 48).toNat)⟩
/-- R335: an uncorrectable word. -/
def eccFault (v : Nat) : Reject := ⟨0x12, 0, BitVec.ofNat 64 v⟩

inductive Reach where
  | tile (as : List Nat)
  | phys (as : List Nat) (set : Bool)
  | oob
  | deny (ext : Nat)
  | blocked (t : Try)

/-- R397, R398: the granules (set, index) of a region are held, or the next one is touched. -/
def State.granulesBy (s : State) (ctx engine : Nat) (put : State → Cmd → State) (c : Cmd) (region w : Nat) (r : Region) :
    List (Nat × Nat) → Option Try
  | [] => none
  | (j, g) :: rest =>
    match ((s.slotAt ctx).decl.sets[j]?).getD none with
    | none => s.granulesBy ctx engine put c region w r rest
    | some t =>
      let E : Int := ((8 * t.first g + w - 1) / w : Nat)
      match r.byteAt false (t.first g) with
      | .at [p] =>
        if s.holds (s.slotAt ctx).age p t.log2g then s.granulesBy ctx engine put c region w r rest
        else if c.waitGranule = some (p, t.log2g) then some .wait
        else
          let s := s.withdrawFor ctx engine c.seq
          let who := c.seq + 65536 * engine
          some (.stop (put { s with touches := s.touches ++ [(⟨ctx, (s.slotAt ctx).age, who, p, t.log2g⟩ : Touch)] }
            { c with
              st := .running
              notice := none
              waitGranule := some (p, t.log2g) }))
      | .outside => some (s.withholdBy ctx engine put c region w E true)
      | _ => some (s.withholdBy ctx engine put c region w E false)
/-- The granules that an element's bytes lie in. -/
def Decl.granulesOf (d : Decl) (region w E : Nat) : List (Nat × Nat) :=
  ((List.range (elemBytes w E)).filterMap fun k => d.granuleOf region (elemByte w E + k)).eraseDups

/-- R324: how a command reaches element E, w bits wide, of an endpoint in tile store or in a region; indirect tells that an index
names the element (R167). -/
def State.reach (s : State) (ctx : Nat) (c : Cmd) (ep w : Nat) (E : Int) (write indirect : Bool) : Reach :=
  let l := s.slotAt ctx
  let oob (region : Nat) : Reach :=
    if c.oobf then .blocked (.stop (s.failCmd ctx c (regionFault region 0x21 E))) else .oob
  if epType ep = 1 then
    if inShare w E then
      let as := shareBytes w E
      if write && l.core.jnl && as.any l.pkt.inJournal then .blocked (.stop (s.failCmd ctx c (regionFault 16 0 E)))
      else .tile as
    else if indirect then oob 16
    else .blocked (.stop (s.failCmd ctx c (regionFault 16 0 E)))
  else
    let n := epRegion ep
    let r := aget ({} : Region) n c.exts
    match r.place write w E with
    | .outside => if indirect then oob n else .blocked (s.withhold ctx c n w E true)
    | .absent => .blocked (s.withhold ctx c n w E false)
    | .denied i => .deny i
    | .at as =>
      if write && as.any l.core.inArena then .deny (((findExtent (elemByte w E.toNat) 0 r.exts).map (·.1)).getD 0)
      else if !l.core.jnl then .phys as false
      else
        let gs := l.decl.granulesOf n w E.toNat
        match s.granulesBy ctx 0 (fun s c => s.setCmd ctx c) c n w r gs with
        | some t => .blocked t
        | none => .phys as (!gs.isEmpty)

/-- R167: an element that an index leads outside is flagged. -/
def Cmd.flagOob (c : Cmd) : Cmd :=
  { c with
    oob := true
    detail := min 0xFFFFFFFF (c.detail + 1) }
/-- R334: a denied element. -/
def Cmd.denyExtent (c : Cmd) (i : Nat) : Cmd := { c with mask := if c.mask.testBit i then c.mask else c.mask + 2 ^ i }

/-- R298, R307: an update that a command has sent is not yet applied, and reaches bytes of a tile-store share (some ctx) or of memory. -/
def State.ownUpdate (s : State) (ctx seq : Nat) (tile : Bool) (as : List Nat) : Bool :=
  s.updates.any fun u => u.ctx == ctx && u.seq == seq && u.bytes.any as.contains
    && match u.loc with
      | .phys _ => !tile
      | .tile _ _ => tile
/-- An element of an endpoint in memory is read (R298, R335, R402). -/
def State.readElem (s : State) (ctx : Nat) (c : Cmd) (ep w : Nat) (E : Int) (indirect : Bool) : Try :=
  let l := s.slotAt ctx
  match s.reach ctx c ep w E false indirect with
  | .blocked t => t
  | .oob => .ok s c.flagOob 0
  | .deny _ => .wait
  | .tile as =>
    if s.ownUpdate ctx c.seq true as then .wait
    else if touchesBad l.badWords as then .stop (s.failCmd ctx c (eccFault (elemByte w E.toNat)))
    else if l.tileUnread then .stop (s.restartUnread ctx)
    else .ok s c (l.readTile as (elemBit w E.toNat) w)
  | .phys as _ =>
    if s.ownUpdate ctx c.seq false as then .wait
    else if touchesBad s.badWords as then
      .stop (s.failCmd ctx c (eccFault (epRegion ep * 2 ^ 48 + E.toNat % 2 ^ 48)))
    else if l.core.jnl && l.journalBad then .stop (s.restartUnread ctx)
    else .ok s c (s.viewElem ctx (epRegion ep) (aget ({} : Region) (epRegion ep) c.exts) w E.toNat as)

/-- R402, R403: one entry is appended to the journal; a full journal is reported once, and the element waits. put puts the command
back where it stands. -/
def State.journalBy (s : State) (ctx : Nat) (put : State → Cmd → State) (c : Cmd) (e : Entry) : Try :=
  let l := s.slotAt ctx
  if l.journalCount < l.pkt.journalRoom then .ok (s.setSlot ctx (·.appendEntry e)) { c with waitGranule := none } 0
  else if c.waitGranule = some (2 ^ 60, 0) then .wait
  else
    .stop (put (s.setCoreAt ctx (·.addPend 0x0C c.head (BitVec.ofNat 64 (64 + 32 * (l.journalCount + 1)))))
      { c with waitGranule := some (2 ^ 60, 0) })
def State.appendJournal (s : State) (ctx : Nat) (c : Cmd) (e : Entry) : Try :=
  s.journalBy ctx (fun s c => s.setCmd ctx c) c e
/-- The entry that a command makes for its ordinal n (R401). -/
def Cmd.entry (c : Cmd) (region E n v : Nat) (op : Nat) : Entry :=
  { efmt := c.dstCode
    region := region
    elem := E
    seq := c.seq
    ord := n
    x := v
    md := bitIf c.ftz 4 + bitIf c.sat 3 + c.rm % 8
    op := op }

/-- An element of an endpoint in memory is written (R145, R334, R402). -/
def State.writeElem (s : State) (ctx : Nat) (c : Cmd) (ep w : Nat) (E : Int) (indirect : Bool) (n v : Nat) : Try :=
  match s.reach ctx c ep w E true indirect with
  | .blocked t => t
  | .oob => .ok s c.flagOob 0
  | .deny i => .ok s (c.denyExtent i) 0
  | .tile as => .ok (s.setSlot ctx (·.writeTile as (elemBit w E.toNat) w v)) c 0
  | .phys as set =>
    if set then s.appendJournal ctx c (c.entry (epRegion ep) E.toNat n v 0)
    else .ok (s.writePhys as (elemBit w E.toNat) w v) c 0

/-- The update of a command's ordinal n at a location (R171). -/
def Cmd.update (c : Cmd) (ctx n : Nat) (loc : Loc) (region : Nat) (E : Nat) (v : Nat) (round : Option Nat) : Update :=
  { ctx := ctx
    seq := c.seq
    ord := n
    loc := loc
    bit := 0
    region := region
    elem := E
    efmt := c.dstCode
    op := c.op
    rm := c.rm
    sat := c.sat
    ftz := c.ftz
    x := v
    wantOld := epType c.ep2 != 7
    round := round }
/-- R402: a journalled element of ordinal n, with the old value that an SATM returns: the view before its own entry. -/
def Try.returning (t : Try) (want : Bool) (n old : Nat) : Try :=
  match t with
  | .ok s c _ => .ok s (if want then { c with returns := c.returns ++ [(n, some old)] } else c) 0
  | t => t
/-- R171: an element of SRED or SATM goes to its home as an update; in a task with JNL = 1 it goes to the journal (R402), and an old value
that it returns is read as the task sees it (R335). -/
def State.updateElem (s : State) (ctx : Nat) (c : Cmd) (w : Nat) (E : Int) (n v : Nat) : Try :=
  let round := if epType c.ep0 = 2 then some c.round else none
  let want := epType c.ep2 != 7
  match s.reach ctx c c.ep1 w E true false with
  | .blocked t => t
  | .oob => .ok s c.flagOob 0
  | .deny i =>
    let c := c.denyExtent i
    .ok s (if want then { c with returns := c.returns ++ [(n, none)] } else c) 0
  | .tile as =>
    let l := s.slotAt ctx
    if l.core.jnl then
      if want && touchesBad l.badWords as then .stop (s.failCmd ctx c (eccFault (elemByte w E.toNat)))
      else if want && l.tileUnread then .stop (s.restartUnread ctx)
      else (s.appendJournal ctx c { c.entry 0 E.toNat n v c.op with tile := true }).returning want n (l.readTile as (elemBit w E.toNat) w)
    else
      let u := c.update ctx n (.tile ctx (as.headD 0)) 16 E.toNat v round
      .ok { s with updates := s.updates ++ [u] } { c with updates := c.updates + 1 } 0
  | .phys as _ =>
    if (s.slotAt ctx).core.jnl then
      if want && touchesBad s.badWords as then .stop (s.failCmd ctx c (eccFault (epRegion c.ep1 * 2 ^ 48 + E.toNat % 2 ^ 48)))
      else if want && (s.slotAt ctx).journalBad then .stop (s.restartUnread ctx)
      else (s.appendJournal ctx c (c.entry (epRegion c.ep1) E.toNat n v c.op)).returning want n
        (s.viewElem ctx (epRegion c.ep1) (aget ({} : Region) (epRegion c.ep1) c.exts) w E.toNat as)
    else
      let u := c.update ctx n (.phys (as.headD 0)) (epRegion c.ep1) E.toNat v round
      .ok { s with updates := s.updates ++ [u] } { c with updates := c.updates + 1 } 0

/-! ### Windrows (R178, R179) -/

/-- n bits have gone into slot WP; a full slot is published. -/
def Windrow.wrote (w : Windrow) (n : Nat) : Windrow :=
  if w.wbits + n < 8 * w.size then { w with wbits := w.wbits + n } else { w.give 1 with wbits := 0 }
/-- n bits have come out of slot RP; a slot read to its end is free. -/
def Windrow.readOn (w : Windrow) (n : Nat) : Windrow :=
  if w.rbits + n < 8 * w.size then { w with rbits := w.rbits + n } else { w.take 1 with rbits := 0 }
/-- Bits that slot WP still takes, and that slot RP still gives. -/
def Windrow.writeLeft (w : Windrow) : Nat := 8 * w.size - w.wbits
def Windrow.readLeft (w : Windrow) : Nat := 8 * w.size - w.rbits
/-- The bytes from a on that n bits lie in, from a bit on. -/
def bytesFrom (a bit n : Nat) : List Nat := (List.range ((bit % 8 + n + 7) / 8)).map (a + bit / 8 + ·)
/-- The bytes that the next n bits are written to, and read from. -/
def Windrow.putBytes (w : Windrow) (n : Nat) : List Nat := bytesFrom (w.base + w.wp * w.size) w.wbits n
def Windrow.getBytes (w : Windrow) (n : Nat) : List Nat := bytesFrom (w.base + w.rp * w.size) w.rbits n
/-- R178: a slot has a windrow with a free place. -/
def Slot.windrowRoom (l : Slot) (id : Nat) : Bool :=
  match l.core.windrow id with
  | some w => decide (0 < w.free)
  | none => false
/-- R145: n bits are written into a windrow of a slot in one access; the other bits of their bytes stay. -/
def Slot.windrowPut (l : Slot) (id n v : Nat) : Slot :=
  match l.core.windrow id with
  | some w => { l.writeTile (w.putBytes n) (w.wbits % 8) n v with core := l.core.setWindrow id (w.wrote n) }
  | none => l
/-- The bits that the slot WP of a windrow still takes. -/
def Slot.windrowLeft (l : Slot) (id : Nat) : Nat := ((l.core.windrow id).map (·.writeLeft)).getD 0
/-- R400: the next n bits of a windrow lie in the slot's journal. -/
def Slot.windrowJournal (l : Slot) (id n : Nat) : Bool :=
  match l.core.windrow id with
  | some w => l.core.jnl && (w.putBytes n).any l.pkt.inJournal
  | none => false
/-- A slot of a windrow that is written in part is published. -/
def Core.publishPart (c : Core) (id : Nat) : Core :=
  match c.windrow id with
  | some w => if 0 < w.wbits then c.setWindrow id { w.give 1 with wbits := 0 } else c
  | none => c
/-- A slot of a windrow that is read in part is consumed. -/
def Core.consumePart (c : Core) (id : Nat) : Core :=
  match c.windrow id with
  | some w => if 0 < w.rbits then c.setWindrow id { w.take 1 with rbits := 0 } else c
  | none => c
/-- R178: at a command's retirement a slot written in part is published, and one read in part is consumed. -/
def State.closeParts (s : State) (ctx : Nat) (m : Cmd) : State :=
  let s := if epType m.ep0 = 5 then s.setCoreAt ctx (·.consumePart (epFifo m.ep0)) else s
  let s := if epType m.ep2 = 5 then s.setCoreAt ctx (·.publishPart (epFifo m.ep2)) else s
  if epType m.ep1 ≠ 5 then s
  else if m.kind = 7 then
    (m.peers.filter fun (i, d, age) => !m.mask.testBit i && (s.slotAt d).runs && (s.slotAt d).age == age).foldl (fun s (_, d, _) => s.setCoreAt d (·.publishPart (epFifo m.ep1))) s
  else s.setCoreAt ctx (·.publishPart (epFifo m.ep1))

/-! ### Sending tokens (R151, R162, R268, R281, R355, R358) -/

/-- A token of a command. -/
def valueTok (pay : Nat) (lem : Bool) : Tok := ⟨pay, 0, lem, false⟩
def bareTok : Tok := ⟨0, 0, true, true⟩
def markTok : Tok := ⟨0, 0, false, true⟩
/-- R268: the other plane. -/
def Cmd.planeFault (c : Cmd) : Reject := ⟨0x0F, 0x05, c.formatVal 0x05⟩
/-- R358: the destination package cannot be reached on any station. -/
def pkgFault (pkg : Nat) : Reject := ⟨0x0D, 0xFFFF * 65536 + pkg % 1024, BitVec.ofNat 64 (0xFFFF * 2 ^ 48)⟩
/-- The packages that a die's stations reach (R358). -/
def State.stationsUp (s : State) (ctx : Nat) : Bool := decide ((s.die (dieOf (nodeOf ctx))).stations.length < 4)
/-- R274: a place for one more token at a port or FIFO of a slot, counting those on their way. -/
def State.remoteRoom (s : State) (dst port : Nat) : Bool :=
  let coming := (s.remotes.filter fun r => r.dst == dst && r.port == port).length
  let l := s.slotAt dst
  if !l.runs || (s.lender dst).isSome then decide (coming < 8)
  else if 60 ≤ port then decide ((l.core.xi[Fin.ofNat 4 (port - 60)]).length + coming < fifoDepth)
  else l.quad.portRoom port && decide ((l.quad.port port).q.length + (l.quad.port port).incoming.length + coming < 8)
/-- R449: a delivery of a slot on a command's VC is held at a borrowed slot. -/
def State.vcStalled (s : State) (ctx : Nat) (c : Cmd) : Bool :=
  s.held.any fun (_, h) => match h with
    | .token r =>
      let e := (s.slotAt ctx).eng
      r.src == ctx && (e.flying ++ e.failed).any fun x => x.seq == r.seq && x.vc == c.vc
    | .count _ => false
def State.sendRoom (s : State) (ctx : Nat) (c : Cmd) (dst port : Nat) : Bool := s.remoteRoom dst port && !s.vcStalled ctx c
/-- A token leaves for a port or FIFO of a slot, of this package or another. -/
def State.sendRemote (s : State) (ctx : Nat) (c : Cmd) (e : Nat) (t : Tok) (event : Option Nat) : Try :=
  let dst := epCtx e
  let port := epRemotePort e
  let r : Remote := ⟨ctx, c.seq, dst, port, epRemoteCpl e, t, event, none⟩
  if epOwn e || epPkg e == s.pkgId then
    let q := (s.slotAt dst).quad
    if (s.slotAt dst).runs && (s.lender dst).isNone && decide (port < 48) && q.mapsIn port && q.inPlane port != epRemoteCpl e then
      .stop (s.failCmd ctx c c.planeFault)
    else if s.sendRoom ctx c dst port then .ok { s with remotes := s.remotes ++ [r] } c 0
    else .wait
  else if s.reaches (epPkg e) && s.stationsUp ctx then .ok { s with sent := s.sent ++ [.token (epPkg e) r] } c 0
  else .stop (s.failCmd ctx c (pkgFault (epPkg e)))
/-- A token with n elements of a command src (slot and SEQ) enters an input port of a slot in the next ac (R281). -/
def State.sendPort (s : State) (dst p : Nat) (t : Tok) (src : Nat × Nat) (n : Nat) : State :=
  s.setSlot dst fun l => { l with quad := l.quad.sendToPort (s.acOf dst) p t src n }
/-- A token with n elements goes to an endpoint of a command: a port, a FIFO or a remote port. -/
def State.sendTok (s : State) (ctx : Nat) (c : Cmd) (e : Nat) (t : Tok) (n : Nat) : Try :=
  let l := s.slotAt ctx
  match epType e with
  | 2 =>
    if l.quad.mapsIn (epPort e) && l.quad.inPlane (epPort e) != epCpl e then .stop (s.failCmd ctx c c.planeFault)
    else if l.quad.portRoom (epPort e) then .ok (s.sendPort ctx (epPort e) t (ctx, c.seq) n) c 0
    else .wait
  | 3 =>
    if l.core.xiRoom (epFifo e - 8) then .ok (s.setCoreAt ctx (·.pushXi (epFifo e - 8) (BitVec.ofNat 64 t.pay))) c 0 else .wait
  | 4 => s.sendRemote ctx c e t none
  | _ => .wait
/-- R162: elements are packed into data tokens for this endpoint. -/
def epPacks (e : Nat) : Bool :=
  (epType e == 2 && !epCpl e) || (epType e == 4 && !epRemoteCpl e && decide (epRemotePort e < 48))
/-- R266: an endpoint that takes a bare last-element marker. -/
def epIsPort (e : Nat) : Bool := epType e == 2 || (epType e == 4 && decide (epRemotePort e < 48))

/-! ### The destinations of an SMC (R170, R331, R332, R353) -/

/-- R331: the slot grants the sender's writes. -/
def State.writeGranted (s : State) (ctx dst : Nat) : Bool :=
  let d := (s.slotAt dst).decl
  ctx == dst || d.grantPkg || (d.grantSame && (s.slotAt dst).epoch == (s.slotAt ctx).epoch)
/-- R332: the destination is suppressed before the first element; so is one whose windrow is not declared (DEDUCED, log 115). -/
def State.smcDenied (s : State) (ctx : Nat) (c : Cmd) (dst : Nat) : Bool :=
  !(s.slotAt dst).runs
    || (epType c.ep1 != 2 && !s.writeGranted ctx dst)
    || (epType c.ep1 == 5 && ((s.slotAt dst).core.windrow (epFifo c.ep1)).isNone)
/-- R332: the destinations as the first element becomes due. -/
def State.smcBegin (s : State) (ctx : Nat) (c : Cmd) : Cmd :=
  c.smcSlots.foldl (fun (c : Cmd) (i, d) =>
    if s.smcDenied ctx c d then c.denyExtent i else { c with peers := c.peers ++ [(i, d, (s.slotAt d).age)] }) c
/-- The destinations that still take elements. -/
def Cmd.smcLive (c : Cmd) : List (Nat × Nat × Word) := c.peers.filter fun (i, _, _) => !c.mask.testBit i
/-- R332: a destination whose task has ended is suppressed; one whose task is saved is waited for (DEDUCED, log 23). -/
def State.smcPrune (s : State) (c : Cmd) : Option Cmd :=
  let here (d : Nat) (age : Word) : Bool := (s.slotAt d).runs && (s.slotAt d).age == age
  if c.smcLive.any fun (_, d, age) => !here d age && s.savedTasks.any fun w => w.task.age == age then none
  else some (c.smcLive.foldl (fun (c : Cmd) (i, d, age) => if here d age then c else c.denyExtent i) c)
/-- R353: every destination of a token has a place for it. -/
def State.smcTokRoom (s : State) (ds : List (Nat × Nat × Word)) (c : Cmd) : Bool :=
  ds.all fun (_, d, _) => (s.slotAt d).quad.portRoom (epPort c.ep1)
def State.smcPlanes (s : State) (c : Cmd) : Bool :=
  c.smcLive.all fun (_, d, _) =>
    let q := (s.slotAt d).quad
    !q.mapsIn (epPort c.ep1) || q.inPlane (epPort c.ep1) == epCpl c.ep1
/-- The destinations of the token that is to go: after a rollback of its slot's region an SMC sends the ports of other slots no token again
that they have had (R341). -/
def Cmd.smcFor (c : Cmd) (ctx : Nat) : List (Nat × Nat × Word) :=
  let last := if c.pack.isEmpty then c.cursor + 1 else c.cursor
  c.smcLive.filter fun (_, d, _) => d == ctx || decide (c.skipTo < last)
/-- A token goes to every live destination. -/
def State.smcTok (s : State) (ctx : Nat) (c : Cmd) (t : Tok) (n : Nat) : Try :=
  match s.smcPrune c with
  | none => .wait
  | some c =>
    if !s.smcPlanes c then .stop (s.failCmd ctx c c.planeFault)
    else if !s.smcTokRoom (c.smcFor ctx) c then .wait
    else .ok ((c.smcFor ctx).foldl (fun s (_, d, _) => s.sendPort d (epPort c.ep1) t (ctx, c.seq) n) s) c 0
/-- An element is written at the same tile-store place of every live destination. -/
def State.smcWrite (s : State) (ctx : Nat) (c : Cmd) (w : Nat) (E : Int) (v : Nat) : Try :=
  match s.smcPrune c with
  | none => .wait
  | some c =>
    let as := shareBytes w E
    if !inShare w E || c.smcLive.any (fun (_, d, _) => (s.slotAt d).core.jnl && as.any (s.slotAt d).pkt.inJournal) then
      .stop (s.failCmd ctx c (regionFault 16 0 E))
    else .ok (c.smcLive.foldl (fun s (_, d, _) => s.setSlot d (·.writeTile as (elemBit w E.toNat) w v)) s) c 0
/-- The bits of a command's element that go into a windrow next: all of them, or those that the slot WP still takes. -/
def Cmd.nextBits (c : Cmd) (left : Nat) : Nat := min c.outBits.2 left
/-- The command without n bits that have gone into a windrow. -/
def Cmd.bitsGone (c : Cmd) (n : Nat) : Cmd := { c with outBits := (c.outBits.1 / 2 ^ n, c.outBits.2 - n) }
/-- An element goes into the windrow of every live destination: whole, but where the slot WP of a destination ends inside it, which then
takes the rest in the next move (R145, R178; log 57). -/
def State.smcBits (s : State) (ctx : Nat) (c : Cmd) : Try :=
  match s.smcPrune c with
  | none => .wait
  | some c =>
    let id := epFifo c.ep1
    let got (i : Nat) : Nat := aget 0 i c.partBits
    let put (i d : Nat) : Nat := min (c.outBits.2 - got i) ((s.slotAt d).windrowLeft id)
    let more := c.smcLive.filter fun (i, _, _) => decide (got i < c.outBits.2)
    if !(more.all fun (_, d, _) => (s.slotAt d).windrowRoom id) then .wait
    else if more.any fun (i, d, _) => (s.slotAt d).windrowJournal id (put i d) then
      .stop (s.failCmd ctx c (regionFault 16 0 0))
    else
      let s' := more.foldl (fun t (i, d, _) =>
        t.setSlot d (·.windrowPut id (put i d) (c.outBits.1 / 2 ^ got i % 2 ^ put i d))) s
      let parts := more.foldl (fun m (i, d, _) => aset i (got i + put i d) m) c.partBits
      if c.smcLive.all fun (i, _, _) => aget 0 i parts == c.outBits.2 then .ok s' { c.bitsGone c.outBits.2 with partBits := [] } 0
      else .ok s' { c with partBits := parts } 0

/-! ### Sending what is packed -/

/-- A token to the destination of a command: to EP1, or to every destination of an SMC. -/
def State.sendMain (s : State) (ctx : Nat) (c : Cmd) (t : Tok) (n : Nat) : Try :=
  if c.kind = 7 then s.smcTok ctx c t n else s.sendTok ctx c c.ep1 t n
/-- R162: the payload of a data token: elements, then the pad pattern. -/
def Cmd.packed (c : Cmd) (xs : List Nat) : Nat :=
  let f := c.dstFmt
  packFields f.width (xs ++ List.replicate (f.lanes - xs.length) c.padv)

/-- R169, R152: the element that ordinal n takes on the side that the dimensions enumerate. -/
def Cmd.enumerate (c : Cmd) (off n : Nat) : Int :=
  let s0 := c.size 0
  let s1 := c.size 1
  let s2 := c.size 2
  (off : Int) + (n % s0 : Nat) * c.stride 0 + (n / s0 % s1 : Nat) * c.stride 1 + (n / (s0 * s1) % s2 : Nat) * c.stride 2
    + (n / (s0 * s1 * s2) : Nat) * c.stride 3
/-- R165: the kinds whose dimensions enumerate EP0. -/
def enumeratesSource (k : Nat) : Bool := k == 1 || k == 7 || k == 0x0B || k == 0x0F
/-- R167: the index that ordinal n needs, by its number. -/
def Cmd.indexOf (c : Cmd) (n : Nat) : Nat := if c.kind = 8 then n / c.size 0 else n
/-- R167: the element that an index gives. -/
def Cmd.byIndex (c : Cmd) (off n : Nat) (x : Int) : Int :=
  if c.kind = 8 then (off : Int) + x * c.stride 1 + (n % c.size 0 : Nat) * c.stride 0 else (off : Int) + x * c.stride 0
/-- R351: the source ordinal that is delivered as ordinal n through a TRP entry. -/
def Cmd.transposed (c : Cmd) (n : Nat) : Nat :=
  if c.filtFn = 3 then
    let r := c.rows
    let k := c.cols
    let q := n % (r * k)
    n - q + q % r * k + q / r
  else n

/-! ### Ends of a command -/

/-- R351: the elements that a command delivers; a ZRD command's count is in bytes. -/
def Cmd.outTotal (c : Cmd) : Nat := if c.filtFn = 2 then c.count * 8 / c.dstFmt.width else c.count
/-- The next ordinal that it delivers. -/
def Cmd.outNext (c : Cmd) : Nat := if c.filtFn = 2 then c.outn else c.cursor
/-- The source bits that a command has taken from a windrow since it bound (R178); a ZRD one's bytes count from its first tile. -/
def Cmd.drawn (c : Cmd) : Nat :=
  c.inBits.2 + if c.filtFn = 2 then 8 * ((if c.has 11 then c.w 12 else 0) - c.tile0 + c.run.length)
    else c.srcFmt.width * (c.cursor - c.bound0 % 2 ^ 48 + c.run.length + c.ready.length)
/-- R180: no further element is to be taken. -/
def Cmd.over (c : Cmd) : Bool := (c.closing && decide (c.limit.getD 0 ≤ c.outNext)) || decide (c.outTotal ≤ c.outNext)
/-- An element has been delivered. -/
def Cmd.advance (c : Cmd) : Cmd :=
  let c := { c with
    st := .running
    notice := none
    waitGranule := none }
  if c.filtFn = 2 then
    { c with
      outn := c.outn + 1
      cursor := (c.outn + 1) * c.dstFmt.width / 8 }
  else { c with cursor := c.cursor + 1 }

/-! ### Cut entries (R278) -/

/-- A command feeds input port p of its slot by its return endpoint. -/
def Cmd.returnsTo (c : Cmd) (p : Nat) : Bool := c.kind == 0x0A && epType c.ep2 == 2 && epPort c.ep2 == p
/-- The elements of a command of slot ctx that have entered the input port which it feeds, or a STOK's one token: those in tokens behind a
marker are not counted. -/
def Slot.fedCursor (l : Slot) (ctx : Nat) (c : Cmd) (p : Nat) : Nat :=
  let waiting := (((l.quad.port p).incoming.filter fun x => x.src == (ctx, c.seq) && !x.again).map (·.n)).sum
  (if c.kind = 0x10 then bitIf c.fin 0 else if c.returnsTo p then c.retNext - c.retPack.length else c.outNext - c.pack.length) - waiting
/-- How far a command has come, as a cut record gives it: its next ordinal, or an SREC's CURSOR. -/
def Cmd.reached (c : Cmd) : Nat := if c.kind = 5 then c.cursorNow else c.outNext
/-- The commands of a slot that are bound to a port, or retired while bound and kept. -/
def StreamEng.recorded (e : StreamEng) : List Cmd := e.kept ++ e.flying.filter (·.started) ++ e.delayed
/-- R168, R278: an SREC as a marker enters the input port that it feeds: the tokens it holds, and those on their way, belong to later rounds
of the port; S counts the initial tokens that have entered. -/
def Slot.loopIn (l : Slot) (ctx : Nat) (c : Cmd) (p r : Nat) : CutEntry :=
  let waiting := (l.quad.port p).incoming.filter fun x => x.src == (ctx, c.seq) && !x.again
  let sent := min c.count (c.cursor - c.held.length)
  let late := min waiting.length sent
  let early := waiting.length - late
  ⟨r, c.seq, c.cursor + (c.sent - early) * 2 ^ 48, numbered (sent - late) ((waiting.drop early).map (·.tok)) ++ c.held⟩
/-- R278: an SREC as marker r leaves the output port that it takes from: with T as it stands, it holds what it had when marker r entered its
input port, and what it has taken since for EP1. -/
def Slot.loopOut (l : Slot) (c : Cmd) (r : Nat) : CutEntry :=
  match l.quad.entries.find? fun e => e.round == r && e.seq == c.seq with
  | some e =>
    let more := c.loop.filter fun (k, _) => decide (e.cursor % 2 ^ 48 ≤ k) && decide (k < c.count)
    ⟨r, c.seq, c.cursor + e.cursor / 2 ^ 48 * 2 ^ 48, (e.held.filter fun (k, _) => decide (k < c.count)) ++ more⟩
  | none =>
    if l.quad.marks.contains (r, epPort c.ep1) then
      ⟨r, c.seq, c.cursor + c.bound0 / 2 ^ 48 % 16 * 2 ^ 48, c.loop.filter fun (k, _) => decide (k < c.count)⟩
    else ⟨r, c.seq, c.cursorNow, c.held⟩
/-- R278: a marker has entered input port p: the cursors of the commands that feed it; of an SREC that has forwarded the marker, its CURSOR
as it did stands. -/
def Slot.markIn (l : Slot) (ctx p tag : Nat) : Slot :=
  let r := tag
  let feeds (c : Cmd) : Bool := epType c.ep0 != 2 && (c.returnsTo p || (epType c.ep1 == 2 && epPort c.ep1 == p
    && (c.kind != 7 || c.smcSlots.any fun (_, d) => d == ctx)))
  let loops (c : Cmd) : Bool := c.kind == 5 && epPort c.ep1 == p && !l.quad.entries.any fun e => e.round == r && e.seq == c.seq
  let es := (l.eng.recorded.filter feeds).map (fun c => (⟨r, c.seq, l.fedCursor ctx c p, []⟩ : CutEntry))
    ++ (l.eng.recorded.filter loops).map fun c => l.loopIn ctx c p r
  { l with quad := { l.quad with
      entries := l.quad.entries ++ es
      marks := (r, p) :: l.quad.marks } }
/-- R278: a marker of round r has left output port p: the cursors of the commands that take from it. -/
def Slot.markOut (l : Slot) (p r : Nat) : Slot :=
  let takes (c : Cmd) : Bool := epType c.ep0 == 2 && epPort c.ep0 == p
  let cs := l.eng.recorded.filter takes
  let es := cs.map fun c => if c.kind = 5 then l.loopOut c r else (⟨r, c.seq, c.reached, []⟩ : CutEntry)
  { l with quad := { l.quad with
      entries := (l.quad.entries.filter fun e => !(e.round == r && cs.any fun c => c.kind == 5 && c.seq == e.seq)) ++ es
      marks := (r, 100 + p) :: l.quad.marks } }
/-- Where a command stands in a cut record, as its position would be at its end: its last ordinal, or its last return's; a STOK's one token. -/
def Cmd.final (c : Cmd) : Nat :=
  if c.kind = 0x10 then bitIf c.fin 0 else if c.kind = 0x0A && epType c.ep0 != 2 then c.retNext else c.reached
/-- R337: a kept command had ended when the cut that has just completed took its ports: it stood at its end as the marker of the cut passed,
or no marker of that round passes a port of its slot (marks are those of open rounds before the cut). -/
def Quad.coversAll (q : Quad) (ctx : Nat) (marks : List (Nat × Nat)) (c : Cmd) : Bool :=
  match q.lastCut with
  | some k =>
    match k.entries.find? fun e => e.seq == c.seq with
    | some e => e.cursor == c.final && e.held.isEmpty
    | none => !(c.sides ctx).any fun d => marks.contains (k.round, d)
  | none => false
/-- R278, R337: the quadrant of a slot as a move leaves it; where a cut has completed, the kept commands that had ended by then are
dropped. -/
def Slot.cutTo (l : Slot) (ctx : Nat) (q : Quad) (now : Nat) : Slot :=
  let q' := q.tryCut now
  if q'.cuts = l.quad.cuts then { l with quad := q' }
  else
    { l with
      quad := q'
      eng := { l.eng with kept := l.eng.kept.filter fun c => !q'.coversAll ctx l.quad.marks c } }
def Slot.cutCheck (l : Slot) (ctx now : Nat) : Slot := l.cutTo ctx l.quad now
/-- R285: a token of a stream has entered port p: another command than the one that faulted has resumed the stream. -/
def Quad.resume (q : Quad) (p : Nat) (src : Nat × Nat) : Quad :=
  { q with spoiled := q.spoiled.map fun x => if x.port = p ∧ x.src ≠ src then { x with resumed := true } else x }
/-- R276, R278, R285: after a token has entered input port p: a marker's cursors are recorded, and the rounds of a stream that has been
resumed can complete. -/
def Slot.entered (l : Slot) (ctx p now : Nat) (t : Tok) (pr : Nat) : Slot :=
  if t.isMarker then
    let l := l.markIn ctx p pr
    ({ l with quad := { l.quad with spoiled := l.quad.spoiled.filter fun x => x.fatal || !(x.port == p && x.resumed) } } : Slot).cutCheck ctx now
  else l

end Sys2Proof.Machine
end

