-- ==== Sys2Proof/Machine/Stream.lean ====
section
/-! DEFINITION. The stream engine at work: how a command starts, moves one element or token, and retires (spec/06 R157 to R182). -/

namespace Sys2Proof.Machine

/-! ### Taking one element (R162, R166, R167, R351) -/

/-- Bytes read one after another. -/
inductive Run where
  | halt (t : Try)
  | ok (bs : List Nat)
/-- n elements of 8 bits from E on. -/
def State.readRun (s : State) (ctx : Nat) (c : Cmd) (E : Int) : Nat → Run
  | 0 => .ok []
  | n + 1 =>
    match s.readElem ctx c c.ep0 8 E false with
    | .ok _ _ v =>
      match s.readRun ctx c (E + 1) n with
      | .ok vs => .ok (v :: vs)
      | .halt t => .halt t
    | t => .halt t
/-- R351: the 256 output bytes of a tile, from its map and the bytes that are kept. -/
def expandTile (map : Nat) : Nat → Nat → List Nat → List Nat
  | _, 0, _ => []
  | i, n + 1, bs =>
    if map.testBit i then
      match bs with
      | b :: rest => b :: expandTile map (i + 1) n rest
      | [] => 0 :: expandTile map (i + 1) n []
    else 0 :: expandTile map (i + 1) n bs
def popCount (v : Nat) : Nat := ((List.range 256).filter v.testBit).length
/-- R352: the source byte offset of a ZRD command's next tile, kept in AUX1. -/
def Cmd.tileAt (c : Cmd) : Nat := if c.has 11 then c.w 12 else 0
/-- The payload of a data token of a command, and the token of its packed elements. -/
def State.flushPack (s : State) (ctx : Nat) (c : Cmd) (lem : Bool) : Try :=
  s.sendMain ctx c (valueTok (c.packed c.pack) lem) c.pack.length
/-- R167, R352: before a fault at an element is reported, what is packed of the elements before it leaves. -/
def State.flushFirst (s : State) (ctx : Nat) (c : Cmd) (t : Try) : Try :=
  if c.pack.isEmpty then t
  else
    match s.flushPack ctx c false with
    | .ok s c _ => .stop (s.setCmd ctx { c with pack := [] })
    | t => t
/-- R352: the decode error of the tile at source offset o. -/
def State.tileFault (s : State) (ctx : Nat) (c : Cmd) (o : Nat) : Try :=
  s.flushFirst ctx c (.stop (s.failCmd ctx { c with run := [] } ⟨0x0E, c.filter, BitVec.ofNat 64 (c.filter * 2 ^ 56 + o % 2 ^ 48)⟩))
/-- R351: a ZRD command with the tile at source offset o decoded: its map, and its payload bytes. -/
def Cmd.withTile (c : Cmd) (o map : Nat) (bs : List Nat) : Cmd :=
  let w := c.dstFmt.width
  let bits := c.tileBits.1 + 2 ^ c.tileBits.2 * packFields 8 (expandTile map 0 256 bs)
  let n := (c.tileBits.2 + 2048) / w
  { c with
    st := .running
    notice := none
    run := []
    tileFrom := some ⟨o, c.cursor, c.outn, c.tileBits⟩
    tilePrev := c.tileFrom
    ready := fieldsOf w n bits
    tileBits := (bits / 2 ^ (w * n), (c.tileBits.2 + 2048) % w)
    raw := setFlag (c.raw.set 12 (BitVec.ofNat 64 (o + 32 + bs.length))) 11 }
/-- A ZRD command as its next tile begins: CURSOR is the first output byte of the tile. -/
def Cmd.atNextTile (c : Cmd) : Cmd := { c with cursor := (c.cursor + 255) / 256 * 256 }
/-- R351, R352: the next tile of a ZRD command is decoded whole. -/
def State.takeTile (s : State) (ctx : Nat) (c : Cmd) : Try :=
  let c := c.atNextTile
  let o := c.tileAt
  let E : Int := (epOff c.ep0 + o : Nat)
  match s.readRun ctx c E 32 with
  | .halt t => t
  | .ok ms =>
    let map := packFields 8 ms
    let k := popCount map
    if 128 < k then s.tileFault ctx c o
    else
      match s.readRun ctx c (E + 32) k with
      | .halt t => t
      | .ok bs => .stop (s.setCmd ctx (c.withTile o map bs))

/-- R167: the index that ordinal n needs: supplied, still to come, or never to come. -/
inductive Index where
  | here (x : Int)
  | later
  | never
def Slot.index (l : Slot) (c : Cmd) (n : Nat) : Index :=
  let k := (c.link).getD 0
  let link := aget ({} : IndexLink) k l.eng.links
  match link.vals[c.indexOf n]? with
  | some x => .here x
  | none => if link.ended then .never else .later
/-- R167: the producer has ended short: the command ends after the last index it received. -/
def Cmd.endShort (c : Cmd) : Cmd :=
  { c with
    closing := true
    closed := true
    limit := some c.outNext }

/-- The next marker of an output port is taken (R278, R279): its cursors are recorded. -/
def State.popMarker (s : State) (ctx : Nat) (c : Cmd) (p r : Nat) : State :=
  (s.setCmd ctx c).setSlot ctx fun l =>
    let l := if l.quad.awaited p r then l.markOut p r else l
    ({ l with quad := l.quad.popOut p }).cutCheck ctx (s.acOf ctx)
/-- R279: the marker at the head of output port p: forwarded behind what is packed, or taken as the end of a round once the earlier
writes are performed. -/
def State.takeMarker (s : State) (ctx : Nat) (c : Cmd) (p : Nat) (t : Tok) : Try :=
  let r := t.tag
  let old := (s.slotAt ctx).quad.leftOver p
  let again := !old && match c.lastMark with | some k => decide (r ≤ k) | none => false
  let onward := epIsPort c.ep1 && c.kind != 5
  if onward && !again then
    if !c.pack.isEmpty then
      match s.flushPack ctx c false with
      | .ok s c _ => .stop (s.setCmd ctx { c with pack := [] })
      | t => t
    else
      match s.sendMain ctx c markTok 0 with
      | .ok s c _ => .stop (s.popMarker ctx (if old then c else { c with lastMark := some r }) p r)
      | t => t
  else if 0 < c.updates then .wait
  else .stop (s.popMarker ctx c p r)
/-- The elements of a token from an output port (R162, R272). -/
def Cmd.elements (c : Cmd) (t : Tok) (rep : Bool) : List Nat :=
  let f := c.srcFmt
  if epCpl c.ep0 then [t.pay % 2 ^ f.width] else lanesOf f (if rep then Quad.replicate f t.pay else t.pay)
/-- The next token of an output port (R270, R281). -/
def State.takePort (s : State) (ctx : Nat) (c : Cmd) : Try :=
  let p := epPort c.ep0
  let q := (s.slotAt ctx).quad
  match q.outHeads p with
  | [] => .wait
  | (t, rep) :: _ =>
    if q.mapsOut p && q.outPlane p != epCpl c.ep0 then .stop (s.failCmd ctx c c.planeFault)
    else if t.isMarker then s.takeMarker ctx c p t
    else
      let left := c.outTotal - c.outNext - c.run.length
      let s := s.setSlot ctx fun l => { l with quad := l.quad.popOut p }
      .stop (s.setCmd ctx { c with
        st := .running
        unpack := (c.elements t rep).take left
        round := q.roundOf p t.tag })
/-- The next element of an `xo` FIFO. -/
def State.takeFifo (s : State) (ctx : Nat) (c : Cmd) : Try :=
  let k := Fin.ofNat 4 (epFifo c.ep0 - 12)
  match (s.slotAt ctx).core.xo[k] with
  | [] => .wait
  | x :: rest => .ok (s.setCoreAt ctx fun r => { r with xo := r.xo.set k rest }) c (x.toNat % 2 ^ c.srcFmt.width)
/-- The next w bits of a windrow, read in one access unless they go on in the next slot (R145, R178, R298, R335). -/
def State.drawWindrow (s : State) (ctx : Nat) (c : Cmd) (w : Nat) : Try :=
  let l := s.slotAt ctx
  let id := epFifo c.ep0
  match l.core.windrow id with
  | none => .wait
  | some r =>
    let n := min (w - c.inBits.2) r.readLeft
    let as := r.getBytes n
    if r.filled = 0 || s.ownUpdate ctx c.seq true as then .wait
    else if touchesBad l.badWords as then .stop (s.failCmd ctx c (eccFault (as.headD 0)))
    else if l.tileUnread then .stop (s.restartUnread ctx)
    else
      let v := c.inBits.1 + l.readTile as (r.rbits % 8) n * 2 ^ c.inBits.2
      let s := s.setCoreAt ctx (·.setWindrow id (r.readOn n))
      if c.inBits.2 + n = w then .ok s { c with inBits := (0, 0) } v
      else
        .stop (s.setCmd ctx { c with
          st := .running
          inBits := (v, c.inBits.2 + n) })
/-- R351: the bytes of a ZRD command's next tile that it has drawn from its windrow tell whether it needs more. -/
def tileNeeds (bs : List Nat) : Nat := if bs.length < 32 then 32 else 32 + popCount (packFields 8 (bs.take 32))
/-- R351, R352: the next tile of a ZRD command whose source is a windrow (R165): its bytes are drawn one by one as they come. -/
def State.drawTile (s : State) (ctx : Nat) (c : Cmd) : Try :=
  let c := c.atNextTile
  let map := packFields 8 (c.run.take 32)
  if 32 ≤ c.run.length ∧ 128 < popCount map then s.tileFault ctx c c.tileAt
  else if tileNeeds c.run ≤ c.run.length then .stop (s.setCmd ctx (c.withTile c.tileAt map (c.run.drop 32)))
  else
    match s.drawWindrow ctx c 8 with
    | .ok s c v => .stop (s.setCmd ctx { c with
        st := .running
        run := c.run ++ [v] })
    | t => t
/-- The next element of a windrow. -/
def State.takeWindrow (s : State) (ctx : Nat) (c : Cmd) : Try :=
  if c.filtFn = 2 then s.drawTile ctx c else s.drawWindrow ctx c c.srcFmt.width
/-- R167: an index leads element E of the source out, and the command is to fault there. -/
def Cmd.strays (c : Cmd) (w : Nat) (E : Int) : Bool :=
  c.oobf && if epType c.ep0 = 1 then !inShare w E
    else match (aget ({} : Region) (epRegion c.ep0) c.exts).place false w E with
      | .outside => true
      | _ => false
/-- The element of a tile-store or region source that ordinal n takes (R166, R167). -/
def State.takeMemory (s : State) (ctx : Nat) (c : Cmd) : Try :=
  let w := c.srcFmt.width
  let off := epOff c.ep0
  if c.filtFn = 2 then s.takeTile ctx c
  else if c.kind = 3 ∨ c.kind = 8 then
    match (s.slotAt ctx).index c c.cursor with
    | .here x =>
      let E := c.byIndex off c.cursor x
      let t := s.readElem ctx c c.ep0 w E true
      if c.strays w E then s.flushFirst ctx c t else t
    | .later => .wait
    | .never => .stop (s.setCmd ctx c.endShort)
  else
    let n := c.transposed c.cursor
    s.readElem ctx c c.ep0 w (if enumeratesSource c.kind then c.enumerate off n else (off + n : Nat)) false
/-- R169: the pattern of an SFILL. -/
def Cmd.fillValue (c : Cmd) : Nat :=
  if c.efmtCode = 0x0B then wrapInt 64 (toSigned 32 (c.aux0 % 2 ^ 32)) else c.aux0 % 2 ^ c.dstFmt.width
/-- The next element as the source gives it. -/
def State.takeRaw (s : State) (ctx : Nat) (c : Cmd) : Try :=
  match c.unpack with
  | v :: rest => .ok s { c with unpack := rest } v
  | [] =>
    match epType c.ep0 with
    | 0 => s.takeMemory ctx c
    | 1 => s.takeMemory ctx c
    | 2 => s.takePort ctx c
    | 3 => s.takeFifo ctx c
    | 5 => s.takeWindrow ctx c
    | _ => .ok s c c.fillValue
/-- R351: a gathered run in the order of its delivery. -/
def Cmd.permuted (c : Cmd) (xs : List Nat) : List Nat :=
  (List.range xs.length).map fun q => (xs[q % c.rows * c.cols + q / c.rows]?).getD 0
/-- R351: an element through a CONV entry. -/
def Cmd.convert (c : Cmd) (v : Nat) : Nat :=
  match c.filt with
  | some (w0, _) =>
    if bitsOf w0.toNat 31 29 = 1 then
      roundTo c.dstFmt ⟨RMode.ofCode (bitsOf w0.toNat 26 24), w0.getLsbD 27, w0.getLsbD 28⟩ (c.srcFmt.operand (w0.getLsbD 28) v)
    else v
  | none => v
/-- The next element as it is delivered: through the command's filter. -/
def State.take (s : State) (ctx : Nat) (c : Cmd) : Try :=
  match c.ready with
  | v :: rest => .ok s { c with ready := rest } v
  | [] =>
    match s.takeRaw ctx c with
    | .ok s c v =>
      if c.filtFn = 3 && decide (1 < epType c.ep0) then
        let xs := c.run ++ [v]
        if xs.length < c.rows * c.cols then .stop (s.setCmd ctx { c with run := xs })
        else
          .stop (s.setCmd ctx { c with
            run := []
            ready := c.permuted xs })
      else .ok s c (c.convert v)
    | t => t

/-! ### Delivering one element -/

/-- R338: an ordinal that was delivered before a rollback and is not delivered again. -/
def Cmd.given (c : Cmd) : Bool := decide (c.outNext < c.skipTo) && 1 < epType c.ep1 && !(c.kind == 7 && epType c.ep1 == 2)
/-- R162: an element that is a token or a FIFO element of its own; the last one carries the last-element marker. -/
def State.sendLast (s : State) (ctx : Nat) (c : Cmd) (n v : Nat) : Try :=
  let last := n + 1 == c.outTotal
  match s.sendMain ctx c (valueTok (extend64 c.dstFmt v) last) 1 with
  | .ok s c _ => .ok s { c with lemSent := last } 0
  | t => t
/-- The element goes to the destination of the command. -/
def State.put (s : State) (ctx : Nat) (c : Cmd) (v : Nat) : Try :=
  let n := c.outNext
  let w := c.dstFmt.width
  let off := epOff c.ep1
  if c.given then .ok s c 0
  else
    match epType c.ep1 with
    | 5 => .ok s { c with outBits := (c.outBits.1 + v % 2 ^ w * 2 ^ c.outBits.2, c.outBits.2 + w) } 0
    | 6 =>
      .ok (s.setEng ctx fun e => { e with
        links := e.links.map fun (x : Nat × IndexLink) => if x.1 = c.seq then (x.1, { x.2 with vals := x.2.vals ++ [toSigned w v] }) else x }) c 0
    | 2 => if epPacks c.ep1 then .ok s { c with pack := c.pack ++ [v] } 0 else s.sendLast ctx c n v
    | 3 => s.sendLast ctx c n v
    | 4 => if epPacks c.ep1 then .ok s { c with pack := c.pack ++ [v] } 0 else s.sendLast ctx c n v
    | _ =>
      if c.kind = 7 then s.smcWrite ctx c w (off + n : Nat) v
      else if c.kind = 9 ∨ c.kind = 0x0A then s.updateElem ctx c w (c.enumerate off n) n v
      else if c.kind = 4 then
        match (s.slotAt ctx).index c n with
        | .here x => s.writeElem ctx c c.ep1 w (c.byIndex off n x) true n v
        | .later => .wait
        | .never => .stop (s.setCmd ctx c.endShort)
      else s.writeElem ctx c c.ep1 w (if enumeratesSource c.kind then (off + n : Nat) else c.enumerate off n) false n v

/-! ### Old values of an SATM (R171) -/

/-- Ordinals whose update was suppressed return nothing. -/
def Cmd.skipReturns (c : Cmd) : Nat → Cmd
  | 0 => c
  | n + 1 =>
    match c.returns.find? fun (k, _) => k == c.retNext with
    | some (_, none) =>
      Cmd.skipReturns { c with
        retNext := c.retNext + 1
        returns := c.returns.filter fun (k, _) => k != c.retNext } n
    | _ => c
/-- The last of the old values has been taken for sending. -/
def Cmd.returnsOver (c : Cmd) : Bool := c.over && c.updates == 0 && c.returns.isEmpty
/-- R408: what a command writes at an element of a region goes to the journal. -/
def Slot.journals (l : Slot) (e w E : Nat) : Bool :=
  l.core.jnl && epType e == 0 && !(l.decl.granulesOf (epRegion e) w E).isEmpty
/-- An old value goes to the return endpoint: in tile store and in a region that of ordinal n to the n-th element from OFFSET on (DESIGN
CHOICE, log 97). One that was returned before a rollback does not go again (R338), but for a journal entry, which the rollback removed
(R408). -/
def State.putReturn (s : State) (ctx : Nat) (c : Cmd) (n v : Nat) : Try :=
  let e := c.ep2
  let w := c.dstFmt.width
  let E : Int := (epOff e + n : Nat)
  if n < c.skipTo && !(s.slotAt ctx).journals e w (epOff e + n) then .ok s c 0
  else
    match epType e with
    | 0 => s.writeElem ctx c e w E false n v
    | 1 => s.writeElem ctx c e w E false n v
    | 5 => .ok s { c with outBits := (c.outBits.1 + v % 2 ^ w * 2 ^ c.outBits.2, c.outBits.2 + w) } 0
    | _ =>
      if epPacks e then .ok s { c with retPack := c.retPack ++ [v] } 0
      else
        let c' := { c with returns := c.returns.filter fun (k, _) => k != n }
        let last := epIsPort e && c'.returnsOver
        match s.sendTok ctx c e (valueTok (extend64 c.dstFmt v) last) 1 with
        | .ok s c _ => .ok s { c with retLem := last } 0
        | t => t
/-- The next old value that is due, or the token that is full, goes on its way. -/
def State.stepReturn (s : State) (ctx : Nat) (c : Cmd) : Try :=
  let c := c.skipReturns c.returns.length
  let f := c.dstFmt
  if epType c.ep2 = 7 then .wait
  else if !c.retPack.isEmpty && (c.retPack.length == f.lanes || c.returnsOver) then
    match s.sendTok ctx c c.ep2 (valueTok (c.packed c.retPack) c.returnsOver) c.retPack.length with
    | .ok s c _ =>
      .stop (s.setCmd ctx { c with
        retPack := []
        retLem := c.returnsOver })
    | t => t
  else
    match c.returns.find? fun (k, _) => k == c.retNext with
    | some (n, some v) =>
      match s.putReturn ctx c n v with
      | .ok s c _ =>
        let held := epType c.ep2 == 0 && c.notice.isSome
        .stop ((if held then s.withdrawCmd ctx c.seq else s).setCmd ctx { c with
          st := if held then .running else c.st
          notice := if held then none else c.notice
          waitGranule := if epType c.ep2 = 0 then none else c.waitGranule
          returns := c.returns.filter fun (k, _) => k != n
          retNext := n + 1 })
      | t => t
    | _ =>
      if c.returnsOver && epIsPort c.ep2 && !c.retLem then
        match s.sendTok ctx c c.ep2 bareTok 0 with
        | .ok s c _ => .stop (s.setCmd ctx { c with retLem := true })
        | t => t
      else .wait

/-! ### One move of a command (R158, R162) -/

/-- R180: the old value that an SATM withholds for a missing page is not delivered: its element counts as not done. -/
def Cmd.dropReturn (c : Cmd) : Cmd :=
  if c.returnOpen && c.notice.isSome then
    { c with
      returns := c.returns.filter fun (k, _) => k != c.retNext
      cursor := c.cursor - 1 }
  else c
/-- R180: a command that is to end takes no further element, but for one of which it has drawn a part; what it waits for is withdrawn. -/
def State.closeNow (s : State) (ctx : Nat) (c : Cmd) : State × Cmd :=
  if c.closing && !c.closed then
    let c := c.dropReturn
    (s.withdrawCmd ctx c.seq, { c with
      st := .running
      closed := true
      limit := some (if c.kind = 5 then c.cursor else if 0 < c.inBits.2 && c.filtFn != 2 then c.outNext + 1 else c.outNext)
      notice := none
      waitGranule := none })
  else (s, c)
/-- The endpoint that takes a command's packed elements, and whether it is full or the last one. -/
def Cmd.mustFlush (c : Cmd) : Bool := !c.pack.isEmpty && (c.pack.length == c.dstFmt.lanes || c.over)
/-- An element is to go into a windrow. -/
def Cmd.mustBits (c : Cmd) : Bool := decide (0 < c.outBits.2)
/-- The windrow that a command writes. -/
def Cmd.windrowOut (c : Cmd) : Nat := epFifo (if epType c.ep1 = 5 then c.ep1 else c.ep2)
/-- An element of a command goes into its windrow, in one access unless it crosses the end of a slot: then it goes in two, also where the next
slot is free (DESIGN CHOICE, log 57: R145 and R178 do not say how they meet there). -/
def State.bitsOut (s : State) (ctx : Nat) (c : Cmd) : Try :=
  if c.kind = 7 then
    match s.smcBits ctx c with
    | .ok s c _ => .stop (s.setCmd ctx c)
    | t => t
  else
    let l := s.slotAt ctx
    let n := c.nextBits (l.windrowLeft c.windrowOut)
    if !l.windrowRoom c.windrowOut then .wait
    else if l.windrowJournal c.windrowOut n then .stop (s.failCmd ctx c (regionFault 16 0 0))
    else .stop ((s.setSlot ctx (·.windrowPut c.windrowOut n (c.outBits.1 % 2 ^ n))).setCmd ctx (c.bitsGone n))
/-- The next element goes from the source to the destination; what stops it is decided as if it had not been taken. -/
def State.moveElem (s : State) (ctx : Nat) (c : Cmd) : Try :=
  match s.take ctx c with
  | .ok s1 c1 v =>
    match s.put ctx c v with
    | .ok _ _ _ =>
      match s1.put ctx c1 v with
      | .ok s2 c2 _ =>
        let s2 := if c.notice.isSome then s2.withdrawCmd ctx c.seq else s2
        .stop (s2.setCmd ctx c2.advance)
      | _ => .wait
    | t => t
  | t => t
/-- One move of a command that carries elements: a token or byte that is ready is sent, else the next element is moved, else the
last-element marker is sent. -/
def State.moverStep (s : State) (ctx : Nat) (c : Cmd) : Try :=
  let closes := c.closing && !c.closed
  let (s, c) := s.closeNow ctx c
  let c := if c.kind = 7 && c.peers.isEmpty && c.mask == 0 then s.smcBegin ctx c else c
  if c.mustFlush then
    match s.flushPack ctx c c.over with
    | .ok s c _ =>
      .stop (s.setCmd ctx { c with
        pack := []
        lemSent := c.over })
    | t => t
  else if c.mustBits then s.bitsOut ctx c
  else if c.over then
    if epIsPort c.ep1 && !c.lemSent then
      match s.sendMain ctx c bareTok 0 with
      | .ok s c _ => .stop (s.setCmd ctx { c with lemSent := true })
      | t => t
    else if closes then .stop (s.setCmd ctx c)
    else .wait
  else if c.kind = 4 && (match (s.slotAt ctx).index c c.cursor with | .never => true | _ => false) then
    .stop (s.setCmd ctx c.endShort)
  else s.moveElem ctx c

/-! ### SREC (R168, R440) -/

/-- The tokens that the loop takes in all. -/
def Cmd.loopTotal (c : Cmd) : Nat := c.count + c.initial
/-- Token k goes back to EP1, or out to the AUX1 endpoint. -/
def Cmd.loopEnd (c : Cmd) (k : Nat) : Nat := if k < c.count then c.ep1 else c.aux1
/-- R168, R180: the tokens that the loop takes before it ends. -/
def Cmd.loopStop (c : Cmd) : Nat := if c.closing then min c.loopTotal (c.limit.getD 0) else c.loopTotal
/-- R168: no further token is to be taken. -/
def Cmd.loopOver (c : Cmd) : Bool := decide (c.loopStop ≤ c.cursor)
/-- R168: token k is the last to go out. -/
def Cmd.loopLast (c : Cmd) (k : Nat) : Bool := decide (c.count ≤ k) && k + 1 == c.loopStop
/-- The elements of a held token for a FIFO, windrow, tile-store or region endpoint. -/
def Cmd.loopElems (c : Cmd) (t : Tok) : List Nat :=
  if epCpl c.ep0 then [t.pay % 2 ^ c.srcFmt.width] else lanesOf c.srcFmt t.pay
/-- A held token's next element goes to the AUX1 endpoint: in tile store and in a region to the elements from OFFSET on, in the order of the
tokens and their lanes (DESIGN CHOICE, log 97). -/
def State.srecElem (s : State) (ctx : Nat) (c : Cmd) (k v : Nat) : Try :=
  let w := c.srcFmt.width
  let lanes := if epCpl c.ep0 then 1 else c.srcFmt.lanes
  let n := (k - c.count) * lanes + (lanes - c.unpack.length)
  match epType c.aux1 with
  | 3 => s.sendTok ctx c c.aux1 (valueTok (extend64 c.srcFmt v) false) 1
  | 5 => .ok s { c with outBits := (c.outBits.1 + v % 2 ^ w * 2 ^ c.outBits.2, c.outBits.2 + w) } 0
  | _ => s.writeElem ctx c c.aux1 w (epOff c.aux1 + n : Nat) false n v
/-- The first held token goes on its way. -/
def State.srecSend (s : State) (ctx : Nat) (c : Cmd) (k : Nat) (t : Tok) : Try :=
  let e := c.loopEnd k
  let rest := c.held.drop 1
  if k < c.skipTo && decide (1 < epType e) && epType e != 2 then .stop (s.setCmd ctx { c with held := rest })
  else if epType e = 2 then
    let lem := c.loopLast k
    match s.sendTok ctx c e (valueTok t.pay lem) 1 with
    | .ok s c _ =>
      .stop (s.setCmd ctx { c with
        held := rest
        lemSent := c.lemSent || lem })
    | t => t
  else
    match c.unpack with
    | [] =>
      .stop (s.setCmd ctx { c with
        unpack := (c.loopElems t).drop (if k = c.skipTo && decide (1 < epType e) then c.outn else 0)
        outn := 0 })
    | v :: vs =>
      match s.srecElem ctx c k v with
      | .ok s c _ =>
        .stop (s.setCmd ctx { c with
          st := .running
          notice := none
          waitGranule := none
          unpack := vs
          held := if vs.isEmpty then rest else c.held })
      | t => t
/-- R279: a marker that leaves the output port of an SREC is forwarded to where its next token goes. -/
def State.srecMarker (s : State) (ctx : Nat) (c : Cmd) (p : Nat) (t : Tok) : Try :=
  let e := c.loopEnd c.cursor
  if epType e = 2 then
    match s.sendTok ctx c e markTok 0 with
    | .ok s c _ => .stop (s.popMarker ctx c p t.tag)
    | t => t
  else .stop (s.popMarker ctx c p t.tag)
/-- R168: the next token of the loop is taken; gating tells that sending has stopped (R440). -/
def State.srecTake (s : State) (ctx : Nat) (c : Cmd) (gating : Bool) : Try :=
  let p := epPort c.ep0
  let q := (s.slotAt ctx).quad
  match q.outHeads p with
  | [] => .wait
  | (t, rep) :: _ =>
    if q.mapsOut p && q.outPlane p != epCpl c.ep0 then .stop (s.failCmd ctx c c.planeFault)
    else if t.isMarker then if gating then .wait else s.srecMarker ctx c p t
    else
      let t := if rep then { t with pay := Quad.replicate c.srcFmt t.pay } else t
      let s := s.setSlot ctx fun l => { l with quad := l.quad.popOut p }
      .stop (s.setCmd ctx { c with
        st := .running
        held := c.held ++ [(c.cursor, t)]
        loop := if q.marks.any fun (_, d) => d == epPort c.ep1 then c.loop ++ [(c.cursor, t)] else []
        cursor := c.cursor + 1 })
/-- One move of an SREC. An initial token to a control-plane port holds PADV with zeros above (DEDUCED, log 114). -/
def State.srecStep (s : State) (ctx : Nat) (c : Cmd) (gating : Bool) : Try :=
  let closes := c.closing && !c.closed
  let (s, c) := s.closeNow ctx c
  if gating then
    if c.held.length < 8 && !c.loopOver then s.srecTake ctx c true else .wait
  else if c.mustBits then s.bitsOut ctx c
  else
    match c.held with
    | (k, t) :: _ => s.srecSend ctx c k t
    | [] =>
      if c.sent < c.initial && !c.closing then
        let f := c.srcFmt
        let pay := if epCpl c.ep1 then c.padv % 2 ^ f.width else ofLanes f (List.replicate f.lanes (c.padv % 2 ^ f.width))
        match s.sendTok ctx c c.ep1 (valueTok pay false) 1 with
        | .ok s c _ => .stop (s.setCmd ctx { c with sent := c.sent + 1 })
        | t => t
      else if c.loopOver then
        if epType c.aux1 = 2 && !c.lemSent && (c.closing || c.loopTotal == 0) then
          match s.sendTok ctx c c.aux1 bareTok 0 with
          | .ok s c _ => .stop (s.setCmd ctx { c with lemSent := true })
          | t => t
        else if closes then .stop (s.setCmd ctx c)
        else .wait
      else s.srecTake ctx c false

/-! ### SBAR, STAP, SFILT and STOK (R173 to R176) -/

/-- R173: a command that writes tile store or memory. -/
def Cmd.writes (c : Cmd) : Bool := decide (c.kind < 0x40) && c.kind != 0x0E && [c.ep1, c.ep2].any fun e => [0, 1, 5].contains (epType e)
/-- Command a left the queue before command b. -/
def leftBefore (a b : Nat) : Bool := decide (0 < (b + 65536 - a) % 65536) && decide ((b + 65536 - a) % 65536 < 32768)
/-- R173: an earlier command that writes has not retired, or has faulted, or waits for its round buffers. -/
def StreamEng.barred (e : StreamEng) (c : Cmd) : Bool :=
  ((e.flying.takeWhile fun x => x.seq != c.seq).any Cmd.writes)
    || (e.delayed.filter (!·.fin) ++ e.failed).any fun x => x.writes && leftBefore x.seq c.seq
/-- SBAR (R173). -/
def State.sbarStep (s : State) (ctx : Nat) (c : Cmd) : Try :=
  let (s, c) := s.closeNow ctx c
  if c.closing || !(s.slotAt ctx).eng.barred c then .stop (s.setCmd ctx { c with fin := true }) else .wait
/-- STATE of a status word. -/
def statusState (w : Word) : Nat := bitsOf w.toNat 35 32
/-- R174: a command that is no longer among the last 64 has faulted. -/
def StreamEng.lost (e : StreamEng) (seq : Nat) : Bool := e.failed.any fun x => decide (x.kind < 0x40) && x.seq == seq
/-- STAP (R174): the tap is set, or arrives at once on a command that has retired, or poisons once for one that has faulted. -/
def State.stapStep (s : State) (ctx : Nat) (c : Cmd) : Try :=
  let (s, c) := s.closeNow ctx c
  let k := (c.link).getD 0
  let e := (s.slotAt ctx).eng
  if c.fin then .wait
  else if c.closing then
    .stop ((s.setEng ctx fun e => { e with taps := e.taps.filter fun (q, _, _) => q != c.seq }).setCmd ctx { c with fin := true })
  else if c.told || e.taps.any fun (q, _, _) => q == c.seq then .wait
  else
    let poisons : Try := .stop ((s.tapPoisons ctx c.bind).setCmd ctx { c with told := true })
    let arrives : Try := .stop ((s.tapArrives ctx c.bind).setCmd ctx { c with fin := true })
    match (e.queue ++ e.flying).find? fun (x : Cmd) => x.seq == k with
    | some x =>
      if x.st = .faulted then poisons
      else .stop (s.setEng ctx fun e => { e with taps := e.taps ++ [(c.seq, k, c.bind)] })
    | none =>
      match e.retired.find? fun (q, _) => q == k with
      | some (_, w) => if statusState w = 4 then arrives else poisons
      | none => if e.lost k then poisons else arrives
/-- The other commands in flight, of any slot on a plane, that use a filter id on a channel through one of some nodes (R349). -/
def State.filterInUse (s : State) (ctx : Nat) (c : Cmd) (nodes : List Nat) : Bool :=
  s.slots.any fun (k, l) => planeOf k == planeOf ctx && l.eng.flying.any fun x =>
    !(k == ctx && x.seq == c.seq) && x.kind != 0x0E && x.filter == c.filter && x.vc == c.vc
      && (s.cmdRoute k x).any nodes.contains
/-- The entries of a router's table on a channel, but for those of an id (R347). -/
def State.otherEntries (s : State) (node plane vc fid : Nat) : Nat :=
  (s.routers.filter fun e => e.node == node && e.plane == plane && e.vc == vc && e.fid != fid).length
/-- SFILT (R175, R349). -/
def State.sfiltStep (s : State) (ctx : Nat) (c : Cmd) : Try :=
  let (s, c) := s.closeNow ctx c
  let nodes := s.cmdRoute ctx c
  let plane := planeOf ctx
  if c.fin then .wait
  else if c.closing then .stop (s.setCmd ctx { c with fin := true })
  else if s.filterInUse ctx c nodes then .wait
  else if nodes.any fun n => decide (16 ≤ s.otherEntries n plane c.vc c.filter) then
    .stop (s.failCmd ctx c ⟨0x0F, 0x0A, c.formatVal 0x0A⟩)
  else
    let kept := s.routers.filter fun e =>
      !(nodes.contains e.node && e.plane == plane && e.vc == c.vc && e.fid == c.filter)
    let new := nodes.map fun n =>
      (⟨n, plane, c.vc, c.filter, BitVec.ofNat 64 c.aux0, BitVec.ofNat 64 c.aux1⟩ : RouterEntry)
    .stop ({ s with routers := kept ++ new }.setCmd ctx { c with fin := true })
/-- R176: the event that a STOK asks for. -/
def Cmd.tokEvent (c : Cmd) : Option Nat := if c.aux1.testBit 31 then some (c.aux1 % 32) else none
/-- STOK (R176, R180): its token, or a bare last-element marker for a port once it is closed, leaves; REMOTE_TOKEN_ARRIVAL places it. -/
def State.stokStep (s : State) (ctx : Nat) (c : Cmd) : Try :=
  let (s, c) := if c.lemSent then (s, c) else s.closeNow ctx c
  let t := if c.closed then bareTok else valueTok c.aux0 true
  let event := if c.closed || c.told then none else c.tokEvent
  let q := (s.slotAt ctx).quad
  if c.lemSent then .wait
  else if c.closed && !epIsPort c.ep1 then .stop (s.setCmd ctx { c with fin := true })
  else
    match epType c.ep1 with
    | 4 =>
      match s.sendRemote ctx c c.ep1 t event with
      | .ok s c _ =>
        .stop (s.setCmd ctx { c with
          lemSent := true
          fin := !(epOwn c.ep1 || epPkg c.ep1 == s.pkgId) })
      | t => t
    | k =>
      let port := if k = 2 then epPort c.ep1 else 60 + (epFifo c.ep1 - 8)
      if k = 2 && q.mapsIn port && !q.inPlane port then .stop (s.failCmd ctx c c.planeFault)
      else if s.sendRoom ctx c ctx port then
        .stop ({ s with remotes := s.remotes ++ [(⟨ctx, c.seq, ctx, port, true, t, event, none⟩ : Remote)] }.setCmd ctx
          { c with lemSent := true })
      else .wait

/-- The next move of a command in flight that has started. -/
def State.advance (s : State) (ctx : Nat) (c : Cmd) : Try :=
  match c.kind with
  | 0x05 => s.srecStep ctx c ((s.slotAt ctx).stage == .gating)
  | 0x0C => s.sbarStep ctx c
  | 0x0D => s.stapStep ctx c
  | 0x0E => s.sfiltStep ctx c
  | 0x10 => s.stokStep ctx c
  | 0x0A =>
    if c.closing && !c.closed then
      let (s, c) := s.closeNow ctx c
      .stop (s.setCmd ctx c)
    else
      match s.stepReturn ctx c with
      | .stop t => .stop t
      | _ =>
        let c := c.skipReturns c.returns.length
        if c.returnHolds then .wait else s.moverStep ctx c
  | _ => s.moverStep ctx c

end Sys2Proof.Machine
end

