-- ==== Sys2Proof/Machine/StreamEv.lean ====
section
/-! DEFINITION. The events of the stream engine: a command leaves its queue, starts, moves, retires, and its tokens arrive at other
slots (spec/06 R158 to R182, R266, spec/21 R449). -/

namespace Sys2Proof.Machine

/-! ### Leaving the queue (R158, R159) -/

/-- R324: a generator's copy of the extent lists of the regions that its command names. -/
def Slot.copiesFor (l : Slot) (c : Cmd) : List (Nat × Region) :=
  c.ends.foldl (fun m (e, _) => if epType e = 0 then aset (epRegion e) ((l.regions[epRegion e]?).getD {}) m else m) []
/-- A command as it enters flight. -/
def State.launched (s : State) (ctx : Nat) (c : Cmd) : Cmd :=
  let k := c.cursorW % 2 ^ 48
  let c := { c with
    st := .waiting
    left := s.acStart ctx
    cursor := k
    sent := if c.kind = 5 then bitsOf c.cursorW 51 48 else 0
    bound0 := c.cursorW
    tile0 := c.tileAt
    exts := (s.slotAt ctx).copiesFor c
    filt := if c.kind = 0x0E || c.filter == 0 || !usesFmt c.kind then none else s.filterOf ctx c }
  { c with outn := k * 8 / c.dstFmt.width }
/-- STREAM_DEQUEUE (R158, R159): the command at the head of the queue takes a free in-flight slot and is checked. The indices of a producer that
starts from a CURSOR count as 0 below it (DESIGN CHOICE, log 120). -/
def execStreamDequeue (s : State) : Res :=
  orStay s (
    match s.me.eng.queue with
    | [] => none
    | c :: rest =>
      if s.me.stage != .running || decide (256 ≤ s.me.eng.flying.length) then none
      else
        let t := s.setEng s.cur fun e => { e with queue := rest }
        let r := t.rejects s.cur c
        let c := t.launched s.cur c
        let t := t.setEng s.cur fun e => { e with
          flying := e.flying ++ [c]
          links := if c.suppliesIndex then aset c.seq { vals := List.replicate c.cursor 0 } e.links else e.links }
        match r with
        | some r => some (t.failCmd s.cur c r)
        | none => some t)

/-! ### Starting (R158, R160) -/

/-- The commands that the lanes of a slot execute. -/
def Slot.laneCmds (l : Slot) : List Cmd := l.array.toList ++ l.chain.cmd.toList ++ l.channels.filterMap (·.cmd)
/-- R221, R240: command a of a slot left its queue before command b: in an earlier ac, or in the same ac from the same queue. -/
def Cmd.leftFirst (a b : Cmd) : Bool :=
  decide (a.left < b.left)
    || (a.left == b.left && decide (0x40 ≤ a.kind) && decide (0x40 ≤ b.kind) && decide (a.kind < 0x80) == decide (b.kind < 0x80)
      && leftBefore a.seq b.seq)
/-- R160, R240: an event that a command waits on is due first to an EVWAIT of Y that can complete, or to a command that left its queue
earlier and waits on it. -/
def Slot.countDue (l : Slot) (ctx : Nat) (c : Cmd) (earlier : List Cmd) : Bool :=
  (match l.core.ywait with
    | some (.event e n) => c.waitMask.testBit e.val && decide (n ≤ (l.core.ereg[e]).toNat)
    | _ => false)
    || earlier.any fun x => x.st == .waiting && !x.waited && !x.closing && x.waitMask.land c.waitMask != 0
      && (decide (0x40 ≤ x.kind) || l.eng.holdsSides ctx x)
/-- R160: a command holds its sides and its waits are met; they are taken. -/
def State.takeWaits (s : State) (ctx : Nat) (c : Cmd) : Option (State × Cmd) :=
  let l := s.slotAt ctx
  let earlier := l.eng.flying.takeWhile (fun x => x.seq != c.seq) ++ l.laneCmds.filter (·.leftFirst c)
  if !l.eng.holdsSides ctx c then none
  else if c.waited then some (s, c)
  else if l.countDue ctx c earlier then none
  else if l.core.waitsMet c.waitMask then some (s.setCoreAt ctx (·.takeWaits (s.acStart ctx) c.waitMask), { c with waited := true })
  else none
def Cmd.begin (c : Cmd) : Cmd :=
  { c with
    st := .running
    started := true }
/-- A command that waits starts if it can; one with a stamp still to come takes its waits alone (R160). -/
def State.startCmd (s : State) (ctx : Nat) (c : Cmd) : Option State :=
  if c.closing then if (s.slotAt ctx).eng.holdsSides ctx c then some (s.setCmd ctx c.begin) else none
  else
    match s.takeWaits ctx c with
    | none => none
    | some (s, c) =>
      if c.stamp.isSome && !c.late then some (s.setCmd ctx c) else some (s.setCmd ctx c.begin)
/-- R160, R352: the next tile of a ZRD command is present, or an element of the one it has taken. -/
def State.tileReady (s : State) (ctx : Nat) (c : Cmd) : Bool :=
  let E : Int := (epOff c.ep0 + c.tileAt : Nat)
  !c.ready.isEmpty || match s.readRun ctx c E 32 with
    | .halt _ => false
    | .ok ms =>
      let k := popCount (packFields 8 ms)
      decide (128 < k) || match s.readRun ctx c (E + 32) k with
        | .ok _ => true
        | .halt _ => false
/-- R160: the first source element is present. -/
def State.sourceReady (s : State) (ctx : Nat) (c : Cmd) : Bool :=
  let l := s.slotAt ctx
  if c.outTotal ≤ c.outNext then true
  else
    match epType c.ep0 with
    | 2 =>
      if c.kind = 5 ∧ c.sent < c.initial then true
      else match l.quad.outHeads (epPort c.ep0) with
        | (t, _) :: _ => !t.isMarker
        | [] => false
    | 3 => !(l.core.xo[Fin.ofNat 4 (epFifo c.ep0 - 12)]).isEmpty
    | 5 => match l.core.windrow (epFifo c.ep0) with
      | some w => decide (0 < w.filled)
      | none => false
    | 0 => if c.filtFn = 2 then s.tileReady ctx c else match s.take ctx c with
      | .ok .. => true
      | _ => false
    | 1 => if c.filtFn = 2 then s.tileReady ctx c else match s.take ctx c with
      | .ok .. => true
      | _ => false
    | _ => true
/-- R160, R183: a start stamp is missed. -/
def State.missStamp (s : State) (ctx : Nat) (c : Cmd) (at' : Nat) : State :=
  if c.lateBit then s.setCmd ctx { c with late := true }
  else s.failCmd ctx c ⟨0x0A, 0, BitVec.ofNat 64 at'⟩
/-- START_STAMP_REACHED (R160). -/
def execStartStampReached (seq : Nat) (s : State) : Res :=
  orStay s (
    match s.cmdAt s.cur seq with
    | none => none
    | some c =>
      match c.stamp with
      | none => none
      | some t =>
        if c.st != .waiting || c.late || c.closing || s.me.stage != .running then none
        else if c.past || decide (s.stampOf s.cur t < s.stc) then some (s.missStamp s.cur c t)
        else if s.stc < s.stampOf s.cur t then none
        else
          match s.takeWaits s.cur c with
          | none => some (s.missStamp s.cur c t)
          | some (u, c) =>
            if u.sourceReady s.cur c then
              let v := u.setCmd s.cur c.begin
              match v.advance s.cur c.begin with
              | .stop w => some w
              | _ => some v
            else some (u.missStamp s.cur c t))

/-! ### Moving (R158, R162, R440) -/

/-- R352: a ZRD command stands inside a tile. -/
def Cmd.inTile (c : Cmd) : Bool := c.filtFn == 2 && (!c.ready.isEmpty || !c.run.isEmpty || c.mustFlush || c.mustBits)
/-- A started command may move. While its slot's sources are gated, only one that takes from an output port goes on, and a ZRD one to the
end of its tile (R440, R352); commands that a rollback replays on one side move one after another, in queue order (R158, R338). -/
def Slot.mayMove (l : Slot) (ctx : Nat) (c : Cmd) : Bool :=
  c.started && (c.st == .running || c.st == .withheld) && l.eng.holdsSides ctx c
    && (l.stage == .running || (l.stage == .gating && (epType c.ep0 == 2 || c.inTile)))
/-- A started command of a slot makes its next move. -/
def State.moveCmd (s : State) (ctx : Nat) (c : Cmd) : State :=
  if !(s.slotAt ctx).mayMove ctx c then s
  else
    match s.advance ctx c with
    | .stop t => t
    | _ => s
/-- A command of a kind starts, or makes its next move. -/
def State.runCmd (s : State) (kind seq : Nat) : State :=
  match s.cmdAt s.cur seq with
  | none => s
  | some c =>
    if c.kind ≠ kind then s
    else if c.st == .waiting && !c.started then if s.me.stage == .running then (s.startCmd s.cur c).getD s else s
    else s.moveCmd s.cur c

/-- SAFF_COMMAND (R166). -/
def execSaffCommand (seq : Nat) (s : State) : Res := .next (s.runCmd 0x01 seq)
/-- SAFFW_COMMAND (R166). -/
def execSaffwCommand (seq : Nat) (s : State) : Res := .next (s.runCmd 0x02 seq)
/-- SIND_COMMAND (R167). -/
def execSindCommand (seq : Nat) (s : State) : Res := .next (s.runCmd 0x03 seq)
/-- SINDW_COMMAND (R167). -/
def execSindwCommand (seq : Nat) (s : State) : Res := .next (s.runCmd 0x04 seq)
/-- SREC_COMMAND (R168). -/
def execSrecCommand (seq : Nat) (s : State) : Res := .next (s.runCmd 0x05 seq)
/-- SFILL_COMMAND (R169). -/
def execSfillCommand (seq : Nat) (s : State) : Res := .next (s.runCmd 0x06 seq)
/-- SMC_COMMAND (R170, R353). -/
def execSmcCommand (seq : Nat) (s : State) : Res := .next (s.runCmd 0x07 seq)
/-- SGROW_COMMAND (R167). -/
def execSgrowCommand (seq : Nat) (s : State) : Res := .next (s.runCmd 0x08 seq)
/-- SRED_COMMAND (R171). -/
def execSredCommand (seq : Nat) (s : State) : Res := .next (s.runCmd 0x09 seq)
/-- SATM_COMMAND (R171). -/
def execSatmCommand (seq : Nat) (s : State) : Res := .next (s.runCmd 0x0A seq)
/-- SCPY_COMMAND (R172). -/
def execScpyCommand (seq : Nat) (s : State) : Res := .next (s.runCmd 0x0B seq)
/-- SBAR_COMMAND (R173). -/
def execSbarCommand (seq : Nat) (s : State) : Res := .next (s.runCmd 0x0C seq)
/-- STAP_COMMAND (R174). -/
def execStapCommand (seq : Nat) (s : State) : Res := .next (s.runCmd 0x0D seq)
/-- SFILT_COMMAND (R175, R349). -/
def execSfiltCommand (seq : Nat) (s : State) : Res := .next (s.runCmd 0x0E seq)
/-- SMETA_COMMAND (R166). -/
def execSmetaCommand (seq : Nat) (s : State) : Res := .next (s.runCmd 0x0F seq)
/-- STOK_COMMAND (R176). -/
def execStokCommand (seq : Nat) (s : State) : Res := .next (s.runCmd 0x10 seq)
/-- STREAM_TOKEN_TRANSFER (R162): a running command of any kind makes its next move. -/
def execStreamTokenTransfer (seq : Nat) (s : State) : Res :=
  orStay s ((s.cmdAt s.cur seq).map (s.moveCmd s.cur))

/-! ### Retirement (R156, R161, R174, R178, R182, R308, R334, R337) -/

/-- Tokens of a command are on their way into an input port that it feeds, those alone with LEM if lem is set. -/
def State.coming (s : State) (ctx : Nat) (c : Cmd) (lem : Bool) : Bool :=
  (s.feeds ctx c).any fun (d, p) =>
    ((s.slotAt d).quad.port p).incoming.any fun x => x.src == (ctx, c.seq) && !x.again && (x.tok.lem || !lem)
/-- R449: a token of a command is held for a saved task. -/
def State.tokenHeld (s : State) (ctx seq : Nat) : Bool :=
  s.held.any fun (_, h) => match h with
    | .token r => r.src == ctx && r.seq == seq
    | .count _ => false
/-- The tokens that a command sent have all arrived; one that is held at a borrowed slot has not. -/
def State.arrived (s : State) (ctx : Nat) (c : Cmd) : Bool :=
  !s.coming ctx c false && !(s.remotes.any fun r => r.src == ctx && r.seq == c.seq) && !s.tokenHeld ctx c.seq
/-- Everything that a command does has been done. -/
def State.complete (s : State) (ctx : Nat) (c : Cmd) : Bool :=
  c.st == .running && s.arrived ctx c &&
    match c.kind with
    | 0x05 =>
      c.loopOver && (c.closing || decide (c.initial ≤ c.sent)) && c.held.isEmpty && c.unpack.isEmpty && c.outBits.2 == 0
        && (c.lemSent || epType c.aux1 != 2 || !(c.closing || c.loopTotal == 0))
    | 0x0C => c.fin
    | 0x0D => c.fin
    | 0x0E => c.fin
    | 0x10 => c.fin
    | _ =>
      c.over && c.pack.isEmpty && c.outBits.2 == 0 && (c.lemSent || !epIsPort c.ep1) && c.updates == 0
        && (c.skipReturns c.returns.length).returns.isEmpty && c.retPack.isEmpty
        && (c.retLem || !epIsPort c.ep2 || c.kind != 0x0A)
/-- R170, R334: the record that reports denied destinations or extents (DEDUCED, log 24). -/
def Cmd.deniedRecord (c : Cmd) : Word :=
  { c with
    st := .done
    part := true
    detail := c.mask }.status ||| BitVec.ofNat 64 (0x0D * 2 ^ 40)
/-- The records that a command's retirement posts to `sts`. -/
def Cmd.records (c : Cmd) : List Word :=
  (if c.mask ≠ 0 && !c.told && !c.trapf then [c.deniedRecord] else [])
    ++ (if c.doneBit && !c.acted then [{ c with
      st := CState.done }.status] else [])
/-- The command as it retires with STATE done. -/
def Cmd.finished (c : Cmd) : Cmd :=
  let c := { c with st := .done }
  if c.mask = 0 then c
  else
    { c with
      part := true
      detail := c.mask }
/-- The records leave for `sts`. -/
def State.postRecords (s : State) (ctx : Nat) (c : Cmd) : State := c.records.foldl (fun s w => s.setCoreAt ctx (·.postSts w)) s
/-- R160, R182, R334: the trap for denied elements, the signals and the arrival on the binding; a replayed command has given them (R338).
A STAP's arrival is its tap's (R174), unless it was closed (R180). The trapval of an SMC is bits 59 to 56 of EP1 as a
region, with offset 0 (DESIGN CHOICE, log 116). -/
def State.giveActs (s : State) (ctx : Nat) (c : Cmd) : State :=
  let s := if c.mask ≠ 0 && !c.told && c.trapf then
      s.setCoreAt ctx (·.addPend 0x0D c.head (BitVec.ofNat 64 (epRegion c.ep1 * 2 ^ 48))) else s
  if c.acted then s
  else
    let s := s.setCoreAt ctx (·.signal c.signalMask)
    if c.bound && (c.kind != 0x0D || c.closed) then s.arriveOrDefer ctx c.bind 1 else s
/-- What a command's retirement gives. -/
def State.completionActs (s : State) (ctx : Nat) (c : Cmd) : State := (s.postRecords ctx c).giveActs ctx c
/-- R337: a command is bound to a port of its slot's region. -/
def Cmd.onPort (c : Cmd) (ctx : Nat) : Bool := (c.sides ctx).any fun d => decide (d < 200)
/-- R308 item 4: updates of the command stand in open round buffers. -/
def State.buffered (s : State) (ctx seq : Nat) : Bool := s.buffers.any fun u => u.ctx == ctx && u.seq == seq
/-- A command leaves flight: windrows in part, its index link, its taps, and its record for replay (R167, R178, R337). A tap on a command
that sends no last-element marker, since it writes memory, arrives here (DEDUCED, log 99). -/
def State.leaveFlight (s : State) (ctx : Nat) (c : Cmd) : State :=
  let s := (s.closeParts ctx c).setSlot ctx fun l => { l with
    eng := { (l.eng.retire c).endLink c.seq with
      kept := if c.onPort ctx then l.eng.kept ++ [{ c with
          acted := true
          told := c.told || c.mask != 0 }] else l.eng.kept } }
  s.tapsArrive ctx c.seq
/-- R182: the command retires, if it can. -/
def State.retireCmd (s : State) (ctx : Nat) (c : Cmd) : Option State :=
  let l := s.slotAt ctx
  if !s.complete ctx c || l.core.countedNow (s.acStart ctx) c.signalMask then none
  else if c.onPort ctx && decide (64 ≤ l.eng.kept.length) then none
  else
    let c := c.finished
    if s.buffered ctx c.seq then
      some ((s.leaveFlight ctx c).setEng ctx fun e => { e with delayed := e.delayed ++ [c] })
    else if stsDepth < l.core.sts.length + c.records.length then none
    else some ((s.leaveFlight ctx c).completionActs ctx c)
/-- STREAM_RETIRE (R161, R182): a command that is complete retires; a faulted one that waits for `sts` is reported. -/
def execStreamRetire (seq : Nat) (s : State) : Res :=
  orStay s (
    match s.cmdAt s.cur seq with
    | none => none
    | some c =>
      if s.me.stage != .running && s.me.stage != .gating then none
      else if c.st = .faulted then if s.core.stsRoom then some (s.reportFault s.cur c) else none
      else if s.me.stage == .gating && epType c.ep0 != 2 then none
      else s.retireCmd s.cur c)

/-! ### Arrival of tokens (R176, R276, R281, R449) -/

/-- R174, R266: a last-element marker of a command src (slot and SEQ) has entered an input port: once it has entered every one that the
command feeds, the taps on it arrive. -/
def State.lastEntered (s : State) (src : Nat × Nat) : State :=
  match s.cmdAt src.1 src.2 with
  | some c => if s.coming src.1 c true then s else s.tapsArrive src.1 src.2
  | none => s
/-- A token of a command src has entered input port p, which leaves the quadrant as q; pr is the round counter before. other tells that it
is no token of the slot's own commands, which a rollback restarts. -/
def State.tokenIn (s : State) (ctx p : Nat) (q : Quad) (t : Tok) (pr : Nat) (src : Nat × Nat) (other : Bool) : State :=
  let now := s.acOf ctx
  let q := if t.isValue then q.noteInside pr p src else q
  let q := if other then q.noteCame p { t with tag := pr } src else q
  s.setSlot ctx fun l => (l.cutTo ctx (q.resume p src) now).entered ctx p now t pr
/-- R276, R281: the first token on its way to an input port of a slot enters it. -/
def State.portEnter (s : State) (ctx p : Nat) : Option State :=
  let q := (s.slotAt ctx).quad.settle (s.acOf ctx)
  let ip := q.port p
  match ip.incoming, q.portEntry (s.acOf ctx) p with
  | x :: _, some q' =>
    let u := s.tokenIn ctx p q' x.tok ip.pr x.src (x.again || x.src.1 != ctx)
    some (if x.tok.lem && !x.again then u.lastEntered x.src else u)
  | _, _ => none

/-- No token that the same command sent to the same place earlier is still on its way (R346), and none that is forwarded there stands before
it (R449). -/
def State.firstOf (s : State) (k : Nat) (r : Remote) : Bool :=
  let same (x : Remote) : Bool := x.dst == r.dst && x.port == r.port
  ((s.remotes.take k).all fun x => !(same x && ((x.src == r.src && x.seq == r.seq) || (x.fwd.isSome && r.fwd.isSome))))
    && (r.fwd.isSome || s.remotes.all fun x => !(same x && x.fwd.isSome))
/-- The sender of a token is saved: it learns what has become of the token as it is restored. -/
def State.ackSaved (s : State) (r : Remote) (placed : Bool) : State :=
  let f (w : Waiting) : Waiting := if savedSender w.task.age = r.src then { w with acks := w.acks ++ [(r, placed)] } else w
  { s with dies := s.dies.map fun d : Die => { d with
      queues := d.queues.map fun q => q.map f
      drained := d.drained.map f } }
/-- The sender learns that its token is placed: a STOK is done, and taps on the last-element marker arrive. -/
def State.tokenPlaced (s : State) (r : Remote) : State :=
  if 2 ^ 64 ≤ r.src then s.ackSaved r true else
  let s := match s.cmdAt r.src r.seq with
    | some c => if c.kind = 0x10 then s.setCmd r.src { c with fin := true } else s
    | none => s
  if r.tok.lem && decide (r.src < 2048) then s.tapsArrive r.src r.seq else s
/-- R176: the token is dropped where no task runs, and its command faults, with the node as DETAIL and as trapval (DESIGN CHOICE for trapval,
log 117). -/
def State.tokenDropped (s : State) (r : Remote) : State :=
  if 2 ^ 64 ≤ r.src then s.ackSaved r false else
  match s.cmdAt r.src r.seq with
  | some c =>
    if c.st = .faulted then s
    else s.failCmd r.src c ⟨0x0D, nodeOf r.dst, BitVec.ofNat 64 (nodeOf r.dst)⟩
  | none => s
/-- The token is placed in its port or FIFO, if that has a place, and the event that it asks for is given. -/
def State.placeToken (s : State) (r : Remote) : Option State :=
  let l := s.slotAt r.dst
  let placed : Option State :=
    if 60 ≤ r.port then
      if l.core.xiRoom (r.port - 60) then some (s.setCoreAt r.dst (·.pushXi (r.port - 60) (BitVec.ofNat 64 r.tok.pay))) else none
    else if l.quad.portRoom r.port && l.quad.inPlane r.port == r.cpl then
      let own := r.src == r.dst && (s.cmdAt r.src r.seq).any fun c => epType c.ep1 == 2
      some (s.tokenIn r.dst r.port (l.quad.enterRemote (s.acOf r.dst) r.port r.tok) r.tok (l.quad.port r.port).pr (r.src, r.seq) !own)
    else none
  match r.event with
  | some e => if l.core.countedNow (s.acStart r.dst) (2 ^ e) then none else placed.map (·.setCoreAt r.dst (·.addEvent (Fin.ofNat 32 e) 1))
  | none => placed
/-- R449: where token r is to be held: for the saved task its slot is borrowed from, or for the one it is forwarded to, which has been saved
again. -/
def State.heldFor (s : State) (r : Remote) : Option Word :=
  match r.fwd with
  | some age => if (s.slotAt r.dst).runs && (s.slotAt r.dst).age == age then none else if s.savedTasks.any fun w => w.task.age == age then some age else none
  | none => s.lender r.dst
/-- REMOTE_TOKEN_ARRIVAL (R176, R449). -/
def execRemoteTokenArrival (k : Nat) (s : State) : Res :=
  orStay s (
    match s.remotes[k]? with
    | none => none
    | some r =>
      if !s.firstOf k r then none
      else
        let t := { s with remotes := ldel k s.remotes }
        match s.heldFor r with
        | some age => some { t with held := t.held ++ [(age, .token r)] }
        | none =>
          if !(s.slotAt r.dst).runs || r.fwd.any (· != (s.slotAt r.dst).age) then some (t.tokenDropped r)
          else (t.placeToken r).map fun u => u.tokenPlaced r)

end Sys2Proof.Machine
end

