-- ==== Sys2Proof/Machine/Engine.lean ====
section
/-! DEFINITION. The array-and-chain and encode queues, and the array engine (spec/08 R219 to R228). The lanes of a slot are its array
engine 0, its chain engine 1 and its encode channels from 2. -/

namespace Sys2Proof.Machine

/-! ### Lanes (R221) -/

/-- The command that a lane executes. -/
def Slot.lane (l : Slot) (n : Nat) : Option Cmd :=
  match n with
  | 0 => l.array
  | 1 => l.chain.cmd
  | n + 2 => ((l.channels[n]?).map (·.cmd)).getD none
def Slot.setLane (l : Slot) (n : Nat) (c : Option Cmd) : Slot :=
  match n with
  | 0 => { l with array := c }
  | 1 => { l with chain := { l.chain with cmd := c } }
  | n + 2 => { l with channels := lmod n (fun h => { h with cmd := c }) l.channels }
def State.setLane (s : State) (ctx n : Nat) (c : Option Cmd) : State := s.setSlot ctx (·.setLane n c)
/-- The lane number of a command that no engine takes: of the array-and-chain queue, or of the encode queue. -/
def noLane (enc : Bool) : Nat := if enc then 99 else 98
/-- ENG of a lane (R220); 0 for a command of the array-and-chain queue that no engine takes (DEDUCED, log 68). -/
def laneEng (n : Nat) : Nat := if n = 98 then 0 else min n 2
def arrayKind (k : Nat) : Bool := decide (0x40 ≤ k) && decide (k ≤ 0x45)
def chainKind (k : Nat) : Bool := decide (0x48 ≤ k) && decide (k ≤ 0x4B)
def encodeKind (k : Nat) : Bool := decide (0x80 ≤ k) && decide (k ≤ 0x82)
/-- The lane of a command; none for one that no engine takes. -/
def Cmd.lane (c : Cmd) : Option Nat :=
  if arrayKind c.kind then some 0
  else if chainKind c.kind then some 1
  else if encodeKind c.kind && c.has 10 then some (2 + c.aux0 % 4)
  else none

/-! ### Faults and retirement (R160, R161, R220) -/

/-- R262: the final status and CURSOR of a command of a lane are kept, with its engine and SEQ. -/
def Slot.noteEnd (l : Slot) (n : Nat) (c : Cmd) : Slot :=
  { l with ended := ((laneEng n, c.seq, c.engineStatus (laneEng n), BitVec.ofNat 64 c.cursor) :: l.ended).take 64 }
/-- R161: a faulted command of a lane is reported if it can be; while its slot gates it stays in its lane, to be saved faulted (R458). -/
def State.engineReport (s : State) (ctx n : Nat) (c : Cmd) : State :=
  if !c.trapf && !c.reported && !(s.slotAt ctx).core.stsRoom then s.setLane ctx n (some c)
  else
    let t := if (s.slotAt ctx).stage == .gating then s.setLane ctx n (some { c with reported := true })
      else ((s.setLane ctx n none).setSlot ctx (·.noteEnd n c)).setEng ctx fun e => { e with failed := c :: e.failed }
    if c.trapf || c.reported then t else t.setCoreAt ctx (·.postSts (c.engineStatus (laneEng n)))
/-- A command of a lane faults (R161, R333). -/
def State.engineFail (s : State) (ctx n : Nat) (c : Cmd) (r : Reject) : State :=
  let c := { c with
    st := .faulted
    cause := r.cause
    detail := r.detail
    notice := none }
  let s := if c.trapf then s.setCoreAt ctx (·.addPend r.cause c.head r.val) else s
  let s := if c.bound && refNames (s.slotAt ctx).decl c.bind then s.poison ctx c.bind else s
  s.engineReport ctx n c
/-- R160, R226, R242: a command of a lane retires with a DETAIL: its record where one is due, its signals, its arrival. -/
def State.engineDone (s : State) (ctx n : Nat) (c : Cmd) (detail : Nat) (posts : Bool) : Option State :=
  let c := { c with
    st := .done
    detail := detail }
  if (posts && !(s.slotAt ctx).core.stsRoom) || (s.slotAt ctx).core.countedNow (s.acStart ctx) c.signalMask then none
  else
    let s := if posts then s.setCoreAt ctx (·.postSts (c.engineStatus (laneEng n))) else s
    let s := ((s.setLane ctx n none).setSlot ctx (·.noteEnd n c)).setCoreAt ctx (·.signal c.signalMask)
    some (if c.bound then s.arriveOrDefer ctx c.bind 1 else s)

/-! ### Checks as a command leaves its queue (R219, R221) -/

/-- R219: the fields that a kind requires. -/
def engineRequires : Nat → List Nat
  | 0x40 => [10] | 0x44 => [10] | 0x45 => [10] | 0x48 => [10, 11] | 0x49 => [5, 6, 7, 8, 10] | 0x4A => [10]
  | 0x4B => [10] | 0x80 => [10, 11] | 0x81 => [10, 11] | 0x82 => [10] | _ => []
/-- R424: a rejection of the chain engine: check code 0x0F, with the step in DETAIL[12:8] and a reason in DETAIL[15:13]. -/
def Cmd.chainBad (c : Cmd) (step reason : Nat) : Reject :=
  ⟨0x0F, 0x0F + step % 32 * 2 ^ 8 + reason * 2 ^ 13, c.formatVal 0x0F⟩
/-- 0x04: reserved bits of HDR and of the fields of the kind. -/
def Cmd.engineReserved (c : Cmd) : Option Reject :=
  let k := c.kind
  let a := c.aux0
  c.badAt 0x04 [(0, bitsOf (c.w 0) 47 32 != 0 || bitsOf (c.w 0) 23 20 != 0),
    (10, (k == 0x43 && 1 < a) || (k == 0x44 && a / 2 ^ 48 != 0) || (k == 0x45 && a / 128 != 0)
      || (k == 0x49 && (a / 2 ^ 29 != 0 || a.testBit 27 || bitsOf a 23 17 != 0 || bitsOf a 15 13 != 0 || bitsOf a 7 5 != 0))
      || (decide (0x80 ≤ k) && a / 4 != 0)),
    (12, !(refReservedOk c.bind)),
    (13, k != 0x49 && c.cursorW / 2 ^ 48 != 0)]
/-- 0x06: a port that PRT does not know, and a barrier that is not granted. -/
def State.engineRange (s : State) (ctx : Nat) (c : Cmd) : Option Reject :=
  let a := c.aux0
  c.badAt 0x06 [(10, c.kind == 0x45 && !(decide (a < 48) || (decide (64 ≤ a) && decide (a < 96)))),
    (12, c.bound && !refNames (s.slotAt ctx).decl c.bind)]
/-- R222: code 0x0E, region state; R231: the step range; R233, R234: the channel's state. -/
def State.engineState (s : State) (ctx : Nat) (c : Cmd) : Option Reject :=
  let l := s.slotAt ctx
  let q := l.quad.st
  let isOpen := (((l.channels[c.aux0 % 4]?).map (·.engine)).getD none).isSome
  match c.kind with
  | 0x40 => if q = .run then c.bad 0x0E else none
  | 0x41 => if q = .empty then c.bad 0x0E else none
  | 0x44 => if q = .empty ∨ q = .drained then c.bad 0x0E else none
  | 0x49 => if bitsOf c.aux0 12 8 < c.aux0 % 32 then some (c.chainBad (c.aux0 % 32) 3) else none
  | 0x80 => if isOpen then c.bad 0x10 else none
  | 0x81 => if isOpen then none else c.bad 0x10
  | 0x82 => if isOpen then none else c.bad 0x10
  | _ => none
/-- R221: the first check that a command fails as it leaves the array-and-chain queue or the encode queue. -/
def State.engineRejects (s : State) (ctx : Nat) (c : Cmd) (enc : Bool) : Option Reject :=
  let k := c.kind
  if c.ver ≠ 1 then c.bad 0x01
  else if !(if enc then encodeKind k else arrayKind k || chainKind k) then c.bad 0x02
  else
    match c.unknownField with
    | some i => some ⟨0x09, i, c.formatVal i⟩
    | none =>
      [c.badAt 0x03 ((engineRequires k).map fun i => (i, !c.has i)), c.engineReserved, s.engineRange ctx c,
        (if k = 0x49 ∧ 4 < bitsOf c.aux0 26 24 then c.bad 0x07 10 else none),
        (if 13 < c.patch ∧ c.patch ≠ 0xFF then c.bad 0x0B else none), s.engineState ctx c].findSome? id
/-- The first command of a queue that can leave it: its lane is free, or it has none and can be reported. -/
def Slot.nextCmd (l : Slot) (q : List Cmd) : Option Cmd :=
  q.find? fun c =>
    match c.lane with
    | some n => (l.lane n).isNone
    | none => c.trapf || l.core.stsRoom
/-- ENGINE_COMMAND_DEQUEUE (R221): queue 0 is the array-and-chain queue, any other the encode queue. -/
def execEngineCommandDequeue (queue : Nat) (s : State) : Res :=
  orStay s (
    let enc := queue != 0
    let q := if enc then s.me.queueE else s.me.queueA
    if s.me.stage != .running then none
    else
      (s.me.nextCmd q).map fun c =>
        let rest := q.filter fun x => x.seq != c.seq
        let t := s.setMe fun l => if enc then { l with queueE := rest } else { l with queueA := rest }
        let r := t.engineRejects s.cur c enc
        let c := { c with
          st := .waiting
          left := s.acStart s.cur
          cursor := if c.kind = 0x49 then c.cursorW else c.cursor }
        let n := c.lane.getD (noLane enc)
        let t := t.setLane s.cur n (some c)
        match r with
        | some r => t.engineFail s.cur n c r
        | none => t)

/-! ### Starting (R160, R221, R440) -/

/-- R440: kinds that complete although the slot's sources are gated. -/
def completesGated (k : Nat) : Bool := [0x40, 0x41, 0x45, 0x48, 0x4A, 0x4B, 0x80, 0x82].contains k
def Slot.engineMay (l : Slot) (c : Cmd) : Bool :=
  l.stage == .running || (l.stage == .gating && (c.st == .faulted || (c.started && (completesGated c.kind || c.kind == 0x49))))
/-- A command of a lane takes its waits and starts. -/
def State.engineTake (s : State) (ctx : Nat) (c : Cmd) : Option (State × Cmd) :=
  let l := s.slotAt ctx
  if c.waited then some (s, c)
  else if l.countDue ctx c ((l.eng.flying ++ l.laneCmds).filter (·.leftFirst c)) then none
  else if l.core.waitsMet c.waitMask then
    some (s.setCoreAt ctx (·.takeWaits (s.acStart ctx) c.waitMask), { c with waited := true })
  else none
/-- R160: a start stamp is missed. -/
def State.engineMiss (s : State) (ctx n : Nat) (c : Cmd) (t : Nat) : State :=
  if c.lateBit then s.setLane ctx n (some { c with late := true })
  else s.engineFail ctx n c ⟨0x0A, 0, BitVec.ofNat 64 t⟩
/-- A command that starts runs at once as far as it can. -/
def State.engineBegin (s : State) (ctx n : Nat) (c : Cmd) (run : State → Cmd → Option State) : State :=
  let t := s.setLane ctx n (some c.begin)
  (run t c.begin).getD t
/-- A lane's command of a kind waits, starts, goes on or is reported. -/
def State.engineRun (s : State) (ctx n kind : Nat) (run : State → Cmd → Option State) : State :=
  match (s.slotAt ctx).lane n with
  | none => s
  | some c =>
    if c.kind ≠ kind || !(s.slotAt ctx).engineMay c then s
    else if c.st = .faulted then s.engineReport ctx n c
    else if c.started then (run s c).getD s
    else
      match c.stamp, c.late with
      | some t, false =>
        if c.past || decide (s.stampOf ctx t < s.stc) then s.engineMiss ctx n c t
        else
          match s.engineTake ctx c with
          | some (u, c) => if s.stc < s.stampOf ctx t then u.setLane ctx n (some c) else u.engineBegin ctx n c run
          | none => if s.stc < s.stampOf ctx t then s else s.engineMiss ctx n c t
      | _, _ =>
        match s.engineTake ctx c with
        | some (u, c) => u.engineBegin ctx n c run
        | none => s

/-! ### Elements of regions, for the chain engine and the encode channels (R324, R326, R335, R397, R402) -/

/-- What a read of an element comes to; bad where the command faults for it. -/
inductive Read where
  | halt (t : Try)
  | bad (r : Reject)
  | val (v : Nat)
/-- The command of lane n withholds at an element. -/
def State.laneWithhold (s : State) (ctx n : Nat) (c : Cmd) (region w : Nat) (E : Int) (outside : Bool) : Try :=
  s.withholdBy ctx n (fun s c => s.setLane ctx n (some c)) c region w E outside
/-- The granules of an element that a command of lane n reaches in a task with JNL = 1 (R398). -/
def State.laneGranules (s : State) (ctx n : Nat) (c : Cmd) (region w E : Nat) : Option Try :=
  let l := s.slotAt ctx
  if !l.core.jnl then none
  else
    s.granulesBy ctx n (fun s c => s.setLane ctx n (some c)) c region w ((l.regions[region]?).getD {})
      (l.decl.granulesOf region w E)
/-- Element E of a region, w bits wide, is read by the command of lane n. -/
def State.laneRead (s : State) (ctx n : Nat) (c : Cmd) (region w : Nat) (E : Int) : Read :=
  let l := s.slotAt ctx
  let r := (l.regions[region]?).getD {}
  match r.place false w E with
  | .outside => .halt (s.laneWithhold ctx n c region w E true)
  | .absent => .halt (s.laneWithhold ctx n c region w E false)
  | .denied _ => .halt .wait
  | .at as =>
    match s.laneGranules ctx n c region w E.toNat with
    | some t => .halt t
    | none =>
      if touchesBad s.badWords as then
        .bad (eccFault (region * 2 ^ 48 + E.toNat % 2 ^ 48))
      else if l.core.jnl && l.journalBad then .halt (.stop (s.restartUnread ctx))
      else .val (s.viewElem ctx region r w E.toNat as)
/-- The command of lane n goes on: what it asked for at an element is withdrawn. -/
def State.laneResume (s : State) (ctx n : Nat) (c : Cmd) : State × Cmd :=
  if c.notice.isSome || c.waitGranule.isSome then
    (s.withdrawFor ctx n c.seq, { c with
      st := .running
      notice := none
      waitGranule := none })
  else (s, c)

/-! ### The array engine (R222 to R228) -/

def qstateCode : QState → Nat
  | .empty => 0 | .loaded => 1 | .run => 2 | .draining => 3 | .drained => 4
/-- The quadrant of a slot as it stands now. -/
def State.quadNow (s : State) (ctx : Nat) : Quad := (s.slotAt ctx).quad.settle (s.acOf ctx)
/-- R223: the fault of a CFG. -/
def cfgFault (code off : Nat) : Reject := ⟨0x07, code, blockTrapval code off⟩
/-- R223: the code for which a CFG faults. -/
def State.cfgCode (s : State) (ctx off : Nat) : Option Nat :=
  let bound := (s.slotAt ctx).core.arenabound.toNat
  if off % 16 ≠ 0 ∨ bound < off + 16 then some 0x01
  else
    match headCheck (s.arenaByte ctx) bound off with
    | some c => some c
    | none => (s.listed ctx off).fault
/-- R223, R279, R337: a configuration period begins: the streams that stay bound count their rounds anew, and the cut at CFG is the last
complete one, before which no record is kept for replay. -/
def Slot.reconfigured (l : Slot) (q : Quad) : Slot :=
  let anew (c : Cmd) : Cmd := { c with lastMark := none }
  { l with
    quad := q
    eng := { l.eng with
      flying := l.eng.flying.map anew
      kept := [] } }
/-- R223: the load of a block, once the tokens on their way have entered their ports. The block and its configuration words are read from the
arena as they stand now (DEDUCED, log 121). -/
def State.cfgRun (s : State) (ctx : Nat) (c : Cmd) : Option State :=
  let q := s.quadNow ctx
  let off := c.aux0
  match s.cfgCode ctx off with
  | some code => some (s.engineFail ctx 0 c (cfgFault code off))
  | none =>
    if q.st == .draining || q.inPorts.any fun (_, p) => !p.incoming.isEmpty then none
    else
      let b := readBlock (s.arenaByte ctx) (s.slotAt ctx).pkt.cfgtab off ((s.listed ctx off).place.getD {})
      (s.engineDone ctx 0 c b.blkid c.doneBit).map fun t => t.setSlot ctx fun l => l.reconfigured (q.reload b (s.acOf ctx))
/-- CFG (R223). -/
def execCfg (s : State) : Res := .next (s.engineRun s.cur 0 0x40 fun t c => t.cfgRun s.cur c)

/-- R224: the region takes tokens and fires. -/
def State.runRun (s : State) (ctx : Nat) (c : Cmd) : Option State :=
  if (s.slotAt ctx).quad.st == .draining then none
  else (s.engineDone ctx 0 c 0 c.doneBit).map fun t => t.setSlot ctx fun l => { l with quad := { l.quad with st := .run } }
/-- RUN (R224). -/
def execRun (s : State) : Res := .next (s.engineRun s.cur 0 0x41 fun t c => t.runRun s.cur c)

/-- R222, R225: a region in RUN stops its ports; one at rest lets DRN retire. -/
def State.drnRun (s : State) (ctx : Nat) (c : Cmd) : Option State :=
  match (s.slotAt ctx).quad.st with
  | .run => some (s.setSlot ctx fun l => { l with quad := { l.quad with st := .draining } })
  | .draining => none
  | _ => s.engineDone ctx 0 c (s.quadNow ctx).portTokens c.doneBit
/-- DRN (R225). -/
def execDrn (s : State) : Res := .next (s.engineRun s.cur 0 0x42 fun t c => t.drnRun s.cur c)

/-- REGION_DRAINED (R225): the draining region can do no more, with no MMS4 step and no loop-header run in progress (R215). -/
def execRegionDrained (s : State) : Res :=
  orStay s (
    match s.me.array with
    | some c =>
      let q := s.quadNow s.cur
      if c.kind = 0x42 && c.started && s.me.stage == .running && q.st == .draining && q.quiescent (s.acOf s.cur)
          && q.resting (s.acOf s.cur) && q.stepsDone then
        (s.engineDone s.cur 0 c q.portTokens c.doneBit).map fun t =>
          t.setMe fun l => l.cutTo s.cur { q with st := .drained } (s.acOf s.cur)
      else none
    | none => none)

/-- R226: the answer of QUI. -/
def State.quiAnswer (s : State) (ctx : Nat) : Nat :=
  let q := s.quadNow ctx
  qstateCode q.st + bitIf (q.quiescent (s.acOf ctx)) 3 + q.portTokens % 65536 * 65536
/-- QUI (R226): with PROBE = 1 it answers at once; else it waits for QUI_ANSWER. -/
def execQui (s : State) : Res :=
  .next (s.engineRun s.cur 0 0x43 fun t c =>
    if c.aux0.testBit 0 then t.engineDone s.cur 0 c (t.quiAnswer s.cur) true else none)

/-- QUI_ANSWER (R226). -/
def execQuiAnswer (s : State) : Res :=
  orStay s (
    match s.me.array with
    | some c =>
      if c.kind = 0x43 && c.started && s.me.stage == .running && (s.quadNow s.cur).quiescent (s.acOf s.cur) then
        s.engineDone s.cur 0 c (s.quiAnswer s.cur) true
      else none
    | none => none)

/-- R227: the tokens that arrive at an input port in this ac enter it. -/
def State.enterWaiting (s : State) (ctx p : Nat) : Nat → State
  | 0 => s
  | n + 1 =>
    match s.portEnter ctx p with
    | some t => t.enterWaiting ctx p n
    | none => s
/-- R227, R278: a marker enters an input port, and the cursors of the commands that feed it are recorded. -/
def State.markPort (s : State) (ctx p : Nat) : Option State :=
  let u := s.enterWaiting ctx p 8
  let q := u.quadNow ctx
  (q.appendMarker (s.acOf ctx) p).map fun q' =>
    u.setSlot ctx fun l => (l.cutTo ctx q' (s.acOf ctx)).entered ctx p (s.acOf ctx) (markerTok 0) (q.port p).pr
/-- R227: the marker enters every port of a list that has a place for it; the ports that still wait, as a mask. -/
def State.markPorts (s : State) (ctx : Nat) : List Nat → State × Nat
  | [] => (s, 0)
  | p :: ps =>
    match s.markPort ctx p with
    | some t => t.markPorts ctx ps
    | none =>
      let r := s.markPorts ctx ps
      (r.1, r.2 + 2 ^ p)
/-- R227: CURSOR holds the ports still to be entered (R440). A port that the binding does not map takes none (DEDUCED, log 27). -/
def State.mrkRun (s : State) (ctx : Nat) (c : Cmd) : Option State :=
  let left := if c.acted then c.cursor else c.aux0
  let ps := (List.range 48).filter fun p => left.testBit p && (s.slotAt ctx).quad.mapsIn p
  let (s, more) := s.markPorts ctx ps
  let c := { c with
    acted := true
    cursor := more }
  if more = 0 then
    match s.engineDone ctx 0 c 0 c.doneBit with
    | some t => some t
    | none => some (s.setLane ctx 0 (some c))
  else some (s.setLane ctx 0 (some c))
/-- MRK (R227). -/
def execMrk (s : State) : Res := .next (s.engineRun s.cur 0 0x44 fun t c => t.mrkRun s.cur c)

/-- R228: the answer about one port. -/
def State.portAnswer (s : State) (ctx a : Nat) : Nat :=
  let l := s.slotAt ctx
  let q := s.quadNow ctx
  let ts := if a < 48 then (q.port a).q else (q.outPort (a - 64)).map (·.1)
  let side := if a < 48 then a else 100 + (a - 64)
  let bound := l.eng.flying.find? fun (x : Cmd) => (x.sides ctx).contains side
  min ts.length 8 + bitIf (ts.any Tok.isMarker) 4 + bitIf bound.isSome 5 + ((bound.map (·.seq)).getD 0) * 65536
/-- PRT (R228). -/
def execPrt (s : State) : Res :=
  .next (s.engineRun s.cur 0 0x45 fun t c => t.engineDone s.cur 0 c (t.portAnswer s.cur c.aux0) true)

end Sys2Proof.Machine
end

