-- ==== Sys2Proof/Machine/Encode.lean ====
section
/-! DEFINITION. The encode channels (spec/08 R233 to R235, spec/21 R452 to R457). -/

namespace Sys2Proof.Machine

/-! ### Parameter blocks (R453) -/

/-- AV1 levels by seq_level_idx: the largest picture, width, height and display rate (PRESUMED: Annex A of the AV1 specification, log
28). -/
def av1Level : Nat → Option (Nat × Nat × Nat × Nat)
  | 0 => some (147456, 2048, 1152, 4423680)
  | 1 => some (278784, 2816, 1584, 8363520)
  | 4 => some (665856, 4352, 2448, 19975680)
  | 5 => some (1065024, 5504, 3096, 31950720)
  | 8 => some (2359296, 6144, 3456, 70778880)
  | 9 => some (2359296, 6144, 3456, 141557760)
  | 12 => some (8912896, 8192, 4352, 267386880)
  | 13 => some (8912896, 8192, 4352, 534773760)
  | 14 => some (8912896, 8192, 4352, 1069547520)
  | 15 => some (8912896, 8192, 4352, 1069547520)
  | 16 => some (35651584, 16384, 8704, 1069547520)
  | _ => none
/-- HEVC levels by general_level_idc: MaxLumaPs and MaxLumaSr (PRESUMED: Annex A of the HEVC specification, log 28). -/
def hevcLevel : Nat → Option (Nat × Nat)
  | 30 => some (36864, 552960)
  | 60 => some (122880, 3686400)
  | 63 => some (245760, 7372800)
  | 90 => some (552960, 16588800)
  | 93 => some (983040, 33177600)
  | 120 => some (2228224, 66846720)
  | 123 => some (2228224, 133693440)
  | 150 => some (8912896, 267386880)
  | 153 => some (8912896, 534773760)
  | 156 => some (8912896, 1069547520)
  | 180 => some (35651584, 1069547520)
  | 183 => some (35651584, 2139095040)
  | _ => none

/-- The 16 words of a 128-byte block of tile store. -/
def Slot.block128 (l : Slot) (off : Nat) : List Nat := (List.range 16).map fun k => l.viewLE (off + 8 * k) 8
def wordAt (ws : List Nat) (k : Nat) : Nat := (ws[k]?).getD 0
/-- The fields of a parameter block. -/
def encWidth (ws : List Nat) : Nat := wordAt ws 1 % 65536
def encHeight (ws : List Nat) : Nat := bitsOf (wordAt ws 1) 31 16
def encDepth (ws : List Nat) : Nat := bitsOf (wordAt ws 0) 23 16
def encNum (ws : List Nat) : Nat := wordAt ws 2 % 2 ^ 32
def encDen (ws : List Nat) : Nat := wordAt ws 2 / 2 ^ 32
/-- Bytes of a sample (R455). -/
def encBytes (ws : List Nat) : Nat := if encDepth ws = 10 then 2 else 1
/-- The picture stays within its codec's level. -/
def levelOk (ws : List Nat) : Bool :=
  let w := encWidth ws
  let h := encHeight ws
  let level := bitsOf (wordAt ws 0) 31 24
  let rate := w * h * encNum ws
  if wordAt ws 0 % 256 = 1 then
    match av1Level level with
    | some (ps, mw, mh, r) => decide (w * h ≤ ps) && decide (w ≤ mw) && decide (h ≤ mh) && decide (rate ≤ r * encDen ws)
    | none => false
  else
    match hevcLevel level with
    | some (ps, r) =>
      decide (w * h ≤ ps) && decide (w * w ≤ 8 * ps) && decide (h * h ≤ 8 * ps) && decide (rate ≤ r * encDen ws)
    | none => false
/-- R453: a valid parameter block. -/
def paramsOk (ws : List Nat) : Bool :=
  let w0 := wordAt ws 0
  let w3 := wordAt ws 3
  let codec := w0 % 256
  let profile := bitsOf w0 15 8
  let depth := bitsOf w0 23 16
  let w := encWidth ws
  let h := encHeight ws
  let mode := w3 % 4
  let qp := bitsOf w3 15 8
  w0 / 2 ^ 32 == 0 && wordAt ws 1 / 2 ^ 32 == 0 && bitsOf w3 7 2 == 0 && bitsOf w3 31 16 == 0 && wordAt ws 5 / 65536 == 0
    && (ws.drop 6).all (· == 0)
    && (depth == 8 || depth == 10)
    && ((codec == 1 && profile == 0) || (codec == 2 && ((profile == 1 && depth == 8) || profile == 2)))
    && w % 2 == 0 && h % 2 == 0 && decide (16 ≤ w) && decide (w ≤ 8192) && decide (16 ≤ h) && decide (h ≤ 4352)
    && encNum ws != 0 && encDen ws != 0 && mode != 3 && (mode != 2 || decide (qp ≤ if codec = 1 then 255 else 51))
    && wordAt ws 5 % 65536 != 0 && levelOk ws

/-! ### Engines (R452) -/

/-- A rate as a fraction: the sum of two, and their order. -/
def addRate (a b : Nat × Nat) : Nat × Nat := (a.1 * b.2 + b.1 * a.2, a.2 * b.2)
def rateLt (a b : Nat × Nat) : Bool := decide (a.1 * b.2 < b.1 * a.2)
/-- What is reserved on an engine. -/
def State.reserved (s : State) (e : Nat) : Nat × Nat :=
  (s.encodes.filter fun r => r.engine == e).foldl (fun a r => addRate a (r.num, r.den)) (0, 1)
/-- R452: the engine of a die with the most rate free, the lowest number first. -/
def State.freest (s : State) (die : Nat) : Nat :=
  [1, 2, 3].foldl (fun b k => if rateLt (s.reserved (4 * die + k)) (s.reserved b) then 4 * die + k else b) (4 * die)
/-- R452: pixels that an engine carries in a second. -/
def engineRate : Nat := 4200000000
/-- A rejection with code 0x10 and its reason. -/
def Cmd.encodeBad (c : Cmd) (reason : Nat) : Reject := ⟨0x0F, 0x10 + reason * 2 ^ 13, c.formatVal 0x10⟩
/-- A block of tile store that a command names cannot be read: it leaves the share (DEDUCED, log 29), or holds an uncorrectable
word (R335). -/
def Slot.blockBad (l : Slot) (off : Nat) : Option Reject :=
  if 524288 < off + 128 then some (regionFault 16 0 off)
  else if touchesBad l.badWords ((List.range 16).map fun k => off + 8 * k) then some (eccFault off)
  else none

/-- R452: the channel opens, with its rate reserved. -/
def State.eopnRun (s : State) (ctx n : Nat) (c : Cmd) : Option State :=
  let l := s.slotAt ctx
  let ch := n - 2
  match l.blockBad c.aux1 with
  | some r => some (s.engineFail ctx n c r)
  | none =>
    if l.tileUnread then some (s.restartUnread ctx) else
    let ws := l.block128 c.aux1
    let rate := (encWidth ws * encHeight ws * encNum ws, encDen ws)
    let e := s.freest (dieOf (nodeOf ctx))
    if !paramsOk ws then some (s.engineFail ctx n c (c.encodeBad 1))
    else if rateLt (engineRate, 1) (addRate (s.reserved e) rate) then some (s.engineFail ctx n c (c.encodeBad 2))
    else
      (s.engineDone ctx n c e c.doneBit).map fun t =>
        let u := t.setSlot ctx fun l => { l with
          channels := lmod ch (fun _ => (⟨none, some e, ws, []⟩ : Channel)) l.channels }
        { u with encodes := u.encodes ++ [⟨e, l.age, ch, rate.1, rate.2⟩] }
/-- EOPN (R452): channel k is lane k + 2. -/
def execEopn (channel : Nat) (s : State) : Res :=
  .next (s.engineRun s.cur (2 + channel) 0x80 fun t c => t.eopnRun s.cur (2 + channel) c)

/-- R234: the channel closes. -/
def State.eclsRun (s : State) (ctx n : Nat) (c : Cmd) : Option State :=
  let age := (s.slotAt ctx).age
  let ch := n - 2
  (s.engineDone ctx n c 0 c.doneBit).map fun t =>
    let u := t.setSlot ctx fun l => { l with channels := lmod ch (fun _ => ({} : Channel)) l.channels }
    { u with encodes := u.encodes.filter fun e => !(e.age == age && e.channel == ch) }
/-- ECLS (R234). -/
def execEcls (channel : Nat) (s : State) : Res :=
  .next (s.engineRun s.cur (2 + channel) 0x82 fun t c => t.eclsRun s.cur (2 + channel) c)

/-! ### Frames (R454, R455) -/

/-- R454: a descriptor that may be used with a channel's parameters. -/
def descriptorOk (ws ps : List Nat) : Bool :=
  let b := encBytes ps
  bitsOf (wordAt ws 2) 59 48 == 0 && wordAt ws 3 / 2 ^ 48 == 0 && wordAt ws 4 / 2 ^ 48 == 0 && bitsOf (wordAt ws 6) 59 48 == 0
    && wordAt ws 7 / 2 ^ 33 == 0 && (ws.drop 8).all (· == 0)
    && decide (encWidth ps * b ≤ wordAt ws 5 % 2 ^ 32) && decide (encWidth ps / 2 * b ≤ wordAt ws 5 / 2 ^ 32)
/-- The byte offsets of a plane's samples, row by row. -/
def planeBytes (base pitch rows len : Nat) : List Nat :=
  (List.range rows).flatMap fun y => (List.range len).map fun x => base + pitch * y + x
/-- The byte offsets of a frame: luma, Cb, Cr. -/
def frameBytes (ws ps : List Nat) : List Nat :=
  let b := encBytes ps
  let w := encWidth ps
  let h := encHeight ps
  planeBytes (wordAt ws 2 % 2 ^ 48) (wordAt ws 5 % 2 ^ 32) h (w * b)
    ++ planeBytes (wordAt ws 3) (wordAt ws 5 / 2 ^ 32) (h / 2) (w / 2 * b)
    ++ planeBytes (wordAt ws 4) (wordAt ws 5 / 2 ^ 32) (h / 2) (w / 2 * b)
/-- Bytes of a region, one after another. -/
def State.laneBytes (s : State) (ctx n : Nat) (c : Cmd) (region : Nat) : List Nat → Run
  | [] => .ok []
  | o :: rest =>
    match s.laneRead ctx n c region 8 o with
    | .halt t => .halt t
    | .bad r => .halt (.stop (s.engineFail ctx n c r))
    | .val v =>
      match s.laneBytes ctx n c region rest with
      | .ok vs => .ok (v :: vs)
      | .halt t => .halt t
/-- R455: at DEPTH 10 bits 15 to 10 of a sample are ignored. -/
def sampleBytes (depth : Nat) (bs : List Nat) : List Nat :=
  if depth = 10 then (numbered 0 bs).map fun (k, v) => if k % 2 = 1 then v % 4 else v else bs
/-- R455: the largest coded frame. -/
def frameMax (ps : List Nat) : Nat := 2 * (encWidth ps * encHeight ps * 3 / 2 * encBytes ps) + 65536
/-- R159, R455: the regions of the planes and of the bitstream serve. -/
def Slot.frameRegions (l : Slot) (ws : List Nat) : Option Reject :=
  let test (k : Nat) (read : Bool) : Option Reject :=
    let r := (l.regions[k]?).getD {}
    if r.v && (if read then r.rd else r.wr) then none
    else some ⟨0x0D, 0x0D + k * 65536, BitVec.ofNat 64 (k * 2 ^ 48)⟩
  (test (wordAt ws 2 / 2 ^ 60) true).or (test (wordAt ws 6 / 2 ^ 60) false)
/-- A byte of the coded frame is written, or goes to the journal (R402); a denied one is left out (R334). -/
def State.laneWrite (s : State) (ctx n : Nat) (c : Cmd) (region o k v : Nat) : Try :=
  let l := s.slotAt ctx
  let put (s : State) (c : Cmd) : State := s.setLane ctx n (some c)
  match ((l.regions[region]?).getD {}).place true 8 o with
  | .outside => s.laneWithhold ctx n c region 8 o true
  | .absent => s.laneWithhold ctx n c region 8 o false
  | .denied _ => .ok s c 0
  | .at as =>
    if as.any l.core.inArena then .ok s c 0
    else
    match s.laneGranules ctx n c region 8 o with
    | some t => t
    | none =>
      if l.core.jnl && !(l.decl.granulesOf region 8 o).isEmpty then
        s.journalBy ctx put c
          { efmt := 0x0D, region := region, elem := o, seq := c.seq, ord := k, x := v, md := 0, op := 0,
            enc := true }
      else .ok (s.writePhys as 0 8 v) c 0
/-- The coded frame is written from the bytes that CURSOR counts on. -/
def writeFrame (ctx n region base cap : Nat) : Nat → State → Cmd → State × Cmd × Bool
  | 0, s, c => (s, c, true)
  | fuel + 1, s, c =>
    if cap ≤ c.cursor then (s, c, true)
    else
      match c.ready[c.cursor]? with
      | none => (s, c, true)
      | some v =>
        match s.laneWrite ctx n c region (base + c.cursor) c.cursor v with
        | .ok s c _ =>
          let (s, c) := s.laneResume ctx n c
          writeFrame ctx n region base cap fuel s { c with cursor := c.cursor + 1 }
        | .stop t => (t, c, false)
        | .wait => (s, c, false)
/-- How many bytes reach memory before a frame that is too long faults: not stated beyond the capacity. -/
def State.frameLimit (s : State) (len cap : Nat) : Nat := if cap < len then Config.freeNat s.draws % (cap + 1) else cap
/-- R455: the frame is read and coded. -/
def State.efrmCode (s : State) (ctx n : Nat) (c : Cmd) (ws ps : List Nat) (frames : List (List Byte)) : State :=
  match s.laneBytes ctx n c (wordAt ws 2 / 2 ^ 60) (frameBytes ws ps) with
  | .halt (.stop t) => t
  | .halt _ => s
  | .ok bs =>
    let (s, c) := s.laneResume ctx n c
    let frame : List Byte := (bitIf ((wordAt ws 7).testBit 32) 0 :: sampleBytes (encDepth ps) bs).map (BitVec.ofNat 8)
    let coded := (Config.codedFrame ps frame frames).take (frameMax ps)
    s.setLane ctx n (some { c with
      run := frame.map (·.toNat)
      ready := coded.map (·.toNat)
      fin := true
      cursor := 0
      outn := s.frameLimit coded.length (wordAt ws 7 % 2 ^ 32) })
/-- R455: the coded frame goes to memory; then the command retires, or faults where the frame was too long. -/
def State.efrmWrite (s : State) (ctx n : Nat) (c : Cmd) (ws : List Nat) : State :=
  let r := writeFrame ctx n (wordAt ws 6 / 2 ^ 60) (wordAt ws 6 % 2 ^ 48) c.outn c.ready.length s c
  if !r.2.2 then
    (match (r.1.slotAt ctx).lane n with
     | some c' => if c'.st = .faulted then r.1 else r.1.setLane ctx n (some { c' with cursor := r.2.1.cursor })
     | none => r.1)
  else if wordAt ws 7 % 2 ^ 32 < c.ready.length then
    { r.1 with draws := r.1.draws + 1 }.engineFail ctx n r.2.1 ⟨0x0F, 0x11, c.formatVal 0x11⟩
  else
    match r.1.engineDone ctx n r.2.1 c.ready.length c.doneBit with
    | some t => t.setSlot ctx fun l => { l with
        channels := lmod (n - 2) (fun h => { h with frames := h.frames ++ [c.run.map (BitVec.ofNat 8)] }) l.channels }
    | none => r.1.setLane ctx n (some r.2.1)
/-- R454, R455: EFRM checks its descriptor, codes and writes. -/
def State.efrmRun (s : State) (ctx n : Nat) (c : Cmd) : Option State :=
  let l := s.slotAt ctx
  let ps := ((l.channels[n - 2]?).map (·.params)).getD []
  let frames := ((l.channels[n - 2]?).map (·.frames)).getD []
  match l.blockBad c.aux1 with
  | some r => some (s.engineFail ctx n c r)
  | none =>
    if l.tileUnread then some (s.restartUnread ctx) else
    let ws := l.block128 c.aux1
    if c.fin then some (s.efrmWrite ctx n c ws)
    else if !descriptorOk ws ps then some (s.engineFail ctx n c ⟨0x0F, 0x12, c.formatVal 0x12⟩)
    else
      match l.frameRegions ws with
      | some r => some (s.engineFail ctx n c r)
      | none => some (s.efrmCode ctx n c ws ps frames)
/-- EFRM (R455): it reads and codes its frame, then writes it. -/
def execEfrm (channel : Nat) (s : State) : Res :=
  .next (s.engineRun s.cur (2 + channel) 0x81 fun t c => t.efrmRun s.cur (2 + channel) c)

end Sys2Proof.Machine
end

