-- ==== Sys2Proof/Machine/Chain.lean ====
section
/-! DEFINITION. The chain engine (spec/08 R229 to R232, spec/18 R410 to R413, spec/19). -/

namespace Sys2Proof.Machine

/-! ### Steps (R410, R422, R423) -/

/-- R410: an order-program step. -/
structure ChainStep where
  mode : Nat
  cfmt : Nat
  scl : Nat
  push : Bool
  bond : Nat
  j : Nat
  i : Nat
  reg : Nat
  off : Nat
  resv : Bool
  deriving DecidableEq, Repr, Inhabited
def ChainStep.ofWords (p : Word × Word) : ChainStep :=
  let a := p.1.toNat
  let b := p.2.toNat
  { mode := bitsOf b 63 62
    cfmt := bitsOf b 61 60
    scl := bitsOf b 59 58
    push := b.testBit 56
    bond := bitsOf b 26 24
    j := bitsOf b 23 12
    i := bitsOf b 11 0
    reg := bitsOf a 63 60
    off := a % 2 ^ 48
    resv := bitsOf a 59 48 != 0 || b.testBit 57 || bitsOf b 55 27 != 0 }
/-- R410: a reserved value, or a dimension of zero. -/
def ChainStep.bad (p : ChainStep) : Bool := p.resv || p.mode == 3 || decide (1 < p.cfmt) || p.i == 0 || p.j == 0
def ChainStep.fmt (p : ChainStep) : Fmt := if p.cfmt = 0 then .bf16 else .tap8
/-- R425: the length of a scale block; none without scales. -/
def ChainStep.block (p : ChainStep) : Option Nat := if p.scl = 0 then none else some (8 * 2 ^ p.scl)
/-- R423: the requirement of a mode. -/
def ChainStep.fits (p : ChainStep) (t : Nat) : Bool :=
  match p.mode with
  | 0 => p.j == 1
  | 1 => t % p.j == 0
  | _ => t % (p.i * p.j) == 0
/-- R423: the extents of the new boundary, from those of the old one and the right bond. -/
def ChainStep.shape (p : ChainStep) (k t bond : Nat) : Nat × Nat × Nat :=
  match p.mode with
  | 0 => (k, bond, t * p.i)
  | 1 => (k * p.i, bond, t / p.j)
  | _ => (k, bond, t / (p.i * p.j))
/-- R423: the terms of output element n, in the order of their sum: the index of the boundary element and the core's linear index. -/
def ChainStep.terms (p : ChainStep) (a t bond n : Nat) : List (Nat × Nat) :=
  let core (x i j b : Nat) : Nat := ((x * p.i + i) * p.j + j) * bond + b
  match p.mode with
  | 0 =>
    let i := n % p.i
    let u := n / p.i % t
    let b := n / p.i / t % bond
    let k := n / p.i / t / bond
    (List.range a).map fun x => ((k * a + x) * t + u, core x i 0 b)
  | 1 =>
    let t' := t / p.j
    let u := n % t'
    let b := n / t' % bond
    let i := n / t' / bond % p.i
    let k := n / t' / bond / p.i
    (List.range a).flatMap fun x => (List.range p.j).map fun j => ((k * a + x) * t + j * t' + u, core x i j b)
  | _ =>
    let t' := t / (p.i * p.j)
    let u := n % t'
    let b := n / t' % bond
    let k := n / t' / bond
    (List.range a).flatMap fun x =>
      (List.range (p.i * p.j)).map fun m => ((k * a + x) * t + m * t' + u, core x (m / p.j) (m % p.j) b)

/-! ### CRUN (R219, R231, R421) -/

def Cmd.firstStep (c : Cmd) : Nat := c.aux0 % 32
def Cmd.lastStep (c : Cmd) : Nat := bitsOf c.aux0 12 8
def Cmd.keeps (c : Cmd) : Bool := c.aux0.testBit 16
def Cmd.chainMods (c : Cmd) : Mods := { rm := RMode.ofCode (bitsOf c.aux0 26 24), ftz := c.aux0.testBit 28 }
/-- R219: bd[n] as the record carries it. -/
def Cmd.bond (c : Cmd) (n : Nat) : Nat := c.size (n / 2) / 65536 ^ (n % 2) % 65536
/-- The step in hand, in CURSOR[15:0] with one past the last step at the end, and PUSHED in CURSOR[47:16]. -/
def Cmd.stepAt (c : Cmd) : Nat := c.cursor % 65536
def Cmd.pushedAt (c : Cmd) : Nat := c.cursor / 65536
/-- R424 check 1. -/
def Cmd.runBad (c : Cmd) : Option Reject :=
  let u := c.cursorW
  let step := u % 32
  if u / 2 ^ 48 ≠ 0 || bitsOf u 15 5 != 0
      || (u != 0 && (decide (step < c.firstStep) || decide (c.lastStep < step) || (step != c.firstStep && !c.keeps))) then
    some (c.chainBad c.firstStep 3)
  else if ((List.range 8).any fun n => decide (c.bond n < 1) || decide (1024 < c.bond n))
      || (List.range 4).any fun k => c.stride k != 0 then
    some (c.chainBad c.firstStep 2)
  else none
def State.setChain (s : State) (ctx : Nat) (f : Chain → Chain) : State :=
  s.setSlot ctx fun l => { l with chain := f l.chain }
/-- The step that a CRUN has in hand. -/
def Chain.stepOf (h : Chain) (c : Cmd) : ChainStep := ChainStep.ofWords ((h.prog[c.stepAt]?).getD (0, 0))
/-- R426: the step in progress is abandoned: the boundary is that of its input, and CURSOR counts what it pushed. -/
def Chain.abandon (h : Chain) : Chain :=
  match h.cmd with
  | some c =>
    if c.kind = 0x49 && h.begun then
      { h with
        cmd := some { c with cursor := c.stepAt + 65536 * if (h.stepOf c).push then max h.again h.formed.length else 0 }
        formed := []
        begun := false }
    else h
  | none => h
/-- R426: a step that is withheld as pre-emption or a yield reaches its task is abandoned. -/
def Chain.abandonWithheld (h : Chain) : Chain := if h.cmd.any fun c => c.notice.isSome then h.abandon else h
/-- A CRUN faults: its step is abandoned. -/
def State.chainFail (s : State) (ctx : Nat) (c : Cmd) (r : Reject) : State :=
  let h := ({ (s.slotAt ctx).chain with cmd := some c } : Chain).abandon
  (s.setChain ctx fun _ => h).engineFail ctx 1 (h.cmd.getD c) r
/-- R231: DETAIL of a CRUN. -/
def State.crunDone (s : State) (ctx : Nat) (c : Cmd) : Option State :=
  s.engineDone ctx 1 c (min 0xFFFFFFFF (s.slotAt ctx).chain.pushed) c.doneBit
/-- CRUN starts (R421, R424), with KEEP = 0 on the empty boundary, also where check 1 faults it; or it retires once its last step is over. -/
def State.crunRun (s : State) (ctx : Nat) (c : Cmd) : Option State :=
  if c.acted then if c.lastStep < c.stepAt then s.crunDone ctx c else none
  else
    let s := s.setChain ctx fun h => if c.keeps then h else { h with bnd := {} }
    match c.runBad with
    | some r => some (s.engineFail ctx 1 c r)
    | none =>
      let u := c.cursorW
      let c := { c with
        acted := true
        cursor := if u = 0 then c.firstStep else u % 32 + 65536 * bitsOf u 47 16 }
      some (s.setChain ctx fun h => { h with
        cmd := some c
        formed := []
        begun := false
        pushed := 0
        again := 0 })
/-- CRUN (R231). -/
def execCrun (s : State) : Res := .next (s.engineRun s.cur 1 0x49 fun t c => t.crunRun s.cur c)

/-! ### A step (R412, R423 to R426) -/

/-- R413: boundary overflow with NEED and STEP. -/
def Cmd.overflow (c : Cmd) (need step : Nat) : Reject :=
  let d := min need 0xFFFFFF * 256 + step % 32
  ⟨0x11, d, BitVec.ofNat 64 (c.seq % 65536 * 2 ^ 32 + d)⟩
/-- R423 gives a boundary of zero extent no shape for this step: a reserved mode, or a division by a dimension of zero (DEDUCED, log 86). -/
def ChainStep.shapeless (p : ChainStep) : Bool := p.mode == 3 || (p.mode != 0 && p.j == 0) || (p.mode == 2 && p.i == 0)
/-- R424 checks 2 to 5, at a step's start; a boundary of zero extent passes checks 2 and 3 (R427). -/
def Slot.stepBad (l : Slot) (c : Cmd) (p : ChainStep) : Option Reject :=
  let b := l.chain.bnd
  let n := c.stepAt
  let r := (l.regions[p.reg]?).getD {}
  let (k, a, t) := p.shape b.k b.t (c.bond p.bond)
  let zero := b.k == 0 || b.t == 0
  if (if zero then p.shapeless else p.bad) then some (c.chainBad n 0)
  else if !zero && !p.fits b.t then some (c.chainBad n 1)
  else if !(r.v && r.rd) then
    some ⟨0x0D, p.reg * 65536 + n % 32 * 256 + 0x0D, BitVec.ofNat 64 (p.reg * 2 ^ 48 + p.off)⟩
  else if l.pkt.chb * 1024 < 4 * (k * a * t) then some (c.overflow (k * a * t) n)
  else none
/-- R425: the factor of core element L: none in a block of zeros. -/
def State.coreScale (s : State) (ctx : Nat) (c : Cmd) (p : ChainStep) (count L : Nat) : Read :=
  match p.block with
  | none => .val 0
  | some n => s.laneRead ctx 1 c p.reg 8 ((p.off + count) * p.fmt.width / 8 + L / n : Nat)
/-- The sum of an element's terms, from acc on (R140, R423, R425). -/
def State.chainSum (s : State) (ctx : Nat) (c : Cmd) (p : ChainStep) (b : Boundary) (count : Nat) :
    Nat → List (Nat × Nat) → Read
  | acc, [] => .val acc
  | acc, (x, L) :: rest =>
    match s.coreScale ctx c p count L with
    | .halt t => .halt t
    | .bad r => .bad r
    | .val k =>
      if p.scl ≠ 0 ∧ k = 128 then s.chainSum ctx c p b count acc rest
      else
        match s.laneRead ctx 1 c p.reg p.fmt.width (p.off + L : Nat) with
        | .halt t => .halt t
        | .bad r => .bad r
        | .val g =>
          let md := c.chainMods
          let y := (Fmt.fp32.operand md.ftz ((b.elems[x]?).getD 0)).mul (p.fmt.operand md.ftz g)
          let sum := (Fmt.fp32.operand md.ftz acc).add md.rm (y.scale (if p.scl = 0 then 0 else toSigned 8 k))
          s.chainSum ctx c p b count (roundTo .fp32 md sum) rest
/-- The elements of a step form one after another, as far as they can; each is pushed unless it was pushed before (R421, R423). -/
def formStep (ctx : Nat) (p : ChainStep) (b : Boundary) (bond : Nat) : Nat → State → Cmd → State
  | 0, s, _ => s
  | fuel + 1, s, c =>
    let h := (s.slotAt ctx).chain
    let n := h.formed.length
    if p.push && decide (h.again ≤ n) && decide (chfDepth ≤ (s.slotAt ctx).core.chf.length) then s
    else
      match s.chainSum ctx c p b (b.a * p.i * p.j * bond) 0 (p.terms b.a b.t bond n) with
      | .halt (.stop t) => t
      | .halt _ => s
      | .bad r => s.chainFail ctx c r
      | .val v =>
        let (s, c) := s.laneResume ctx 1 c
        let push := p.push && decide (h.again ≤ n)
        let s := if push then s.setCoreAt ctx (fun r => { r with chf := r.chf ++ [BitVec.ofNat 64 v] }) else s
        let s := s.setChain ctx fun h => { h with
          cmd := some c
          formed := h.formed ++ [v]
          pushed := h.pushed + if push then 1 else 0 }
        formStep ctx p b bond fuel s c
/-- The new boundary replaces the old one, and the next step is in hand. -/
def Chain.endStep (h : Chain) (c : Cmd) (shape : Nat × Nat × Nat) : Chain :=
  { h with
    cmd := some { c with
      cursor := c.stepAt + 1
      notice := none }
    bnd := ⟨shape.1, shape.2.1, shape.2.2, h.formed⟩
    formed := []
    begun := false
    again := 0 }
/-- A step goes as far as it can; once it is over the next one is in hand, and after the last the CRUN retires. -/
def State.goStep (s : State) (ctx : Nat) (c : Cmd) (p : ChainStep) : State :=
  let h := (s.slotAt ctx).chain
  let bond := c.bond p.bond
  let shape := p.shape h.bnd.k h.bnd.t bond
  let n := shape.1 * shape.2.1 * shape.2.2
  let t := formStep ctx p h.bnd bond (n - h.formed.length) s c
  match (t.slotAt ctx).chain.cmd with
  | some c' =>
    if c'.st != .faulted && (t.slotAt ctx).chain.begun && n == (t.slotAt ctx).chain.formed.length then
      let u := t.setChain ctx (·.endStep c' shape)
      match (u.slotAt ctx).chain.cmd with
      | some c'' => if c''.lastStep < c''.stepAt then (u.crunDone ctx c'').getD u else u
      | none => u
    else t
  | none => t
/-- A step of a mode is checked and goes on (R424, R440); a reserved mode is found by whichever step comes. -/
def State.chainStep (s : State) (mode : Nat) : Res :=
  orStay s (
    let l := s.me
    match l.chain.cmd with
    | none => none
    | some c =>
      let p := l.chain.stepOf c
      let may := l.stage == .running || (l.stage == .gating && l.chain.begun)
      if c.kind ≠ 0x49 || !c.acted || c.st == .faulted || decide (c.lastStep < c.stepAt) || !may
          || !(p.mode == mode || p.mode == 3) then none
      else if l.chain.begun then some (s.goStep s.cur c p)
      else
        match l.stepBad c p with
        | some r => some (s.engineFail s.cur 1 { c with cursor := c.stepAt } r)
        | none =>
          let t := s.setChain s.cur fun h => { h with
            begun := true
            formed := []
            again := c.pushedAt }
          some (t.goStep s.cur c p))

/-- CHAIN_STEP_KEEP (R423). -/
def execChainStepKeep (s : State) : Res := s.chainStep 0
/-- CHAIN_STEP_SUM_INPUT (R412, R423). -/
def execChainStepSumInput (s : State) : Res := s.chainStep 1
/-- CHAIN_STEP_PAIR (R423). -/
def execChainStepPair (s : State) : Res := s.chainStep 2

/-! ### ORD, CSAV and CLOD (R230, R232, R411, R427) -/

/-- R230: the steps are copied from the arena. -/
def State.ordRun (s : State) (ctx : Nat) (c : Cmd) : Option State :=
  let a := c.aux1
  let first := bitsOf a 20 16
  let count := a % 64
  let off := c.aux0
  let base := (s.slotAt ctx).core
  if a / 2 ^ 21 ≠ 0 ∨ bitsOf a 15 6 ≠ 0 then some (s.engineFail ctx 1 c ⟨0x0F, 0x04 + 11 * 256, c.formatVal 0x04⟩)
  else if count = 0 ∨ 32 < count ∨ 32 < first + count then some (s.engineFail ctx 1 c (c.chainBad first 3))
  else if off % 16 ≠ 0 ∨ base.arenabound.toNat < off + 16 * count then some (s.engineFail ctx 1 c (c.chainBad first 5))
  else
    let word (o : Nat) : Word := BitVec.ofNat 64 (readNum (s.arenaByte ctx) o 8)
    (s.engineDone ctx 1 c 0 c.doneBit).map fun t => t.setChain ctx fun h => { h with
      prog := h.prog.take first ++ (List.range count).map (fun n => (word (off + 16 * n), word (off + 16 * n + 8)))
        ++ h.prog.drop (first + count) }
/-- ORD (R230). -/
def execOrd (s : State) : Res := .next (s.engineRun s.cur 1 0x48 fun t c => t.ordRun s.cur c)

/-- R411: the bytes of a boundary image. -/
def Boundary.image (b : Boundary) : List (BitVec 8) :=
  let bytes (n v : Nat) : List (BitVec 8) := (List.range n).map fun k => BitVec.ofNat 8 (v / 256 ^ k)
  bytes 8 (b.k % 2 ^ 32 + b.a % 65536 * 2 ^ 32) ++ bytes 8 (b.t % 2 ^ 32) ++ List.replicate 48 0 ++ b.elems.flatMap (bytes 4)
/-- R232, R428: the image is written, unless it leaves the share or reaches the journal. -/
def State.csavRun (s : State) (ctx : Nat) (c : Cmd) : Option State :=
  let l := s.slotAt ctx
  let bs := l.chain.bnd.image
  let off := c.aux0
  let as := (List.range bs.length).map (off + ·)
  if 524288 < off + bs.length || (l.core.jnl && as.any l.pkt.inJournal) then
    some (s.engineFail ctx 1 c (regionFault 16 0 off))
  else
    (s.engineDone ctx 1 c bs.length c.doneBit).map fun t => t.setSlot ctx fun l => { l with
      store := writeBytes l.store off bs
      badWords := clearBad l.badWords as }
/-- CSAV (R232). -/
def execCsav (s : State) : Res := .next (s.engineRun s.cur 1 0x4A fun t c => t.csavRun s.cur c)

/-- R232: the image is checked and becomes the boundary. -/
def State.clodRun (s : State) (ctx : Nat) (c : Cmd) : Option State :=
  let l := s.slotAt ctx
  let off := c.aux0
  let fail (r : Reject) : Option State := some (s.engineFail ctx 1 c r)
  if 524288 < off + 64 then fail (regionFault 16 0 off)
  else
    let w0 := l.viewLE off 8
    let w1 := l.viewLE (off + 8) 8
    let k := w0 % 2 ^ 32
    let a := bitsOf w0 47 32
    let t := w1 % 2 ^ 32
    let n := k * a * t
    if touchesBad l.badWords ((List.range 64).map (off + ·)) then fail (eccFault off)
    else if l.tileUnread then some (s.restartUnread ctx)
    else if w0 / 2 ^ 48 ≠ 0 || w1 / 2 ^ 32 != 0 || l.viewLE (off + 16) 48 != 0 || decide (a < 1) || decide (1024 < a) then
      fail (c.chainBad 0 4)
    else if l.pkt.chb * 1024 < 4 * n then fail (c.overflow n 0)
    else if 524288 < off + 64 + 4 * n then fail (regionFault 16 0 off)
    else if touchesBad l.badWords ((List.range (4 * n)).map (off + 64 + ·)) then fail (eccFault (off + 64))
    else
      (s.engineDone ctx 1 c (64 + 4 * n) c.doneBit).map fun u => u.setChain ctx fun h => { h with
        bnd := ⟨k, a, t, (List.range n).map fun m => l.viewLE (off + 64 + 4 * m) 4⟩ }
/-- CLOD (R232). -/
def execClod (s : State) : Res := .next (s.engineRun s.cur 1 0x4B fun t c => t.clodRun s.cur c)

end Sys2Proof.Machine
end

