-- ==== Sys2Proof/Machine/Homes.lean ====
section
/-! DEFINITION. What happens at the homes: read-modify-writes and round buffers, touches of granules, and wounds (spec/12 R307 to R310,
spec/17 R397 to R406). -/

namespace Sys2Proof.Machine

/-! ### Read-modify-writes (R307 to R309) -/

/-- R294, R109: the home of a location: a copy engine or memory tile, or a bank of tile store. -/
def Loc.home : Loc → Nat
  | .phys a => homeOf a
  | .tile ctx o => 4096 + 8 * ctx + o / 64 % 8
def Update.home (u : Update) : Nat := u.loc.home
/-- Updates of one command reach a home in the order in which they were sent (R346). -/
def State.firstUpdate (s : State) (k : Nat) (u : Update) : Bool :=
  (s.updates.take k).all fun x => !(x.ctx == u.ctx && x.seq == u.seq && x.home == u.home)
/-- R308: the earlier updates of a buffer. -/
def State.bufferOf (s : State) (ctx r : Nat) : List Update := s.buffers.filter fun u => u.ctx == ctx && u.round == some r
/-- R308: the state as the region sees it through a buffer. -/
def State.regionView (s : State) (ctx r : Nat) : State := (s.bufferOf ctx r).foldl State.applyRmw s
/-- R308: the distinct words in the open buffers of a region at a home. -/
def State.bufferWords (s : State) (ctx home : Nat) : List Loc :=
  ((s.buffers.filter fun u => u.ctx == ctx && u.home == home).map Update.word).eraseDups
def State.bufferFull (s : State) (u : Update) : Bool :=
  let ws := s.bufferWords u.ctx u.home
  !ws.contains u.word && decide (4096 ≤ ws.length)
/-- The command of an update has one less on its way, and gets the old value if it wants it. -/
def State.updateDone (s : State) (u : Update) (old : Nat) : State :=
  s.setEng u.ctx (·.update u.seq fun c => { c with
    updates := c.updates - 1
    returns := if u.wantOld then c.returns ++ [(u.ord, some old)] else c.returns })
/-- R335: the fault of an update at an uncorrectable word. -/
def Update.fault (u : Update) : Reject :=
  match u.loc with
  | .phys _ => eccFault (u.region * 2 ^ 48 + u.elem % 2 ^ 48)
  | .tile _ o => eccFault o
/-- The command of an update faults, if it is still in flight. -/
def State.updateFails (s : State) (u : Update) (r : Cmd → Reject) : State :=
  match s.cmdAt u.ctx u.seq with
  | some c => if c.st = .faulted then s else s.failCmd u.ctx c (r c)
  | none => s
/-- An update is recorded in its round buffer, or applied (R308, R309). -/
def State.homeApply (s : State) (u : Update) : State :=
  match u.round with
  | some r =>
    if r < (s.slotAt u.ctx).quad.cuts then (s.applyRmw u).updateDone u (s.readLoc u)
    else
      ({ s with buffers := s.buffers ++ [u] } : State).updateDone u ((s.regionView u.ctx r).readLoc u)
  | none => (s.applyRmw u).updateDone u (s.readLoc u)
/-- R335, R308: an update reaches its home: it faults its command, or it is recorded or applied. -/
def State.updateArrives (s : State) (u : Update) : State :=
  if s.badLoc u then s.updateFails u fun _ => u.fault
  else if u.round.isSome && s.bufferFull u then s.updateFails u fun c => ⟨0x0F, 0x11, c.formatVal 0x11⟩
  else s.homeApply u
/-- The updates that a slot has on their way reach their homes, in the order in which they were sent. -/
def State.landUpdates (s : State) (ctx : Nat) : State :=
  (s.updates.filter fun u => u.ctx == ctx).foldl State.updateArrives
    { s with updates := s.updates.filter fun u => u.ctx != ctx }
/-- HOME_RMW_APPLY (R307 to R309, R335): update k on its way reaches its home. -/
def execHomeRmwApply (k : Nat) (s : State) : Res :=
  orStay s (
    match s.updates[k]? with
    | none => none
    | some u =>
      if !s.firstUpdate k u then none
      else some (({ s with updates := ldel k s.updates } : State).updateArrives u))

/-! ### Round buffers (R308) -/

/-- R308 item 4: the delayed acts of one command are given, if its buffers are applied; its records leave once `sts` has room. -/
def State.giveDelayed (s : State) (ctx : Nat) (c : Cmd) : State :=
  if s.buffered ctx c.seq || (!c.fin && (s.slotAt ctx).core.countedNow (s.acStart ctx) c.signalMask) then s
  else
    let s := if c.fin then s else s.giveActs ctx c
    if stsDepth < (s.slotAt ctx).core.sts.length + c.records.length then
      s.setEng ctx fun e => { e with delayed := e.delayed.map fun x => if x.seq = c.seq then { x with fin := true } else x }
    else (s.setEng ctx fun e => { e with delayed := e.delayed.filter fun x => x.seq != c.seq }).postRecords ctx c
def State.giveAllDelayed (s : State) (ctx : Nat) : State :=
  (s.slotAt ctx).eng.delayed.foldl (fun s c => s.giveDelayed ctx c) s
/-- R335: the command of a buffered update faults, one that has retired too, whose acts R308 delays. -/
def State.bufferFails (s : State) (u : Update) : State :=
  match (s.slotAt u.ctx).eng.delayed.find? fun c => c.seq == u.seq with
  | some c =>
    (s.setEng u.ctx fun e => { e with
      flying := e.flying ++ [c]
      delayed := e.delayed.filter fun x => x.seq != u.seq }).updateFails u fun _ => u.fault
  | none => s.updateFails u fun _ => u.fault
/-- R308, R335: the buffers of the completed rounds of a region are applied. -/
def State.applyRounds (s : State) (ctx : Nat) (done : Option Nat → Bool) : State :=
  let lost := s.buffers.filter fun u => u.ctx == ctx && done u.round && s.badLoc u
  (lost.foldl State.bufferFails s).applyBuffers ctx done
/-- R278: the homes know of the last complete cut; the next one is counted if it is complete by now. -/
def Slot.tellCut (l : Slot) (ctx now : Nat) : Slot := l.cutTo ctx { l.quad.settle now with cutTold := true } now
/-- ROUND_BUFFER_APPLY (R278, R308): the completed rounds of the region are applied at the homes. -/
def execRoundBufferApply (s : State) : Res :=
  let q := s.me.quad
  let t := if q.cutTold then s else
    (s.applyRounds s.cur fun r => match r with | some r => decide (r < q.cuts) | none => false).setMe (·.tellCut s.cur (s.acOf s.cur))
  .next (t.giveAllDelayed s.cur)

/-! ### Granules (R397, R398) -/

/-- R397: lock entries of a home. -/
def lockEntries : Nat := 8192
/-- The locks with one entry changed. -/
def modLock (ls : List Lock) (addr log2g : Nat) (f : Lock → Lock) : List Lock :=
  ls.map fun l => if l.addr == addr && l.log2g == log2g then f l else l
/-- R398, R405: a task has been wounded: a wound for it is on its way or held. -/
def State.isWounded (s : State) (age : Word) : Bool := s.wounds.any fun w => w.age == age
/-- The count at which the ac of an address's lock home began (R468). -/
def State.lockAc (s : State) (addr : Nat) : Nat := s.dieAc (dieOf (homeNode (homeOf addr)))
/-- R398: how the home decides a touch; none where it waits for a free entry, and where an older task's touch comes in the ac in which a
younger one acquired the free granule, which it then counts as coming after (R409). -/
def State.touch (s : State) (t : Touch) : Option State :=
  match s.lockAt t.addr t.log2g with
  | none =>
    if lockEntries ≤ (s.locks.filter fun l => homeOf l.addr == homeOf t.addr).length then none
    else some { s with locks := s.locks ++
      [{ addr := t.addr, log2g := t.log2g, holder := some (t.age, t.ctx), since := s.stc }] }
  | some l =>
    match l.holder with
    | none =>
      some { s with locks := modLock s.locks t.addr t.log2g fun l => { l with
        holder := some (t.age, t.ctx)
        since := s.stc } }
    | some (age, ctx) =>
      if age = t.age then some s
      else if older t.age age && decide (s.lockAc t.addr ≤ l.since) then none
      else
        let wounds := older t.age age && !l.commit && !s.isWounded age
        some { s with
          locks := modLock s.locks t.addr t.log2g fun l => { l with
            wounded := l.wounded || (older t.age age && !l.commit)
            waiters := l.waiters ++ [⟨t.age, t.ctx, t.seq⟩] }
          wounds := if wounds then s.wounds ++ [{ ctx := ctx, age := age, source := t.age, at' := s.stc }] else s.wounds }
/-- GRANULE_TOUCH (R398): touch k on its way reaches the lock home. -/
def execGranuleTouch (k : Nat) (s : State) : Res :=
  orStay s (
    match s.touches[k]? with
    | none => none
    | some t =>
      let u := { s with touches := ldel k s.touches }
      if (s.slotAt t.ctx).task.isSome && (s.slotAt t.ctx).age == t.age then u.touch t else some u)

/-! ### Wounds (R405, R406) -/

/-- The slot on which the task of an age runs. -/
def State.slotOf (s : State) (age : Word) : Option Nat :=
  (s.slots.find? fun (_, l) => l.runs && l.age == age).map (·.1)
/-- R113, R120: the slot whose heads may raise a synchronous trap ahead of an event: that of a pending cause, or of a wound's task. -/
def State.trapSlot (s : State) (e : Instr) : Option Nat :=
  match e with
  | .trapEntry => some s.cur
  | .wound k => (s.wounds[k]?).bind fun w => s.slotOf w.age
  | _ => none
/-- The die at which the task of an age waits, with its entry. -/
def State.waitingOf (s : State) (age : Word) : Option (Nat × Waiting) :=
  (numbered 0 s.dies).findSome? fun (d, x) =>
    (x.queues.flatten.find? fun w => w.task.age == age).map fun w => (d, w)
/-- R118: a wound is held at its slot until TRET. -/
def Wound.held (w : Wound) (ctx : Nat) : Wound :=
  { w with
    arrived := true
    ctx := ctx }
/-- R405: the wound is taken by a saved task. -/
def State.woundSaved (s : State) (d : Nat) (w : Waiting) (source : Word) : State :=
  let s := s.loseTask w.task.age
  let s := { s with held := s.held.filter fun (a, _) => a != w.task.age }
  s.setDie d fun x => (x.forget w.task.age).putTask true { task := w.task.restarted source, left := w.left, since := s.stc }
/-- WOUND (R405, R118): wound k reaches its task; one in supervisor mode takes it after TRET, a drained one once it is saved. In
the ac in which it was made COMMIT can still win (R409). -/
def execWound (k : Nat) (s : State) : Res :=
  orStay s (
    match s.wounds[k]? with
    | none => none
    | some w =>
      let gone := { s with wounds := ldel k s.wounds }
      match s.slotOf w.age with
      | some ctx =>
        let c := (s.slotAt ctx).core
        if s.acStart ctx ≤ w.at' then none
        else if c.commit then some gone
        else if c.sup then
          if w.arrived then none
          else some (({ s with wounds := lmod k (·.held ctx) s.wounds } : State).setCoreAt ctx fun c => { c with woundHeld := true })
        else some (gone.restartTask ctx w.source)
      | none =>
        match s.waitingOf w.age with
        | some (d, x) => some (if x.saved.isSome then gone.woundSaved d x w.source else gone)
        | none => if s.dies.any fun d => d.drained.any fun x => x.task.age == w.age then none else some gone)

end Sys2Proof.Machine
end

