-- ==== Sys2Proof/Machine/Rollback.lean ====
section
/-! DEFINITION. The rollback of a sward region to its last complete cut (spec/13 R336 to R338, spec/17 R408). -/

namespace Sys2Proof.Machine

/-- R278, R336: where a command stands in the last complete cut, with the tokens that an SREC held; before it bound there, and in the
cut at CFG, at the CURSOR with which it first bound. -/
def Quad.cutAt (q : Quad) (c : Cmd) : Nat × List (Nat × Tok) :=
  match q.lastCut.bind fun k => k.entries.find? fun e => e.seq == c.seq with
  | some e => (e.cursor, e.held)
  | none =>
    (if c.kind = 5 then c.bound0
     else if c.filtFn = 2 then c.bound0 % 2 ^ 48 * 8 / c.dstFmt.width
     else c.bound0 % 2 ^ 48, [])
/-- What a command holds between its source and its destination is dropped. -/
def Cmd.emptied (c : Cmd) : Cmd :=
  { c with
    st := if c.started then .running else c.st
    notice := none
    waitGranule := none
    pack := []
    unpack := []
    run := []
    ready := []
    tileFrom := none
    tilePrev := none
    tileBits := (0, 0)
    inBits := (0, 0) }
/-- R341: the first ordinal that an SMC has still to send the ports of other slots, as its delivery of that token is counted. -/
def Cmd.smcReached (c : Cmd) : Nat :=
  if c.kind = 7 then max c.skipTo (c.cursor - c.pack.length + bitIf (c.lemSent && c.count == 0) 0) else c.skipTo
/-- R338 item 4: a command that feeds an input port restarts at an ordinal; a ZRD one reads its source from the first tile again, and one
whose runs are gathered from a windrow from the first element of its run (R351). Of an SATM that feeds it by its return endpoint, so do the
old values. An SMC sends the ports of other slots no token again (R341). -/
def Cmd.refeed (c : Cmd) (n : Nat) : Cmd :=
  let c := { c.emptied with
    skipTo := c.smcReached
    lemSent := c.lemSent && decide (c.outTotal ≤ n)
    updates := 0
    returns := []
    retNext := n
    retPack := []
    retLem := c.retLem && decide (c.outTotal ≤ n) }
  if c.kind = 0x10 then
    { c with
      lemSent := decide (1 ≤ n)
      told := c.told || c.fin
      fin := decide (1 ≤ n) }
  else if c.filtFn = 2 then
    { c with
      cursor := c.bound0 % 2 ^ 48
      outn := c.bound0 % 2 ^ 48 * 8 / c.dstFmt.width
      skipTo := n
      raw := c.raw.set 12 (BitVec.ofNat 64 c.tile0) }
  else if c.filtFn = 3 ∧ 1 < epType c.ep0 then
    { c with
      cursor := max (c.bound0 % 2 ^ 48) (n / (c.rows * c.cols) * (c.rows * c.cols))
      skipTo := n }
  else { c with cursor := n }
/-- R338 item 5: a command that takes from an output port restarts at an ordinal; what it delivered to anything but memory is not
delivered again. -/
def Cmd.retake (c : Cmd) (n : Nat) : Cmd :=
  let given := if c.kind = 0x0A then c.retNext - c.retPack.length else c.outNext - c.pack.length
  { c.emptied with
    cursor := n
    skipTo := max c.skipTo given
    updates := 0
    returns := []
    retNext := n
    retPack := [] }
/-- R338 items 2 and 5: an SREC restarts at a CURSOR with the tokens that the cut holds; tokens that left for a FIFO or a windrow
do not leave again. -/
def Cmd.reloop (c : Cmd) (n : Nat) (held : List (Nat × Tok)) : Cmd :=
  let first := match c.held with | (k, _) :: _ => k | [] => c.cursor
  let lanes := if epCpl c.ep0 then 1 else c.srcFmt.lanes
  { c.emptied with
    cursor := n % 2 ^ 48
    sent := n / 2 ^ 48 % 16
    held := held
    loop := []
    skipTo := max c.skipTo first
    outn := if c.unpack.isEmpty then c.outn else lanes - c.unpack.length
    lemSent := false }
/-- R338 items 4 to 6: a bound or kept command after a rollback. -/
def Cmd.rolled (c : Cmd) (q : Quad) : Cmd :=
  let (n, held) := q.cutAt c
  if c.st == .faulted || !c.started then c
  else if c.kind = 5 then c.reloop n held
  else if epType c.ep0 = 2 then c.retake n
  else c.refeed n
/-- R178: the whole slots of a windrow that a command has consumed: a retired one's last slot too. -/
def Cmd.drawnSlots (c : Cmd) (w : Windrow) (kept : Bool) : Nat :=
  (c.drawn + if kept then 8 * w.size - 1 else 0) / (8 * w.size)
/-- R338, R341: a windrow that feeds a region goes back to where the first of the commands that draw from it starts again: n slots before RP,
and some bits on (DEDUCED, log 109). -/
def Windrow.back (w : Windrow) (n bits : Nat) : Windrow :=
  let m := n - bits / (8 * w.size)
  let filled := min w.count (w.filled + m)
  { w with
    rp := (w.rp + m * (w.count - 1)) % w.count
    filled := filled
    free := w.count - filled
    rbits := bits % (8 * w.size) }
/-- R338: windrow id of a slot as its kept and flying commands draw from it again. -/
def Slot.rewound (l : Slot) (id : Nat) : Core :=
  let draws (c : Cmd) : Bool := c.started && c.st != .faulted && epType c.ep0 == 5 && epFifo c.ep0 == id
    && (epType c.ep1 == 2 || (c.kind == 0x0A && epType c.ep2 == 2))
  let kept := l.eng.kept.filter draws
  let flying := l.eng.flying.filter draws
  match l.core.windrow id, kept ++ flying with
  | some w, c :: _ =>
    if w.size = 0 then l.core
    else
      let n := ((kept.map fun x => x.drawnSlots w true) ++ flying.map fun x => x.drawnSlots w false).sum
      l.core.setWindrow id (w.back n (c.rolled l.quad).drawn)
  | _, _ => l.core
/-- R408: the first ORD that a replayed command appends again: its CURSOR, or for an SREC the first element of the first token that it sends
to its AUX1 endpoint again. -/
def Cmd.replayOrd (c : Cmd) : Nat :=
  if c.kind = 5 then
    let first := match c.held with | (k, _) :: _ => k | [] => c.cursor
    (first - c.count) * if epCpl c.ep0 then 1 else c.srcFmt.lanes
  else c.outNext
/-- R408: the journal without the entries of replayed commands from their restored CURSOR on. -/
def Slot.cutJournal (l : Slot) (cs : List Cmd) : Slot :=
  if !l.core.jnl then l
  else
    let dead (e : Entry) : Bool := !e.enc && cs.any fun c => c.seq == e.seq && decide (c.replayOrd ≤ e.ord)
    if l.journal.any dead then l.setJournal (l.journal.filter fun e => !dead e) else l
/-- R338: the region, and the commands that its ports bind; kept commands re-enter flight ahead of the others, and those whose acts
were delayed give them again. -/
def Slot.rollback (l : Slot) (ctx now : Nat) : Slot :=
  let q := l.quad.rollback ctx now
  let core := (List.range 16).foldl (fun c id => ({ l with core := c } : Slot).rewound id) l.core
  let late (c : Cmd) : Bool := l.eng.delayed.any fun d => d.seq == c.seq && !d.fin
  let kept := l.eng.kept.map fun c => { c.rolled l.quad with
    st := .running
    told := c.told && !late c
    acted := !late c }
  let flying := l.eng.flying.map fun c => if c.onPort ctx then c.rolled l.quad else c
  let back := kept ++ flying.filter fun c => c.onPort ctx && c.started
  { l with
    quad := q
    core := core
    eng := { l.eng with
      flying := kept ++ flying
      kept := []
      delayed := l.eng.delayed.filter fun d => d.fin || !l.eng.kept.any fun c => c.seq == d.seq } }.cutJournal back
/-- R338: a rollback of the region of a slot: its open round buffers, and its updates on their way to them, are discarded. -/
def State.rollback (s : State) (ctx : Nat) : State :=
  let ports := (s.slotAt ctx).eng.flying.filter fun c => c.onPort ctx
  let s := ports.foldl (fun s c => s.withdrawCmd ctx c.seq) s
  let cuts := (s.slotAt ctx).quad.cuts
  let again (u : Update) : Bool := ports.any fun c => c.seq == u.seq && epType c.ep0 != 2
  let open' (u : Update) : Bool := u.ctx == ctx && match u.round with
    | some r => decide (cuts ≤ r)
    | none => again u
  let s := { s with
    remotes := s.remotes.filter fun r =>
      !(r.src == ctx && r.dst == ctx && ports.any fun c => c.kind == 0x10 && c.seq == r.seq && epType c.ep1 == 2)
    updates := s.updates.filter fun u => !open' u
    buffers := s.buffers.filter fun u => !open' u }
  s.setSlot ctx fun l => l.rollback ctx (s.acOf ctx)

end Sys2Proof.Machine
end

