-- ==== Sys2Proof/Machine/Sync.lean ====
section
/-! DEFINITION. The events of Y words that wait, and of barriers: a wait is met, a packet is reserved and placed, an arrival is applied
at its home (spec/08 R239 to R255, spec/14 R357, spec/16 R384). -/

namespace Sys2Proof.Machine

/-- A word that waits completes only where its head could issue (R113, R392). -/
def State.yReady (s : State) : Bool := s.me.stage == .running && !s.userHold && !s.offBeat s.cur
/-- The Y word that waits has completed. -/
def State.finishY (s : State) : State := (s.setCore fun c => { c with ywait := none }).finishX .y 1

/-- EVWAIT_COMPLETE (R239): the count is taken. -/
def execEvwaitComplete (s : State) : Res :=
  orStay s (
    match s.core.ywait with
    | some (.event e n) =>
      if s.yReady && decide (n ≤ (s.core.ereg[e]).toNat) then
        some (s.setCore fun c => { c.setEvent e (s.core.ereg[e] - BitVec.ofNat 16 n) with evTake := aset e.val (s.acStart s.cur) c.evTake }).finishY
      else none
    | _ => none)

/-- R244: the phase that a BARW waits for has come, or the barrier is poisoned. -/
def Barrier.passed (b : Barrier) (q : Nat) : Bool :=
  let d := (b.phase + 2 ^ 16 - q % 2 ^ 16) % 2 ^ 16
  b.poison || (decide (1 ≤ d) && decide (d ≤ 32767))

/-- BARW_COMPLETE (R244): with CHK = 1 an answer is posted, once `sts` has room (R237). -/
def execBarwComplete (s : State) : Res :=
  orStay s (
    match s.core.ywait with
    | some (.barrier ref q chk) =>
      let b := (s.refBarrier s.cur ref).seen (s.refAc s.cur ref)
      if s.yReady && b.passed q && (!chk || s.core.stsRoom) then
        some (if chk then s.setCore (·.postSts (barrierAnswer b)) else s).finishY
      else none
    | _ => none)

/-- STAMP_COMPLETE (R255). -/
def execStampComplete (s : State) : Res :=
  orStay s (
    match s.core.ywait with
    | some (.stamp t _) =>
      if s.yReady && decide (t ≤ s.stc) then some (s.setCore fun c => { c with restamp := false }).finishY else none
    | _ => none)

/-! ### Enqueue queues (R250, R357, R384) -/

/-- The fields of a destination word. -/
def destPkg (w : Word) : Nat := bitsOf w.toNat 59 50
def destOwn (w : Word) : Bool := w.getLsbD 49
def destQueue (w : Word) : Nat := w.toNat % 65536
/-- R357: places of a queue that are reserved for packets still to come: of the slots of this package, and on their way from another. -/
def State.reservations (s : State) (q : Nat) : Nat :=
  (s.slots.filter fun (_, l) => match l.core.ywait with
    | some (.enqueue _ dest _ true) => (destOwn dest || destPkg dest == s.pkgId) && destQueue dest == q
    | _ => false).length
    + (s.enqs.filter fun e => e.spawn.isNone && e.queue == q).length
/-- R384: the queue takes packets of a sender. -/
def State.queueOpen (s : State) (q : Nat) (pod : Bool) : Bool :=
  let a := (aget ({} : EnqQueue) q s.enqQueues).accept
  decide (256 ≤ q) && decide (q < 512) && (a == 2 || (a == 1 && !pod))
/-- R384, R357: what a queue of this package answers a packet: 0 accepted, 1 full, 2 absent or not permitted. -/
def State.queueAnswer (s : State) (q : Nat) (pod : Bool) : Nat :=
  if !s.queueOpen q pod then 2
  else if 64 ≤ (aget ({} : EnqQueue) q s.enqQueues).packets.length + s.reservations q then 1
  else 0
/-- A packet stands in its queue. -/
def State.intoQueue (s : State) (e : Enq) : State :=
  { s with enqQueues := amod {} e.queue (fun q : EnqQueue => { q with packets := q.packets ++ [e] }) s.enqQueues }
/-- The answer that a TENQ gets as it asks for a reservation; that of another package is not stated beyond its three values. -/
def State.reserveAnswer (s : State) (ctx : Nat) (dest : Word) : Nat :=
  if destOwn dest || destPkg dest == s.pkgId then s.queueAnswer (destQueue dest) false
  else if s.reaches (destPkg dest) && s.stationsUp ctx then Config.freeNat s.draws % 3
  else 3
/-- The TENQ of the current slot completes with a result. -/
def State.tenqDone (s : State) (ack : Bool) (result : Nat) : Option State :=
  if !ack then some s.finishY
  else if !s.core.stsRoom then none
  else
    let (k, c) := s.core.takeAck true
    some ((s.setCore fun _ => c).setCore (·.postSts (ackAnswer result (k.getD 0)))).finishY
/-- TENQ_PLACED (R250, R357, R361): a place is reserved, or the packet refused; then the packet is read and placed. -/
def execTenqPlaced (s : State) : Res :=
  orStay s (
    match s.core.ywait with
    | some (.enqueue o dest ack reserved) =>
      if !s.yReady then none
      else if !reserved then
        let a := s.reserveAnswer s.cur dest
        let t := { s with draws := s.draws + 1 }
        if a = 0 then some (t.setCore fun c => { c with ywait := some (.enqueue o dest ack true) }) else t.tenqDone ack a
      else
        let ws := s.me.packet o
        if destOwn dest || destPkg dest == s.pkgId then
          (s.tenqDone ack 0).map fun t => t.intoQueue ⟨ws, destQueue dest, none, false, none⟩
        else if !s.reaches (destPkg dest) || !s.stationsUp s.cur then s.tenqDone ack 3
        else (s.tenqDone ack 0).map fun t =>
          { t with sent := t.sent ++ [.packet (destPkg dest) ⟨ws, destQueue dest, none, false, none⟩] }
    | _ => none)

/-! ### Barrier homes (R242) -/

/-- BARRIER_ARRIVAL (R242): arrival k on its way is applied at the home. -/
def execBarrierArrival (k : Nat) (s : State) : Res :=
  orStay s ((s.arrivals[k]?).map fun a =>
    { s with arrivals := ldel k s.arrivals }.modBarrier a.epoch a.scope a.place a.bid (·.arriveIn (s.barrierAc a.scope a.place) a.weight))

end Sys2Proof.Machine
end

