-- ==== Sys2Proof/Machine/TaskEnd.lean ====
section
/-! DEFINITION. TEND and TYLD: what they wait for, the commit of a journal, and the deferred acts (spec/08 R247 to R249, R254, spec/17
R404, spec/12 R308, R310). -/

namespace Sys2Proof.Machine

/-! ### Commands that can progress only through one that has faulted (R248) -/

/-- The commands of a slot that have not ended, each with its engine: 0 stream, 1 array and chain, 2 encode. -/
def Slot.openCmds (l : Slot) : List (Nat × Cmd) :=
  (l.eng.queue ++ l.eng.flying).map (fun c => (0, c))
    ++ (l.queueA ++ l.array.toList ++ l.chain.cmd.toList).map (fun c => (1, c))
    ++ (l.queueE ++ l.channels.filterMap (·.cmd)).map fun c => (2, c)
/-- R161: the commands that have faulted and been reported, each with its engine. -/
def StreamEng.faulted (e : StreamEng) : List (Nat × Cmd) := e.failed.map fun c => (if c.kind < 0x40 then 0 else if c.kind < 0x80 then 1 else 2, c)
/-- Every event that a command waits for holds a count, or one of some commands signals it. -/
def Core.eventsCome (k : Core) (able : List (Nat × Cmd)) (c : Cmd) : Bool :=
  c.waited || (List.range 32).all fun e =>
    !c.waitMask.testBit e || k.ereg[Fin.ofNat 32 e] != 0 || able.any fun (_, x) => x.signalMask.testBit e
/-- The windrows of a command hold what it reads and have a place for what it writes, or one of some commands brings it. -/
def Core.windrowsCome (k : Core) (able : List (Nat × Cmd)) (c : Cmd) : Bool :=
  let out (x : Cmd) (id : Nat) : Bool := x.ends.any fun (e, src) => !src && epType e == 5 && epFifo e == id
  let inn (x : Cmd) (id : Nat) : Bool := epType x.ep0 == 5 && epFifo x.ep0 == id
  decide (0x40 ≤ c.kind) || (List.range 16).all fun id =>
    match k.windrow id with
    | some w => !((inn c id && w.filled == 0 && !able.any fun (_, x) => out x id) || (out c id && w.free == 0 && !able.any fun (_, x) => inn x id))
    | none => true
/-- It stands at a port of the region with nothing to take or no place to send. -/
def Slot.portIdle (l : Slot) (c : Cmd) : Bool :=
  c.started && c.st == .running
    && ((epType c.ep0 == 2 && (l.quad.outPort (epPort c.ep0)).isEmpty)
      || (epType c.ep1 == 2 && !l.quad.portRoom (epPort c.ep1)))
/-- An MRK that has started stands at a port without a place. -/
def Slot.markIdle (l : Slot) (c : Cmd) : Bool :=
  c.kind == 0x44 && c.started && (List.range 48).any fun p =>
    (if c.acted then c.cursor else c.aux0).testBit p && l.quad.mapsIn p
      && decide (8 ≤ (l.quad.port p).q.length + (l.quad.port p).incoming.length)
/-- A DRN that has started waits for a run or a step that stands still (R225). -/
def Slot.drainIdle (l : Slot) (c : Cmd) : Bool := c.kind == 0x42 && c.started && l.quad.st == .draining && !l.quad.stepsDone
/-- What a command of a slot waits for is there, or one of some commands, in that they are able to go on, brings it: a count of an event, a
place or contents of a windrow, a side, an earlier write, an index, a tapped command, a move of a region at rest (rest), an in-flight slot, or
its lane. -/
def Slot.canGo (l : Slot) (ctx : Nat) (rest : Bool) (able : List (Nat × Cmd)) (n : Nat) (c : Cmd) : Bool :=
  let others := able.filter fun (m, x) => !(m == n && x.seq == c.seq)
  let ableS (seq : Nat) : Bool := others.any fun (m, x) => m == 0 && x.seq == seq
  let before := l.eng.flying.takeWhile fun x => x.seq != c.seq
  let moved := !rest || others.any fun (m, x) => m == 0 && x.onPort ctx
  let link (f : Nat → Bool) : Bool := match c.link with | some k => f k | none => true
  c.st != .faulted && l.core.eventsCome others c && l.core.windrowsCome others c
    && (n != 0
      || ((c.started || before.all fun x => ableS x.seq || !(x.sides ctx).any fun d => (c.sides ctx).contains d)
        && (c.kind != 0x0C || c.fin
          || ((before.all fun x => !x.writes || ableS x.seq)
            && l.eng.failed.all fun x => !x.writes || !leftBefore x.seq c.seq || ableS x.seq))
        && (!([3, 4, 8].contains c.kind) || (match l.index c c.cursor with | .later => link ableS | _ => true))
        && (c.kind != 0x0D || c.fin || link fun k => ableS k || !((l.eng.queue ++ l.eng.flying ++ l.eng.failed).any fun x => decide (x.kind < 0x40) && x.seq == k))
        && (!l.portIdle c || moved)
        && (decide (l.eng.flying.length < 256) || !(l.eng.queue.any fun x => x.seq == c.seq) || l.eng.flying.any fun x => ableS x.seq)))
    && (n == 0
      || ((!(l.markIdle c || l.drainIdle c) || moved)
        && (c.started || (match c.lane with
          | some k => (match l.lane k with
            | some x => x.seq == c.seq || others.any fun (m, y) => m == n && y.seq == x.seq
            | none => true)
          | none => true))))
/-- The commands of a list that can go on, with those that are taken to be able, in some rounds. -/
def Slot.ableIn (l : Slot) (ctx : Nat) (rest : Bool) (cs : List (Nat × Cmd)) : Nat → List (Nat × Cmd) → List (Nat × Cmd)
  | 0, able => able
  | k + 1, able =>
    Slot.ableIn l ctx rest cs k (able ++ cs.filter fun (n, c) =>
      !(able.any fun (m, x) => m == n && x.seq == c.seq) && l.canGo ctx rest able n c)
/-- R248: every command has retired, has faulted and been reported, or can progress only through one that has: it could if those that have
faulted went on, and cannot without them. -/
def State.commandsOver (s : State) (ctx : Nat) : Bool :=
  let q := s.quadNow ctx
  let l := { s.slotAt ctx with quad := q }
  let cs := l.openCmds
  if cs.isEmpty then true
  else if l.eng.failed.isEmpty then false
  else
    let rest := !q.frozen && q.resting (s.acOf ctx)
    let has (able : List (Nat × Cmd)) (x : Nat × Cmd) : Bool := able.any fun (m, y) => m == x.1 && y.seq == x.2.seq
    let alone := l.ableIn ctx rest cs cs.length []
    let helped := l.ableIn ctx rest cs cs.length l.eng.faulted
    cs.all fun x => !has alone x && has helped x

/-! ### Commit (R404) -/

/-- R366, R405: the task has been wounded before this ac: its commit can no longer begin. A wound made in this ac gives way (R409). -/
def State.woundedBefore (s : State) (ctx : Nat) : Bool :=
  s.wounds.any fun w => w.age == (s.slotAt ctx).age && decide (w.at' < s.acStart ctx)
/-- R404 item 1: COMMIT, at the core and at every granule that the task holds. -/
def State.setCommit (s : State) (ctx : Nat) : State :=
  let age := (s.slotAt ctx).age
  { s.setCoreAt ctx fun c => { c with
      commit := true
      woundHeld := false } with
    wounds := s.wounds.filter fun w => w.age != age
    locks := s.locks.map fun l => if (l.holder.map (·.1)) = some age then { l with
      commit := true
      wounded := false } else l }
/-- The update of memory by a journal entry: a read-modify-write at an uncorrectable word is not applied (R335, DEDUCED, log 31). -/
def State.commitAt (s : State) (ctx : Nat) (e : Entry) (as : List Nat) : State :=
  let w := ((Fmt.ofEfmt e.efmt).getD .octet).width
  let bit := elemBit w e.elem
  let lost := e.op != 0 && touchesBad s.badWords as
  let s := if lost then s else s.writePhys as bit w (e.apply (s.readPhys as bit w))
  s.setSlot ctx fun l => { l with
    applied := l.applied + 1
    missed := l.missed || lost
    commitNotice := none }
/-- The update of tile store by a journal entry (R171, R402). -/
def State.commitTile (s : State) (ctx : Nat) (e : Entry) : State :=
  let lost := touchesBad (s.slotAt ctx).badWords (shareBytes ((Fmt.ofEfmt e.efmt).getD .octet).width e.elem)
  s.setSlot ctx fun l => { l with
    store := if lost then l.store else e.applyTile l.store
    applied := l.applied + 1
    missed := l.missed || lost }
/-- An entry is passed over: the task ends with code 0x07. -/
def State.commitMiss (s : State) (ctx : Nat) : State :=
  s.setSlot ctx fun l => { l with
    applied := l.applied + 1
    missed := true
    commitNotice := none }
/-- R404 item 3: the next entry is applied, withheld, or passed over. -/
def State.commitNext (s : State) (ctx : Nat) : State :=
  let l := s.slotAt ctx
  let e := l.journalEntry l.applied
  let w := ((Fmt.ofEfmt e.efmt).getD .octet).width
  if e.tile then s.commitTile ctx e
  else
  match ((l.regions[e.region]?).getD {}).place true w e.elem with
  | .at as => s.commitAt ctx e as
  | .absent =>
    if l.commitNotice.isSome then s
    else
      ({ s with notices := s.notices ++ [(⟨l.age, 6, l.applied⟩ : NoticeMsg)] } : State).setSlot ctx fun l => { l with
        commitNotice := some ⟨e.region, e.elem, w, false, s.acOf ctx⟩ }
  | _ => s.commitMiss ctx

/-! ### Deferred acts (R254) -/

/-- R357: a deferred packet is sent if a place for it is granted; nothing is reported of one that is refused, since the slot's `sts` is
gone (R248). -/
def State.sendDeferred (s : State) (ctx : Nat) (ws : List Word) (dest : Word) : State :=
  let a := s.reserveAnswer ctx dest
  let e : Enq := ⟨ws, destQueue dest, none, false, none⟩
  if destOwn dest || destPkg dest == s.pkgId then if a = 0 then s.intoQueue e else s
  else
    let t := { s with draws := s.draws + 1 }
    if a = 0 then { t with sent := t.sent ++ [.packet (destPkg dest) e] } else t
def State.perform (s : State) (ctx : Nat) (d : Deferred) : State :=
  match d with
  | .arrive ref weight => s.sendArrival ctx ref weight
  | .enqueue ws _ _ true => s.spawn ctx ws none
  | .enqueue ws dest _ false => s.sendDeferred ctx ws dest

/-! ### TEND (R247, R248) -/

/-- R308 item 4: the acts of commands that waited for their round buffers; their records leave with `sts`. -/
def State.delayedActs (s : State) (ctx : Nat) : State :=
  ((s.slotAt ctx).eng.delayed.foldl (fun s c => if c.fin then s else s.giveActs ctx c) s).setEng ctx fun e => { e with delayed := [] }
/-- R248: the last of TEND: granules are released, the deferred acts take place, and the task ends. -/
def State.finishTask (s : State) (ctx code : Nat) : State :=
  let l := s.slotAt ctx
  let s := if l.core.jnl then s.releaseGranules l.age else s
  let s := l.deferred.foldl (fun s d => s.perform ctx d) s
  s.endTask ctx (code + if l.missed then 0x0700 else 0)
/-- R248: TEND goes on by one step: the commands are waited for and those that are left discarded, then each journal entry, then the task
ends. A journal that cannot be read restarts the task (R404, log 20). -/
def State.endStep (s : State) (ctx code : Nat) : State :=
  let l := s.slotAt ctx
  if l.core.commit then
    if l.applied < l.journalCount then s.commitNext ctx else s.finishTask ctx code
  else if !s.commandsOver ctx || l.core.bank.isSome || (s.updates.any fun u => u.ctx == ctx) || s.woundedBefore ctx then s
  else
    let s := ((s.applyRounds ctx fun r => r.isSome).delayedActs ctx).setSlot ctx (·.discard)
    if !l.core.jnl then s.finishTask ctx code
    else if l.journalBad then
      { (s.setCommit ctx).restartTask ctx (Config.freeWord s.draws) with draws := s.draws + 1 }
    else s.setCommit ctx

/-- R247: Y may issue a TEND or TYLD word: S waits at it with the others, or has passed it in a repeated loop. -/
def Path.mayEnd (p : Path) : Bool := p.together || (decide (0 < p.lagY) && decide (p.lagM ≤ p.lagY) && decide (p.lagA ≤ p.lagY))
/-- R247: Y is past the word, and S with it if it waited there. -/
def Path.passEnd (p : Path) : Path := if p.together then (p.passS 1).passX .y 1 else p.passX .y 1
/-- R106, R247: an ending word issues at Y. -/
def State.issueEnd (s : State) (i : Instr) (body : State → State) : Res :=
  if !s.core.path.mayEnd || i.trailReads.any s.core.unlanded || s.core.ywait.isSome || s.core.bank.isSome then .next s
  else if i.guard && !s.core.getP 1 then .next (s.setCore fun c => { c.setPath (·.passEnd) with arm := none })
  else .next (body s)

/-- TEND (R247, R248). -/
def execTend (a : SReg) (g : Bool) (s : State) : Res :=
  s.issueEnd (.tend a g) fun s => s.endStep s.cur (if a = 0 then 0 else (s.core.getS a).toNat % 256)

/-! ### TYLD (R249) -/

/-- R249: every head stands at the word behind the yield. -/
def Path.allAt (at' : Nat) : Path :=
  { pcS := at'
    pcM := at'
    pcA := at'
    pcY := at' }
/-- R439: the sources of a slot begin to gate. -/
def Slot.gate (l : Slot) (now : Nat) : Slot :=
  { l with
    stage := .gating
    gated := now
    preq := none
    gateHeld := false }
/-- R439: the heads of a slot stop, and results in flight land. -/
def State.stopHeads (s : State) (ctx : Nat) : State :=
  (s.grantBank ctx).setCoreAt ctx fun c =>
    let c := c.landAll
    { c with
      restamp := c.restamp || (match c.ywait with | some (.stamp _ _) => true | _ => false)
      ywait := none }
/-- R249: every trap PC holds an address. -/
def Core.trapsAt (c : Core) (at' : Nat) : Core :=
  { c with
    trappcS := BitVec.ofNat 32 at'
    trappcM := BitVec.ofNat 32 at'
    trappcA := BitVec.ofNat 32 at'
    trappcY := BitVec.ofNat 32 at' }
/-- R249, R439, R120: the heads stop behind the yield, with every trap PC there, and the slot's sources are gated for a save; a slot in
supervisor mode, whose trap PCs are those of its user trap, is gated after TRET. -/
def State.yield (s : State) (ctx : Nat) : State :=
  let next := (s.slotAt ctx).core.path.pcY + 4
  if (s.slotAt ctx).core.sup then
    s.setSlot ctx fun l => { l with
      yielded := true
      gateHeld := true
      preq := none
      core := l.core.setPath fun _ => Path.allAt next }
  else
    (s.stopHeads ctx).setSlot ctx fun l =>
      let core := l.core.setPath fun _ => Path.allAt next
      { l.gate (s.acOf ctx) with
        yielded := true
        chain := l.chain.abandonWithheld
        core := core.trapsAt next }

/-- TYLD (R247, R249). -/
def execTyld (g : Bool) (s : State) : Res := s.issueEnd (.tyld g) fun s => s.yield s.cur

end Sys2Proof.Machine
end

