-- ==== Sys2Proof/Machine/Translate.lean ====
section
/-! DEFINITION. Page tables, the extents of a region, and migration before start (spec/13 R319 to R325). -/

namespace Sys2Proof.Machine

/-! ### Page tables (R321) -/

/-- R321: the lowest address bit that a level indexes, and how many bits it indexes. -/
def levelLow : Nat → Nat
  | 4 => 45 | 3 => 36 | 2 => 30 | 1 => 21 | _ => 16
def levelBits : Nat → Nat
  | 4 => 12 | 3 => 9 | 2 => 6 | 1 => 9 | _ => 5
/-- The size of a leaf page of a level; its PSZ is the level's number (R323). -/
def pageBytes (level : Nat) : Nat := 2 ^ levelLow level
/-- R321: a page that an address lies in: its level, its physical base and whether it may be written. -/
structure Leaf where
  level : Nat
  base : Nat
  wp : Bool
  deriving DecidableEq, Repr, Inhabited
/-- R321: the walk from the table of the level below n. An entry that breaks the layout gives no page (DEDUCED, log 30). -/
def State.walk (s : State) (va : Nat) : Nat → Nat → Option Leaf
  | 0, _ => none
  | n + 1, table =>
    if table % (8 * 2 ^ levelBits n) ≠ 0 || !backedRun table (8 * 2 ^ levelBits n) then none
    else
      let e := s.memWord (table + 8 * (va / 2 ^ levelLow n % 2 ^ levelBits n))
      let pa := bitsOf e 51 6 * 64
      if !e.testBit 63 || bitsOf e 59 52 != 0 || bitsOf e 5 0 != 0 then none
      else if e.testBit 62 then
        if n = 4 || !e.testBit 61 || pa % pageBytes n != 0 then none else some ⟨n, pa, e.testBit 60⟩
      else if n = 0 then none
      else s.walk va n pa
/-- R330: a frame that an invalidation under way is moving or dropping. -/
def State.inMotion (s : State) (a n : Nat) : Bool :=
  s.invalids.any fun v => v.sent && decide (v.old < a + n) && decide (a < v.old + v.size)
/-- R325: where a 64 KiB page stands now. -/
def State.frameNow (s : State) (f : Nat) : Nat :=
  match s.migrated.find? fun (o, _) => o == f with
  | some (_, n) => n
  | none => f
/-- The page of a virtual address in an address space, with its 64 KiB unit's frame; none where it is absent. -/
def State.page (s : State) (asid va : Nat) : Option (Leaf × Nat) :=
  match s.roots.find? fun (a, _) => a == asid with
  | none => none
  | some (_, root) =>
    match s.walk va 5 root with
    | none => none
    | some p =>
      let f := p.base + va % pageBytes p.level / 65536 * 65536
      let f := if p.level = 0 then s.frameNow f else f
      if s.inMotion f 65536 then none else some (p, f)

/-! ### Extents (R322) -/

/-- A page, or a 64 KiB unit, of a region's range: its length, where it lies, its PSZ, its permissions, and whether it is part of a
larger page. -/
structure PUnit where
  len : Nat
  pa : Option Nat
  psz : Nat
  ro : Bool
  wp : Bool
  part : Bool
  deriving DecidableEq, Repr, Inhabited
/-- R322: the units of the bytes from o to stop of a range at va; fuel is a bound on them. -/
def State.unitsFrom (s : State) (asid va stop : Nat) (wr : Bool) : Nat → Nat → List PUnit
  | 0, _ => []
  | fuel + 1, o =>
    if stop ≤ o then []
    else
      match s.page asid (va + o) with
      | none => ⟨65536, none, 0, false, false, false⟩ :: s.unitsFrom asid va stop wr fuel (o + 65536)
      | some (p, f) =>
        let n := pageBytes p.level
        if p.level ≠ 0 ∧ (va + o) % n = 0 ∧ o + n ≤ stop ∧ !s.inMotion p.base n then
          ⟨n, some p.base, p.level, wr && !p.wp, p.wp, false⟩ :: s.unitsFrom asid va stop wr fuel (o + n)
        else
          ⟨65536, some f, 0, wr && !p.wp, p.wp, p.level != 0⟩ :: s.unitsFrom asid va stop wr fuel (o + 65536)
/-- R322: two units are of one extent. -/
def PUnit.joins (a b : PUnit) : Bool :=
  match a.pa, b.pa with
  | none, none => true
  | some p, some q => a.psz == b.psz && a.wp == b.wp && p + a.len == q
  | _, _ => false
def PUnit.extent (a : PUnit) : Extent :=
  match a.pa with
  | some p => ⟨true, a.ro, a.psz, p, a.len⟩
  | none => ⟨false, false, 0, 0, a.len⟩
/-- R322: units joined, the last one still open. -/
def joinUnits (cur : PUnit) : List PUnit → List Extent
  | [] => [cur.extent]
  | u :: us => if cur.joins u then joinUnits { cur with len := cur.len + u.len } us else cur.extent :: joinUnits u us
def unitExtents : List PUnit → List Extent
  | [] => []
  | u :: us => joinUnits u us

/-! ### Migration before start (R325) -/

/-- R320: the stack and channel of an HBM frame. -/
def channelOf (f : Nat) : Nat × Nat := (f / 2 ^ 36 % 16, f / 2 ^ 16 % 32)
/-- R325: page k's target: the lower or the higher of the two channels of an engine. -/
def migrationTarget (eng k : Nat) : Nat × Nat :=
  let h := eng % 64 / 2
  let u := h % 16
  let v := h / 16
  (eng / 64 * 4 + u / 4, 8 * (u % 4) + 4 * v + 2 * (eng % 2) + k % 2)
/-- An extent overlaps a run of bytes. -/
def Extent.meets (e : Extent) (a n : Nat) : Bool := e.p && decide (e.pa < a + n) && decide (a < e.pa + e.len)
/-- An absent extent of n bytes. -/
def absentExt (n : Nat) : List Extent := if n = 0 then [] else [⟨false, false, 0, 0, n⟩]
/-- R323: the page size code that an extent can have. -/
def fitPsz (psz pa len : Nat) : Nat := if pa % pageBytes psz = 0 ∧ len % pageBytes psz = 0 then psz else 0
/-- R325, R330 item 4: an extent after size bytes from old have moved, or have been dropped: in as many pieces as it needs. -/
def Extent.afterMove (e : Extent) (old size : Nat) (new : Option Nat) : List Extent :=
  let lo := max e.pa old
  let hi := min (e.pa + e.len) (old + size)
  let piece (p n : Nat) : List Extent := if n = 0 then [] else [⟨true, e.ro, fitPsz e.psz p n, p, n⟩]
  if !e.meets old size then [e]
  else
    let middle : List Extent :=
      match new with
      | some f => [⟨true, e.ro, fitPsz e.psz (lo - old + f) (hi - lo), lo - old + f, hi - lo⟩]
      | none => absentExt (hi - lo)
    piece e.pa (lo - e.pa) ++ middle ++ piece hi (e.pa + e.len - hi)
/-- A region that follows a page: an extent is left absent where the region would need more than 32. -/
def Region.follow (r : Region) (old new : Nat) : Region :=
  let es := r.exts.flatMap fun e => e.afterMove old 65536 (some new)
  { r with exts := if es.length ≤ 32 then es else
      r.exts.flatMap fun e => if e.meets old 65536 then absentExt e.len else [e] }
def Cmd.follow (c : Cmd) (old new : Nat) : Cmd := { c with exts := c.exts.map fun (k, r) => (k, r.follow old new) }
def Slot.follow (l : Slot) (old new : Nat) : Slot :=
  { l with
    regions := l.regions.map (·.follow old new)
    eng := { l.eng with
      flying := l.eng.flying.map (·.follow old new)
      kept := l.eng.kept.map (·.follow old new) } }
/-- R325: everything that names a 64 KiB page follows it: of a slot, on its way to one, shot down and to be repatched, or asked to be
invalidated; no task observes a page in transit (DEDUCED, log 32). -/
def State.follow (s : State) (old new : Nat) : State :=
  let after (es : List Extent) : List Extent := es.flatMap fun e => e.afterMove old 65536 (some new)
  { s with
    slots := s.slots.map fun (c, l) => (c, l.follow old new)
    patches := s.patches.map fun p => { p with exts := after p.exts }
    invalids := s.invalids.map fun v => { v with
      old := if !v.sent && v.old == old then new else v.old
      shot := v.shot.map fun (a, k, b, es) => (a, k, b, after es) } }
/-- A word or granule of a page that moves. -/
def moveAddr (old new size a : Nat) : Nat := if old ≤ a ∧ a < old + size then a - old + new else a
def Loc.moved (old new size : Nat) : Loc → Loc
  | .phys a => .phys (moveAddr old new size a)
  | .tile c o => .tile c o
/-- R397: a command waits on for a granule that has moved. -/
def Cmd.granuleMoved (old new size : Nat) (c : Cmd) : Cmd :=
  { c with waitGranule := c.waitGranule.map fun (a, g) => (moveAddr old new size a, g) }
def Slot.granulesMoved (old new size : Nat) (l : Slot) : Slot :=
  let move (c : Cmd) : Cmd := c.granuleMoved old new size
  { l with
    eng := { l.eng with flying := l.eng.flying.map move }
    chain := { l.chain with cmd := l.chain.cmd.map move }
    channels := l.channels.map fun (h : Channel) => { h with cmd := h.cmd.map move } }
/-- R325, R330, R397: the contents of a frame move to another, with its lock entries, the touches and waits for them, and the updates on
their way or in round buffers. -/
def State.moveFrame (s : State) (old new size : Nat) : State :=
  let inside (a : Nat) : Bool := decide (old ≤ a) && decide (a < old + size)
  let cells := s.mem.filter fun (a, _) => inside a
  { s with
    mem := cells.foldl (fun m (a, b) => setByte m (a - old + new) b) (clearBytes s.mem new size)
    badWords := (s.badWords.filter fun a => !(decide (new ≤ a) && decide (a < new + size)))
      ++ ((s.badWords.filter inside).map fun a => a - old + new)
    locks := s.locks.map fun l => { l with addr := moveAddr old new size l.addr }
    touches := s.touches.map fun t => { t with addr := moveAddr old new size t.addr }
    slots := s.slots.map fun (c, l) => (c, l.granulesMoved old new size)
    updates := s.updates.map fun u => { u with loc := u.loc.moved old new size }
    buffers := s.buffers.map fun u => { u with loc := u.loc.moved old new size } }
/-- R325: a 64 KiB page moves into a free frame of its target channel. -/
def State.migrateFrame (s : State) (f : Nat) (target : Nat × Nat) : State × Nat :=
  if channelOf f = target then (s, f)
  else
    match s.freeFrames.find? fun x => decide (x < 2 ^ 40) && channelOf x == target with
    | none => (s, f)
    | some x =>
      let page := match s.migrated.find? fun (_, n) => n == f with | some (o, _) => o | none => f
      ({ (s.moveFrame f x 65536).follow f x with
        freeFrames := f :: lrem x s.freeFrames
        migrated := (s.migrated.filter fun (o, _) => o != page) ++ [(page, x)] }, x)
/-- R325: a page that takes a number: a present 64 KiB page of HBM that is no part of a larger one. -/
def PUnit.numbered (u : PUnit) : Bool := u.psz == 0 && !u.part && (match u.pa with | some f => decide (f < 2 ^ 40) | none => false)
/-- R325: the numbered pages of a region in order, from number k; moves holds where the frame of each now is, also of one that the region
maps twice. -/
def State.migrate (s : State) (eng k : Nat) (moves : List (Nat × Nat)) : List PUnit → State × List (Nat × Nat)
  | [] => (s, moves)
  | u :: us =>
    match u.numbered, u.pa with
    | true, some f =>
      let (s, f') := s.migrateFrame (aget f f moves) (migrationTarget eng k)
      s.migrate eng (k + 1) (aset f f' moves) us
    | _, _ => s.migrate eng k moves us
def PUnit.movedTo (moves : List (Nat × Nat)) (u : PUnit) : PUnit :=
  if u.numbered then { u with pa := u.pa.map fun f => aget f f moves } else u

/-! ### A region at bind (R322, R323, R377) -/

/-- R319, R322: a region as the loader forms it; none where it is refused. -/
def State.formRegion (s : State) (asid : Nat) (d : DeclRegion) : Option (State × Region) :=
  if d.len = 0 then some (s, {})
  else if d.sess then
    (s.sessions.find? fun x => x.sid == d.sid).map fun x => (s,
      ({ v := true, rd := d.rd, wr := d.wr, sess := true, sid := d.sid, exts := x.exts } : Region))
  else
    let units := s.unitsFrom asid d.va d.len d.wr (d.len / 65536) 0
    let (s, units) := match d.eng with
      | some e =>
        let (s, moves) := s.migrate e 0 [] units
        (s, units.map (·.movedTo moves))
      | none => (s, units)
    let exts := unitExtents units
    if exts.length ≤ 32 ∧ exts.all (fun e => !e.p || backedRun e.pa e.len) then
      some (s, ({ v := true, rd := d.rd, wr := d.wr, exts := exts } : Region))
    else none
/-- R322: the region table of a slot, formed region by region; none where one is refused. -/
def State.formRegions (s : State) (ctx asid : Nat) : Nat → List DeclRegion → Option State
  | _, [] => some s
  | k, d :: ds =>
    match s.formRegion asid d with
    | none => none
    | some (s, r) =>
      (s.setSlot ctx fun l => { l with regions := lmod k (fun _ => r) l.regions }).formRegions ctx asid (k + 1) ds

end Sys2Proof.Machine
end

