-- ==== Sys2Proof/Machine/Faults.lean ====
section
/-! DEFINITION. Fault service, shoot-down, repatch, invalidation, the drain limit and configuration errors (spec/13 R326 to R330, R339,
R342, spec/14 R358). -/

namespace Sys2Proof.Machine

/-! ### Extents replaced (R329) -/

/-- The extents before a byte, and those from it on; none where an extent straddles it. -/
def splitExts : Nat → List Extent → Option (List Extent × List Extent)
  | b, [] => if b = 0 then some ([], []) else none
  | b, e :: es =>
    if b = 0 then some ([], e :: es)
    else if b < e.len then none
    else (splitExts (b - e.len) es).map fun (x, y) => (e :: x, y)
/-- R329: the extents of len bytes from start are replaced; nothing changes where they do not begin and end there, or beyond 32. -/
def Region.replace (r : Region) (start len : Nat) (new : List Extent) : Region :=
  match splitExts start r.exts with
  | none => r
  | some (a, rest) =>
    match splitExts len rest with
    | none => r
    | some (_, z) => if (a ++ new ++ z).length ≤ 32 then { r with exts := a ++ new ++ z } else r
def Region.patched (r : Region) (p : Patch) : Region := r.replace p.start p.len p.exts

/-! ### A patch reaches its slot (R329) -/

/-- R324: a withheld element translates now. -/
def Notice.clears (n : Notice) (r : Region) : Bool :=
  match r.place false n.width n.elem with
  | .at _ => true
  | .denied _ => true
  | _ => false
/-- R329: a withheld command whose element translates goes on. -/
def Cmd.resume (c : Cmd) (region : Nat) (r : Region) : Cmd :=
  match c.notice with
  | some n =>
    if n.region = region ∧ n.clears r then
      { c with
        st := if c.st = .withheld then .running else c.st
        notice := none }
    else c
  | none => c
/-- R329: the patch is written into the region table and every generator's copy, and withheld commands go on. -/
def Slot.applyPatch (l : Slot) (p : Patch) : Slot :=
  let table := lmod p.region (·.patched p) l.regions
  let r := (table[p.region]?).getD {}
  let copy (c : Cmd) : Cmd :=
    let c := { c with exts := c.exts.map fun (x : Nat × Region) => (x.1, if x.1 = p.region then x.2.patched p else x.2) }
    c.resume p.region (aget r p.region c.exts)
  let lane (c : Option Cmd) : Option Cmd := c.map (·.resume p.region r)
  { l with
    regions := table
    eng := { l.eng with
      flying := l.eng.flying.map copy
      kept := l.eng.kept.map copy }
    array := lane l.array
    chain := { l.chain with cmd := lane l.chain.cmd }
    channels := l.channels.map fun h => { h with cmd := lane h.cmd }
    commitNotice := match l.commitNotice with
      | some n => if n.region = p.region ∧ n.clears r then none else some n
      | none => none }
/-- The notice of a slot's command that the fault service holds stands there still. -/
def Slot.noticeOf (l : Slot) (n : NoticeMsg) : Option Notice :=
  if n.engine = 6 then l.commitNotice
  else if n.engine = 0 then (l.eng.flying.find? fun c => c.seq == n.seq).bind (·.notice)
  else ((l.lane n.engine).filter fun c => c.seq == n.seq).bind (·.notice)
/-- The fault service forgets the notices of a task that are resolved. -/
def State.dropResolved (s : State) (ctx : Nat) : State :=
  let l := s.slotAt ctx
  { s with notices := s.notices.filter fun n => n.age != l.age || (l.noticeOf n).isSome }
/-- R329: an access of the slot to a shot-down page has not been performed. -/
def State.accessBelow (s : State) (ctx : Nat) (p : Patch) : Bool :=
  let r := ((s.slotAt ctx).regions[p.region]?).getD {}
  s.updates.any fun u => u.ctx == ctx && match u.loc with
    | .phys a => (findExtent p.start 0 r.exts).any fun (_, e, _) => e.p && decide (e.pa ≤ a) && decide (a < e.pa + e.len)
    | .tile _ _ => false
/-- R329: patch k, a shoot-down or a repatch, reaches its slot; those of a slot arrive in order (R346). -/
def State.patchArrives (s : State) (k : Nat) (down : Bool) : Option State :=
  match s.patches[k]? with
  | none => none
  | some p =>
    if p.down != down || (s.patches.take k).any fun x => x.age == p.age then none
    else
      let t := { s with patches := ldel k s.patches }
      match s.slotOf p.age with
      | none => some t
      | some ctx =>
        if down && s.accessBelow ctx p then none
        else some ((t.setSlot ctx (·.applyPatch p)).dropResolved ctx)
/-- SHOOT_DOWN (R329, R330). -/
def execShootDown (k : Nat) (s : State) : Res := orStay s (s.patchArrives k true)
/-- REPATCH (R329). -/
def execRepatch (k : Nat) (s : State) : Res := orStay s (s.patchArrives k false)

/-! ### Fault service (R328) -/

/-- How a notice is resolved: not yet, by a patch, or as fatal with a reason. -/
inductive Repair where
  | later
  | patch (start len : Nat) (exts : List Extent)
  | fatal (reason : Nat)
  deriving DecidableEq, Repr
/-- The first byte of an element that does not translate. -/
def Region.missing (r : Region) (w E : Nat) : Nat :=
  (((List.range (elemBytes w E)).map (elemByte w E + ·)).find? fun b =>
    match r.byteAt false b with
    | .at _ => false
    | .denied _ => false
    | _ => true).getD (elemByte w E)
/-- R322: two present extents are of one. -/
def Extent.joins (a b : Extent) : Bool := a.p && b.p && a.ro == b.ro && a.psz == b.psz && a.pa + a.len == b.pa
def joinExts : List Extent → List Extent
  | [] => []
  | e :: es =>
    match joinExts es with
    | [] => [e]
    | x :: xs => if e.joins x then { e with len := e.len + x.len } :: xs else e :: x :: xs
/-- A page without storage counts as absent. -/
def PUnit.kept (u : PUnit) : PUnit :=
  match u.pa with
  | some p => if backedRun p u.len then u else { u with
      pa := none
      psz := 0 }
  | none => u
/-- R322: the extents of the bytes from lo to hi of a region, as the page tables have them now. -/
def State.filled (s : State) (asid : Nat) (d : DeclRegion) (wr : Bool) (lo hi : Nat) : List Extent :=
  unitExtents ((s.unitsFrom asid d.va hi wr ((hi - lo) / 65536) lo).map (·.kept))
/-- R328: what may take the place of the bytes from start to stop, of which the unit at u is missing: the unit alone, or more of them, up
to all. -/
def State.fillings (s : State) (asid : Nat) (d : DeclRegion) (wr : Bool) (start stop u : Nat) : List (List Extent) :=
  [(u, u + 65536), (start, u + 65536), (u, stop), (start, stop)].map fun (lo, hi) =>
    absentExt (lo - start) ++ s.filled asid d wr lo hi ++ absentExt (stop - hi)
/-- R328: the first filling with which a region, but for the removed extents, needs no more than 32, joined to its neighbours. -/
def fitFilling (kept : Nat) (before after : List Extent) (fs : List (List Extent)) : Option (List Extent) :=
  (fs.map fun f => joinExts (before ++ f ++ after)).find? fun es => decide (kept + es.length ≤ 32)
/-- R328: how the fault service resolves a notice of a region: the missing byte's 64 KiB unit is supplied from the page tables, in place of
part of an absent extent or beyond the region's end, joined to its neighbours as R322 joins pages, and with as much more of the absent
bytes as the limit of 32 extents needs (DEDUCED, log 33). -/
def State.repair (s : State) (asid : Nat) (d : DeclRegion) (r : Region) (n : Notice) : Repair :=
  if n.elem < 0 then .fatal 0x21
  else
    let b := r.missing n.width n.elem.toNat
    let unit := b / 65536 * 65536
    let beyond := decide (r.length ≤ b)
    let none' : Repair := .fatal (if beyond then 0x21 else 0x20)
    if r.sess then none'
    else if s.invalids.any (·.sent) && (s.page asid (d.va + unit)).isNone then .later
    else
      match s.page asid (d.va + unit) with
      | none => none'
      | some (_, f) =>
        if !backedRun f 65536 then none'
        else
          let n := r.exts.length
          if beyond then
            let before := r.exts.drop (n - 1)
            match fitFilling (n - before.length) before [] (s.fillings asid d r.wr r.length (unit + 65536) unit) with
            | some es =>
              let back := (before.map (·.len)).sum
              .patch (r.length - back) back es
            | none => .fatal 0x22
          else
            match findExtent b 0 r.exts with
            | none => .later
            | some (i, e, o) =>
              let start := b - o
              let before := (r.exts.drop (i - 1)).take (min i 1)
              let after := (r.exts.drop (i + 1)).take 1
              let back := (before.map (·.len)).sum
              match fitFilling (n - 1 - before.length - after.length) before after
                  (s.fillings asid d r.wr start (start + e.len) unit) with
              | some es => .patch (start - back) (back + e.len + (after.map (·.len)).sum) es
              | none => .fatal 0x22
/-- R328: a notice of a running command is fatal. -/
def State.repairFails (s : State) (ctx : Nat) (n : NoticeMsg) (m : Notice) (reason : Nat) : State :=
  let l := s.slotAt ctx
  let r := regionFault m.region reason m.elem
  match n.engine with
  | 0 => match s.cmdAt ctx n.seq with | some c => s.failCmd ctx c r | none => s
  | 1 => match l.chain.cmd with | some c => s.chainFail ctx c r | none => s
  | 6 => s.commitMiss ctx
  | k => match l.lane k with | some c => s.engineFail ctx k c r | none => s
/-- R328, R329: notice n of a task that runs on a slot is served. -/
def State.serve (s : State) (ctx : Nat) (n : NoticeMsg) : Option State :=
  let l := s.slotAt ctx
  let gone := { s with notices := s.notices.filter (· != n) }
  match l.noticeOf n with
  | none => some gone
  | some m =>
    if s.patches.any fun p => p.age == n.age && p.region == m.region then none
    else
      match s.repair l.pkt.asid ((l.decl.regions[m.region]?).getD {}) ((l.regions[m.region]?).getD {}) m with
      | .later => none
      | .patch start len exts => some { s with patches := s.patches ++ [⟨n.age, m.region, start, len, exts, false, none⟩] }
      | .fatal reason => some (gone.repairFails ctx n m reason)
/-- R161, R328: a command of a drained task faults: it is saved faulted; the taps on it have poisoned their barriers (R174, R333). -/
def Cmd.savedFault (c : Cmd) (r : Reject) : Cmd :=
  { c with
    st := .faulted
    cause := r.cause
    detail := r.detail
    notice := none }
def Slot.savedFault (l : Slot) (n : NoticeMsg) (r : Reject) : Slot :=
  if n.engine = 0 then
    match l.eng.flying.find? fun c => c.seq == n.seq with
    | none => l
    | some c =>
      let c := c.savedFault r
      let ts := l.eng.taps.filter fun (_, k, _) => k == n.seq
      let e := (l.eng.update n.seq fun _ => c).endLink n.seq
      let core := l.core.forgetPart c
      { l with
        eng := { e with
          taps := e.taps.filter fun (_, k, _) => k != n.seq
          flying := e.flying.map fun x => if ts.any fun (q, _, _) => q == x.seq then { x with told := true } else x }
        core := if c.trapf then core.addPend r.cause c.head r.val else core }
  else
    match l.lane n.engine with
    | none => l
    | some c =>
      let c := c.savedFault r
      let l := { l with core := if c.trapf then l.core.addPend r.cause c.head r.val else l.core }
      if n.engine = 1 then { l with chain := ({ l.chain with cmd := some c } : Chain).abandon } else l.setLane n.engine (some c)
/-- R333: the barriers that the fault of a drained task's command poisons: its own, and those of its taps. -/
def Slot.faultRefs (l : Slot) (n : NoticeMsg) : List Word :=
  let c := if n.engine = 0 then l.eng.flying.find? fun c => c.seq == n.seq else l.lane n.engine
  (match c with
    | some c => if c.bound && refNames l.decl c.bind then [c.bind] else []
    | none => [])
    ++ if n.engine = 0 then (l.eng.taps.filter fun (_, k, r) => k == n.seq && r.getLsbD 63).map (·.2.2) else []
/-- R333: a barrier as a task named it from a slot it has left. -/
def State.poisonFrom (s : State) (epoch ctx : Nat) (ref : Word) : State :=
  s.modBarrier epoch (refScope ref) (scopePlace (refScope ref) (nodeOf ctx)) (refBid ref) (·.poisoned (s.refAc ctx ref))
/-- R327, R391: the notice of a drained task is resolved: the task is saved, at the front of its class. -/
def State.serveDrained (s : State) (die : Nat) (w : Waiting) (l : Slot) (n : NoticeMsg) : Option State :=
  let gone := { s with notices := s.notices.filter (· != n) }
  let ready (t : State) (l : Slot) : State :=
    t.setDie die fun d => { d with drained := d.drained.filter fun x => x.task.age != n.age }.putTask true { w with saved := some l }
  match l.noticeOf n with
  | none => some (ready gone l)
  | some m =>
    match s.repair l.pkt.asid ((l.decl.regions[m.region]?).getD {}) ((l.regions[m.region]?).getD {}) m with
    | .later => none
    | .patch _ _ _ => some (ready gone l)
    | .fatal reason =>
      let t := (l.faultRefs n).foldl (fun t r => t.poisonFrom w.task.epoch w.left r) gone
      some (ready t (l.savedFault n (regionFault m.region reason m.elem)))
/-- The die at which a task of an age is drained. -/
def State.drainedOf (s : State) (age : Word) : Option (Nat × Waiting) :=
  (numbered 0 s.dies).findSome? fun (d, x) => (x.drained.find? fun w => w.task.age == age).map fun w => (d, w)
/-- FAULT_REPAIR (R326, R328): the fault service serves notice k. -/
def execFaultRepair (k : Nat) (s : State) : Res :=
  orStay s (
    match s.notices[k]? with
    | none => none
    | some n =>
      match s.slotOf n.age with
      | some ctx => s.serve ctx n
      | none =>
        match s.drainedOf n.age with
        | some (die, w) => w.saved.bind fun l => s.serveDrained die w l n
        | none => some { s with notices := ldel k s.notices })

/-! ### Invalidation (R330) -/

/-- The extents of a region with the byte at which each starts. -/
def extStarts : Nat → List Extent → List (Nat × Extent)
  | _, [] => []
  | b, e :: es => (b, e) :: extStarts (b + e.len) es
/-- The region table of a slot once the patches on their way to it have arrived, in order (R346). -/
def State.tableToBe (s : State) (l : Slot) : List Region :=
  (s.patches.filter fun p => p.age == l.age).foldl (fun t p => lmod p.region (·.patched p) t) l.regions
/-- R330 item 1: the extents of every running slot that hold the page, or will as a patch on its way arrives; a session is never moved
(R450). -/
def State.shotExts (s : State) (a n : Nat) : List (Word × Nat × Nat × Extent) :=
  s.slots.flatMap fun (_, l) =>
    if !l.runs && l.stage != .bound then []
    else (numbered 0 (s.tableToBe l)).flatMap fun (k, r) =>
      if r.sess then [] else ((extStarts 0 r.exts).filter fun (_, e) => e.meets a n).map fun (b, e) => (l.age, k, b, e)
/-- R330 item 4: a repatch for an extent that was shot down; it is left absent where the region would need more than 32. -/
def State.repatchFor (s : State) (v : Invalid) (x : Word × Nat × Nat × List Extent) : List Patch :=
  let (age, k, b, es) := x
  let new := es.flatMap fun e => e.afterMove v.old v.size v.new
  match s.slotOf age with
  | none => []
  | some ctx =>
    let r := ((s.slotAt ctx).regions[k]?).getD {}
    if 32 < r.exts.length - 1 + new.length then [] else [⟨age, k, b, (es.map (·.len)).sum, new, false, none⟩]
/-- R330 items 1 and 2: the page is shot down wherever it is held. -/
def State.beginInvalid (s : State) (v : Invalid) : State :=
  let shot := s.shotExts v.old v.size
  { s with
    invalids := s.invalids.map fun x => if x.id = v.id then { v with
      sent := true
      shot := shot.map fun (age, k, b, e) => (age, k, b, [e]) } else x
    patches := s.patches ++ shot.map fun (age, k, b, e) => ⟨age, k, b, e.len, absentExt e.len, true, some v.id⟩ }
/-- R330 items 3 and 4: every acknowledgement is there: the data moves or is dropped, and the extents are repatched. -/
def State.endInvalid (s : State) (v : Invalid) : State :=
  let s := { s with
    invalids := s.invalids.filter fun x => x.id != v.id
    migrated := s.migrated.filter fun (_, f) => f != v.old }
  let s := match v.new with
    | some f => s.moveFrame v.old f v.size
    | none => s
  let tail := (v.shot.flatMap (s.repatchFor v))
  { s with patches := s.patches ++ tail }
/-- INVALIDATION (R330): the package manager goes on with invalidation k: it shoots down, or, once every shoot-down is acknowledged,
moves and repatches; one invalidation at a time is under way (DEDUCED, log 87). -/
def execInvalidation (k : Nat) (s : State) : Res :=
  orStay s (
    match s.invalids[k]? with
    | none => none
    | some v =>
      if !v.sent then if s.invalids.any (·.sent) then none else some (s.beginInvalid v)
      else if s.patches.any fun p => p.inv == some v.id then none
      else some (s.endInvalid v))

/-! ### The drain limit (R327, R342) -/

/-- The withheld commands of a slot, with their engines. -/
def Slot.withheld (l : Slot) : List (Nat × Cmd) :=
  ((l.eng.flying.map fun c => (0, c)) ++ (l.chain.cmd.toList.map fun c => (1, c))
    ++ (numbered 2 l.channels).filterMap fun (x : Nat × Channel) => x.2.cmd.map fun c => (x.1, c)).filter
      fun (x : Nat × Cmd) => x.2.st == CState.withheld
/-- R327: the first command of a slot that has been withheld to the limit. -/
def State.overdue (s : State) (ctx : Nat) : Option (Nat × Nat) :=
  let limit := (s.die (dieOf (nodeOf ctx))).drainLimit
  ((s.slotAt ctx).withheld.find? fun (_, c) =>
    match c.notice with
    | some n => decide (n.since + limit ≤ s.acOf ctx)
    | none => false).map fun (n, c) => (n, c.seq)
/-- DRAIN_LIMIT_EXPIRY (R327, R342): the slot's sources are gated for a drain; in supervisor mode that is held until TRET, and a task that
is then no longer withheld is not drained (DEDUCED, log 34). A step of the chain engine is abandoned (R426). -/
def execDrainLimitExpiry (s : State) : Res :=
  orStay s (
    let l := s.me
    if l.stage != .running || l.core.commit then none
    else
      match s.overdue s.cur with
      | none => if l.drainHeld then some (s.setMe fun l => { l with drainHeld := false }) else none
      | some (n, seq) =>
        if l.core.sup then if l.drainHeld then none else some (s.setMe fun l => { l with drainHeld := true })
        else
          let keep (x : NoticeMsg) : Bool := x.age != l.age || (x.engine == n && x.seq == seq)
          let t := (s.stopHeads s.cur).setMe fun l => { l.gate (s.acOf s.cur) with
            draining := true
            drainHeld := false
            chain := l.chain.abandon }
          some { t with notices := t.notices.filter keep })

/-! ### Configuration errors (R339) -/

/-- R339, R461: the arena copy of a quadrant's block still passes its checks. -/
def State.arenaCopy (s : State) (ctx : Nat) : Option Block :=
  (s.slotAt ctx).quad.copy.bind fun b =>
    match blockCheck (s.arenaByte ctx) (s.slotAt ctx).core.arenabound.toNat (s.slotAt ctx).pkt.cfgtab b.off with
    | some _ => none
    | none => some (readBlock (s.arenaByte ctx) (s.slotAt ctx).pkt.cfgtab b.off b.place)
/-- R339: the block and its words are reloaded from the arena, and the region is rolled back. -/
def State.reload (s : State) (ctx : Nat) : State :=
  match s.arenaCopy ctx with
  | none => s.failTask ctx 0x03
  | some b => (s.setSlot ctx fun l => { l with quad := { l.quad with
      blk := some b
      copy := some b
      frozen := false } }).rollback ctx
/-- CONFIG_SCRUB (R339): what the scrubber finds is a free value: nothing, an error it corrects, or one it cannot, which freezes the
region; a frozen region is reloaded, not during a commit, whose order holds whatever else happens (R404). -/
def execConfigScrub (s : State) : Res :=
  orStay s (
    let q := s.me.quad
    let t := { s with draws := s.draws + 1 }
    if q.st == .empty || !s.me.runs || s.core.commit then none
    else if q.frozen then some (s.reload s.cur)
    else
      match Config.freeNat s.draws % 3 with
      | 0 => some t
      | 1 => some (t.setDie (dieOf (nodeOf s.cur)) fun d => { d with corrected := d.corrected + 1 })
      | _ => some (t.setMe fun l => { l with quad := { l.quad with frozen := true } }))

/-! ### Stations (R358) -/

/-- STATION_FAILURE (R358): a UALink station of a die fails. -/
def execStationFailure (die : Nat) (station : Nat) (s : State) : Res :=
  orStay s (
    if 4 ≤ die || 4 ≤ station || (s.die die).stations.contains station then none
    else some (s.setDie die fun d => { d with stations := station :: d.stations }))

end Sys2Proof.Machine
end

