-- ==== Sys2Proof/Machine/Graph.lean ====
section
/-! DEFINITION. Grenit graphs: how the package loader places their blocks on canonical tiles, binds their edges to streams and their levels to
scopes, how it does so anew at a bind, and how a stream passes on tokens (spec/22 R459, R462, R464, spec/12 R302, spec/10 R279). -/

namespace Sys2Proof.Machine

/-! ### Canonical limits (R459) -/

/-- A byte of the arena that holds a block of a graph. -/
def GraphBlock.byte (g : GraphBlock) (s : State) (o : Nat) : Nat := (getByte s.mem (g.code + o)).toNat
/-- The block, if the loader's checks pass it (R38 to R50). -/
def GraphBlock.read (g : GraphBlock) (s : State) : Option Block :=
  if (blockCheck (g.byte s) g.bound g.cfgtab g.off).isSome then none else some (readBlock (g.byte s) g.cfgtab g.off {})
/-- R459: ports and PEs that a canonical slot has. -/
def canonicalIn : Nat := 10
def canonicalOut : Nat := 7
def canonicalPes : Nat := 60
/-- R459: a block stays within the canonical limits of a slot. -/
def Block.canonical (b : Block) : Bool :=
  decide ((b.slots.filter (·.pl)).length ≤ canonicalPes) && decide ((b.slots.filter (!·.pl)).length ≤ canonicalPes)
    && b.ports.all fun e => decide (e.phys < if e.dir then canonicalOut else canonicalIn)
def Block.hasPort (b : Block) (dir : Bool) (p : Nat) : Bool := b.ports.any fun e => e.dir == dir && e.phys == p
/-- R459, R464: an edge joins two canonical ports that its blocks have, of one plane (R268). -/
def GraphEdge.fits (e : GraphEdge) (bs : List Block) : Bool :=
  match bs[e.src]?, bs[e.dst]? with
  | some a, some b =>
    decide (e.out < canonicalOut) && decide (e.inp < canonicalIn) && a.hasPort true e.out && b.hasPort false e.inp
      && ({ blk := some a } : Quad).outPlane e.out == ({ blk := some b } : Quad).inPlane e.inp
  | _, _ => false

/-! ### Placing (R462, R464) -/

/-- R462: the tile on which canonical tile (cx, cy) lies. -/
def State.canonicalTile (s : State) (cx cy : Nat) : Option Nat :=
  let d := (if cx < 14 then 0 else 1) + if cy < 8 then 0 else 2
  let order := (List.range 8).flatMap fun v => (List.range 16).map fun u => nodeAt d u (v + 2)
  (order.filter s.tileUsable)[14 * (cy % 8) + cx % 14]?
/-- R459: the canonical slots, by number: four to a tile, the tiles row by row. -/
def canonicalSlots : List Nat := List.range (4 * 448)
def GraphPlace.canonical (p : GraphPlace) : Nat := 4 * (28 * p.cy + p.cx) + p.slot
/-- R462: a block placed on canonical slot j, where the part that stands for it can hold it. -/
def State.placeOn (s : State) (b : Block) (j : Nat) : Option GraphPlace :=
  let cx := j / 4 % 28
  let cy := j / 4 / 28
  match s.canonicalTile cx cy with
  | none => none
  | some n => (s.placeBlock (4 * n + j % 4) b).map fun p => ⟨cx, cy, j % 4, 4 * n + j % 4, p⟩
/-- Context slots that stand for blocks of the graphs other than graph k. -/
def State.graphCtxs (s : State) (k : Nat) : List Nat :=
  ((numbered 0 s.graphs).filter fun (j, _) => j != k).flatMap fun (_, g) => g.places.map (·.ctx)
/-- R464: the blocks of graph k, each on the canonical slot where it was placed before, or else on the first whose context slot is free, that
no other block of a graph has and that can hold it: the spec leaves the choice to the loader (DESIGN CHOICE, log 90). -/
def State.placeGraph (s : State) (k : Nat) (old : List GraphPlace) : List Block → List GraphPlace → Option (List GraphPlace)
  | [], done => some done
  | b :: bs, done =>
    let open' (p : GraphPlace) : Bool := !(done.any fun d => d.ctx == p.ctx) && !(s.graphCtxs k).contains p.ctx
    let again := ((old[done.length]?).bind fun p => s.placeOn b p.canonical).filter open'
    let first := canonicalSlots.findSome? fun j => (s.placeOn b j).filter fun p => open' p && (s.slotAt p.ctx).stage == .free
    match again.orElse fun _ => first with
    | none => none
    | some p => s.placeGraph k old bs (done ++ [p])

/-! ### Edges and levels (R151, R302) -/

/-- R151: a port endpoint. -/
def portEndpoint (cpl : Bool) (p : Nat) : Word := BitVec.ofNat 64 (2 * 2 ^ 60 + bitIf cpl 8 + p)
/-- R151: a remote-port endpoint of this package. -/
def remoteEndpoint (ctx : Nat) (cpl : Bool) (p : Nat) : Word :=
  BitVec.ofNat 64 (4 * 2 ^ 60 + 2 ^ 49 + nodeOf ctx * 2 ^ 38 + planeOf ctx * 2 ^ 36 + p * 2 ^ 30 + bitIf cpl 29)
/-- R464: an edge as a stream between its two ports: local in one quadrant, else to a remote port. -/
def GraphEdge.stream (e : GraphEdge) (bs : List Block) (ps : List GraphPlace) : Option GraphStream :=
  match bs[e.src]?, ps[e.src]?, ps[e.dst]? with
  | some a, some p, some q =>
    let cpl := ({ blk := some a } : Quad).outPlane e.out
    some ⟨e.src, e.dst, p.ctx, q.ctx, portEndpoint cpl e.out,
      if p.ctx = q.ctx then portEndpoint cpl e.inp else remoteEndpoint q.ctx cpl e.inp⟩
  | _, _, _ => none
/-- R302: the narrowest of `.tile`, `.tuss`, `.die`, `.pkg` and `.pod` that contains some tiles. -/
def narrowest (nodes : List Nat) : Nat :=
  (([1, 2, 3, 4].find? fun k => nodes.all fun n => nodes.all fun m => scopePlace k n == scopePlace k m)).getD 5
/-- R302: the scopes of the levels from L1 up: none is narrower than the level below it. -/
def levelScopes (ps : List GraphPlace) : Nat → List (List Nat) → List Nat
  | _, [] => []
  | below, l :: ls =>
    let k := max below (narrowest (l.filterMap fun b => (ps[b]?).map fun p => nodeOf p.ctx))
    k :: levelScopes ps k ls
/-- Bits lo to lo + w − 1 of n bytes of memory take a value. -/
def State.setField (s : State) (a n lo w v : Nat) : State := { s with mem := writeLE s.mem a n (putBits (readLE s.mem a n) lo w v) }
/-- R302: the loader writes a scope into a SCOPE field: [29:27] of a FENCE, ACQ or REL word, [31:29] of the second word of a BARI (R243), [58:56]
of a BIND field (R155). -/
def State.writeScope (s : State) (x : GraphScope) (scope : Nat) : State :=
  match x.field with
  | .word => s.setField x.addr 4 27 3 scope
  | .bari => s.setField (x.addr + 4) 4 29 3 scope
  | .bind => s.setField x.addr 8 56 3 scope
/-- R302: the bound scopes are written into every field that names a level. -/
def State.writeScopes (s : State) (g : GraphLoad) : State :=
  g.graph.fields.foldl (fun s x => s.writeScope x ((g.scopes[x.level - 1]?).getD 0)) s

/-! ### Loading and binding (R464, R302) -/

/-- A graph that is refused. -/
def Graph.refused (g : Graph) (code : Nat) : GraphLoad := ⟨g, some code, [], [], []⟩
/-- R464, R302: what the loader makes of graph k, with the places that its blocks had before. One whose blocks or edges exceed the canonical
limits is refused with code 0x05; so is one whose blocks cannot all be placed, and one that names L0 where a scope is needed; one with a block
that fails a check of R38 to R50 with code 0x06 (DEDUCED, log 90). -/
def State.graphLoad (s : State) (k : Nat) (old : List GraphPlace) (g : Graph) : GraphLoad :=
  match g.blocks.mapM (·.read s) with
  | none => g.refused 0x06
  | some bs =>
    if !bs.all (·.canonical) || !g.edges.all (·.fits bs) || g.fields.any fun x => x.level == 0 || decide (5 < x.level) then g.refused 0x05
    else
      match s.placeGraph k old bs [] with
      | none => g.refused 0x05
      | some ps =>
        { graph := g
          code := none
          places := ps
          streams := g.edges.filterMap (·.stream bs ps)
          scopes := levelScopes ps 1 ((List.range 5).map fun k => (g.levels[k]?).getD []) }
/-- R464: the quadrant of a free context slot that stands for a block is LOADED with it. -/
def State.holdBlock (s : State) (g : GraphBlock) (p : GraphPlace) : State :=
  if (s.slotAt p.ctx).stage ≠ .free then s
  else s.setSlot p.ctx fun l => { l with quad := Quad.load (readBlock (g.byte s) g.cfgtab g.off p.place) (s.acOf p.ctx) }
/-- R464, R302: a graph that is loaded or bound takes its place in the list; its blocks are placed and its scopes written. -/
def State.bindGraph (s : State) (k : Nat) (g : GraphLoad) : State :=
  let t := { s with graphs := s.graphs.set k g }
  (g.graph.blocks.zip g.places).foldl (fun t x => t.holdBlock x.1 x.2) (t.writeScopes g)
/-- R464: the package loader loads a graph. -/
def State.loadGraph (s : State) (g : Graph) : State :=
  let k := s.graphs.length
  let l := s.graphLoad k [] g
  let t := { s with graphs := s.graphs ++ [l] }
  if l.code.isSome then t else t.bindGraph k l
/-- R302: at a bind of a task whose arena holds blocks of a graph, the graph is bound anew: a block whose tile has been retired since moves with
its canonical tile (R462). One that cannot be placed now stays bound as it was. -/
def State.rebindGraphs (s : State) (p : Packet) : State :=
  (numbered 0 s.graphs).foldl (fun s (k, g) =>
    if g.code.isSome || !g.graph.blocks.any fun b => b.code == p.code then s
    else
      let l := s.graphLoad k g.places g.graph
      if l.code.isSome then s else s.bindGraph k l) s

/-! ### The streams of edges (R464, R279) -/

/-- The slot runs a task of the arena of a block, and its quadrant holds that block. -/
def State.runsBlock (s : State) (ctx : Nat) (b : GraphBlock) : Bool :=
  let l := s.slotAt ctx
  l.stage == .running && l.pkt.code == b.code && (l.quad.blk.map (·.off)) == some b.off
/-- The input port of a stream's end. -/
def GraphStream.inPort (e : GraphStream) : Nat := if e.ctx = e.dctx then epPort e.ep1.toNat else epRemotePort e.ep1.toNat
/-- Block n of a graph. -/
def Graph.block (g : Graph) (n : Nat) : GraphBlock := (g.blocks[n]?).getD ⟨0, 0, 0, 0⟩
/-- R464: the stream of an edge is bound to its output port: the slot holds the block of a graph, and no stream command that has been bound to
either port has taken it from the stream. -/
def State.edgeBound (s : State) (g : GraphLoad) (e : GraphStream) : Bool :=
  s.runsBlock e.ctx (g.graph.block e.src)
    && !((s.slotAt e.ctx).eng.flying.any fun c => c.started && epType c.ep0 == 2 && epPort c.ep0 == epPort e.ep0.toNat)
    && !((s.slotAt e.dctx).eng.flying.any fun c => c.started && epType c.ep1 == 2 && epPort c.ep1 == e.inPort)
/-- R278: the stream of an edge is bound to output port p of a slot. -/
def State.edgeTakes (s : State) (ctx p : Nat) : Bool :=
  s.graphs.any fun g => g.streams.any fun e => e.ctx == ctx && epPort e.ep0.toNat == p && s.edgeBound g e
/-- R279, R176: the head token of a stream's output port, a value or a marker, goes to its input port, with its last-element mark: by the port
itself in one quadrant, over the fabric to another. After a rollback it takes again what it has passed on, and passes it on no more (R338). -/
def State.edgePasses (s : State) (k j : Nat) : Option State :=
  (s.graphs[k]?).bind fun g =>
    (g.streams[j]?).bind fun e =>
      let l := s.slotAt e.ctx
      let out := epPort e.ep0.toNat
      if !s.edgeBound g e || !s.runsBlock e.dctx (g.graph.block e.dst) then none
      else
        match l.quad.outHeads out with
        | [] => none
        | (t, _) :: _ =>
          let gone := s.setSlot e.ctx fun l => ({ l with quad := l.quad.edgeTake out t } : Slot).cutCheck e.ctx (s.acOf e.ctx)
          let room := if e.ctx = e.dctx then l.quad.portRoom e.inPort else s.remoteRoom e.dctx e.inPort
          if l.quad.edgePassed out then some gone
          else if !room then none
          else if e.ctx = e.dctx then some (gone.sendPort e.ctx e.inPort { t with tag := 0 } (4097 + k, j) 0)
          else
            some { gone with remotes := gone.remotes ++
              [⟨4097 + k, j, e.dctx, e.inPort, epRemoteCpl e.ep1.toNat, { t with tag := 0 }, none, none⟩] }
/-- A stream of a loaded graph passes on a token, if it can. -/
def State.edgeMove (s : State) (k j : Nat) : State := (s.edgePasses k j).getD s

end Sys2Proof.Machine
end

