-- ==== Sys2Proof/Machine/Packets.lean ====
section
/-! DEFINITION. Launch packets, declaration blocks, their checks, sessions and the enqueue of a record (spec/16 R373 to R380, R384, spec/17
R395, R396, spec/21 R450, spec/22 R465). -/

namespace Sys2Proof.Machine

/-! ### Launch packets (R373 to R375, R465) -/

/-- Word k of a packet, or of a declaration block. -/
def wordOf (ws : List Nat) (k : Nat) : Nat := (ws[k]?).getD 0
/-- n words of physical memory. -/
def State.memWords (s : State) (a n : Nat) : List Nat := (List.range n).map fun k => s.memWord (a + 8 * k)
/-- R373: the packet in 32 words; the fields that VER 0x01 lacks take the values of R465. -/
def Packet.ofWords (ws : List Nat) : Packet :=
  let w := wordOf ws
  let hdr := w 0
  let old := bitsOf hdr 15 8 == 1
  let res := w 12
  { tag := bitsOf hdr 63 48
    irq := hdr.testBit 23
    late := hdr.testBit 22 && !old
    startv := hdr.testBit 21 && !old
    order := bitsOf hdr 19 18
    cls := bitsOf hdr 17 16
    ver := bitsOf hdr 15 8
    code := w 1 % 2 ^ 52
    bound := w 2 % 2 ^ 32
    entry := w 2 / 2 ^ 32
    block := if (w 3).testBit 63 then some (w 3 % 2 ^ 32) else none
    cfgtab := w 4 % 2 ^ 32
    dims := [w 5 % 2 ^ 32, w 5 / 2 ^ 32, w 6 % 2 ^ 32, w 6 / 2 ^ 32]
    deadline := w 7
    start := w 8
    image := w 9 % 2 ^ 52
    imglen := w 10 % 2 ^ 32
    arg := w 10 / 2 ^ 32
    decl := w 11 % 2 ^ 52
    jnl := if old then 0 else bitsOf res 57 48
    slip := if old then 0 else bitsOf res 47 39
    pes := bitsOf res 38 32
    chb := bitsOf res 31 25
    evt := bitsOf res 24 19
    cmds := bitsOf res 18 10
    ts := res % 2 ^ 10
    comp0 := w 13
    comp1 := w 14
    sess := [w 15 % 2 ^ 32, w 15 / 2 ^ 32, w 16 % 2 ^ 32, w 16 / 2 ^ 32]
    asid := w 17 % 2 ^ 16
    user0 := w 28
    user1 := w 29 }
/-- R378, R151: a reserved bit of a completion event word is set; what stands beside V in place of a TYPE is not looked at (DEDUCED, log 110). -/
def compReserved (w : Nat) : Bool := w.testBit 48 || bitsOf w 35 5 != 0
/-- R373 to R375, R378, R465: a reserved bit of the packet is set. -/
def packetReserved (ws : List Nat) : Bool :=
  let w := wordOf ws
  let old := bitsOf (w 0) 15 8 == 1
  bitsOf (w 0) 47 24 != 0 || (w 0).testBit 20 || w 1 / 2 ^ 52 != 0 || bitsOf (w 3) 62 32 != 0 || w 4 / 2 ^ 32 != 0
    || compReserved (w 13) || compReserved (w 14) || w 9 / 2 ^ 52 != 0 || w 11 / 2 ^ 52 != 0 || w 12 / 2 ^ 58 != 0 || w 17 / 2 ^ 16 != 0
    || ((List.range 10).any fun k => w (18 + k) != 0)
    || (old && (bitsOf (w 12) 57 39 != 0 || bitsOf (w 0) 22 21 != 0))
/-- R373, R379: the packet is malformed: KIND, a reserved bit, DIMS, ORDER or an alignment (R110 for BOUND). -/
def packetMalformed (ws : List Nat) : Bool :=
  let p := Packet.ofWords ws
  wordOf ws 0 % 256 != 1 || packetReserved ws || (p.ver == 1 && decide (2 ≤ p.order))
    || p.dims.any (fun n => decide (n < 1) || decide (2 ^ 24 < n)) || decide (2 ^ 24 < p.tasks)
    || p.code % 65536 != 0 || p.entry % 4 != 0 || decide (p.bound ≤ p.entry) || p.bound % 64 != 0
    || p.cfgtab % 16 != 0
    || p.image % 64 != 0 || p.imglen % 64 != 0 || p.arg % 8 != 0 || p.decl % 64 != 0
/-- R375: the needs of a task exceed a slot's share. -/
def Packet.tooMuch (p : Packet) : Bool :=
  decide (512 < p.jnl) || decide (256 < p.slip) || decide (64 < p.pes) || decide (64 < p.chb) || decide (32 < p.evt)
    || decide (256 < p.cmds) || decide (512 < p.ts) || decide (p.ts * 1024 < p.imglen + p.jnl * 1024)
    || decide (p.ts * 1024 < p.arg + 16)

/-! ### Declaration blocks (R376, R377, R395, R396) -/

def declBytes (ver : Nat) : Nat := if ver = 1 then 576 else 704
/-- R377: region k of a declaration block. -/
def declRegion (ws : List Nat) (old : Bool) (k : Nat) : DeclRegion :=
  let w j := wordOf ws (8 + 4 * k + j)
  let f := w 2
  { va := w 0 % 2 ^ 57
    len := w 1
    sid := if f.testBit 3 && !old then f / 2 ^ 32 else 0
    eng := if f.testBit 4 && !old then some (bitsOf f 12 5) else none
    sess := f.testBit 3 && !old
    wr := f.testBit 1
    rd := f.testBit 0 }
/-- R395: set j of a declaration block. -/
def declSet (ws : List Nat) (j : Nat) : Option DeclSet :=
  let w0 := wordOf ws (72 + 2 * j)
  let w1 := wordOf ws (73 + 2 * j)
  if w0.testBit 63 then some ⟨bitsOf w0 59 56, bitsOf w0 52 48, w0 % 2 ^ 48, w1 % 2 ^ 32⟩ else none
/-- R376: the block in 88 words. -/
def Decl.ofWords (ws : List Nat) (ver : Nat) : Decl :=
  let h := wordOf ws 0
  { grantPkg := h.testBit 45
    grantSame := h.testBit 44
    nfilt := bitsOf h 43 40
    objects := [h % 256, bitsOf h 15 8, bitsOf h 23 16, bitsOf h 31 24, bitsOf h 39 32]
    regions := (List.range 16).map (declRegion ws (ver == 1))
    sets := (List.range 8).map fun j => if ver = 1 then none else declSet ws j }
/-- Barrier objects of the scopes 1 to 5 (R376). -/
def objectLimits : List Nat := [16, 16, 64, 64, 32]
/-- R376: the head breaks its layout. -/
def headBad (ws : List Nat) : Bool :=
  let d := Decl.ofWords ws 2
  wordOf ws 0 / 2 ^ 46 != 0 || (List.range 7).any (fun k => wordOf ws (1 + k) != 0) || decide (8 < d.nfilt)
    || (d.objects.zip objectLimits).any fun (n, m) => decide (m < n)
/-- R377, R465: a region entry breaks its layout, or names a session that the packet does not. -/
def regionBad (ws : List Nat) (p : Packet) (k : Nat) : Bool :=
  let w j := wordOf ws (8 + 4 * k + j)
  let f := w 2
  let r := declRegion ws (p.ver == 1) k
  let absent := w 1 == 0
  bitsOf f 31 13 != 0 || f.testBit 2 || w 3 != 0 || (p.ver == 1 && bitsOf f 12 3 != 0)
    || (!absent && (w 1 % 65536 != 0 || decide (2 ^ 48 ≤ w 1)
      || (!r.sess && (w 0 / 2 ^ 57 != 0 || w 0 % 65536 != 0)) || (r.sess && (r.sid == 0 || !p.sess.contains r.sid))))
/-- The bytes that a set covers in its region. -/
def DeclSet.stop (t : DeclSet) : Nat := t.base + t.count * 2 ^ t.log2g
/-- R396: a set descriptor is refused. -/
def setBad (ws : List Nat) (d : Decl) (j : Nat) : Bool :=
  match declSet ws j with
  | none => false
  | some t =>
    let w0 := wordOf ws (72 + 2 * j)
    let w1 := wordOf ws (73 + 2 * j)
    let r := (d.regions[t.region]?).getD {}
    bitsOf w0 62 60 != 0 || bitsOf w0 55 53 != 0 || w1 / 2 ^ 32 != 0 || decide (t.log2g < 6) || decide (20 < t.log2g)
      || t.base % 64 != 0 || t.count == 0 || r.len == 0 || decide (r.len < t.stop)
      || (List.range j).any fun i =>
        match declSet ws i with
        | some u => u.region == t.region && decide (u.base < t.stop) && decide (t.base < u.stop)
        | none => false
/-- R376, R377, R396: the declaration block is malformed. -/
def declMalformed (ws : List Nat) (p : Packet) : Bool :=
  let d := Decl.ofWords ws p.ver
  headBad ws || (List.range 16).any (regionBad ws p)
    || (p.ver != 1 && (List.range 8).any (setBad ws d)) || (d.sets.any Option.isSome != (p.jnl != 0))

/-! ### What storage is served (R467) -/

/-- The die whose storage holds an address (R319, R320). -/
def dieOfAddr (a : Nat) : Nat := if inL2 a then (a - 2 ^ 51) / 2 ^ 22 / 96 else a / 2 ^ 36 % 16 / 4
/-- R467: a die's storage is served. -/
def State.l2Served (s : State) (die : Nat) : Bool := decide ((if die = 0 then 1 else 2) ≤ (s.die die).stage)
/-- R467: the die whose storage holds an address serves it. -/
def State.servedAddr (s : State) (a : Nat) : Bool :=
  if inL2 a then s.l2Served (dieOfAddr a) else decide (2 ≤ (s.die (dieOfAddr a)).stage)
/-- A run of bytes, by its 64 KiB frames. -/
def State.servedRun (s : State) (a n : Nat) : Bool :=
  n = 0 || ((List.range ((a + n - 1) / 65536 + 1 - a / 65536)).all fun k => s.servedAddr ((a / 65536 + k) * 65536))

/-! ### Pinned sessions (R450) -/

def pinnedLimit : Nat := 2 ^ 30
/-- The 64 KiB units of L2 of a die, tiles in ascending m. -/
def l2Units (die : Nat) : List Nat :=
  (List.range 96).flatMap fun m => (List.range 48).map fun k => 2 ^ 51 + 2 ^ 22 * (96 * die + m) + 65536 * k
/-- The units of a die's L2 that no session holds, system software has not taken, and no invalidation under way empties or fills (R330). -/
def State.freeL2 (s : State) (die : Nat) : List Nat :=
  if !s.l2Served die then []
  else (l2Units die).filter fun a => !s.taken.contains a
    && !(s.invalids.any fun v => (v.old :: v.new.toList).any fun f => decide (f < a + 65536) && decide (a < f + v.size))
    && !(s.sessions.any fun x => x.exts.any fun e => decide (e.pa ≤ a) && decide (a < e.pa + e.len))
/-- Units in ascending order as extents. -/
def unitsToExts (us : List Nat) : List Extent :=
  unitExtents (us.map fun a => (⟨65536, some a, 0, false, true, false⟩ : PUnit))
/-- R450: the die with the most free L2, then the lowest. -/
def State.sessionDie (s : State) : Nat :=
  (List.range 4).foldl (fun b d => if (s.freeL2 b).length < (s.freeL2 d).length then d else b) 0
def Session.pinned (ss : List Session) : Nat := (ss.map (·.len)).sum
/-- R450, R467: a session of a region: it exists with that length, or is created and zero-filled. Else whether the record is refused: it
is not where a die whose L2 is not served yet may have room. -/
def State.pin (s : State) (sid len : Nat) : Except Bool State :=
  match s.sessions.find? fun x => x.sid == sid with
  | some x => if x.len = len then .ok s else .error true
  | none =>
    let us := (s.freeL2 s.sessionDie).take (len / 65536)
    let exts := unitsToExts us
    if pinnedLimit < Session.pinned s.sessions + len then .error true
    else if us.length < len / 65536 ∨ 32 < exts.length then .error ((List.range 4).all s.l2Served)
    else
      .ok { s with
        sessions := s.sessions ++ [⟨sid, len, exts⟩]
        mem := exts.foldl (fun m e => clearBytes m e.pa e.len) s.mem
        badWords := s.badWords.filter fun a => !(exts.any fun e => decide (e.pa ≤ a) && decide (a < e.pa + e.len)) }
def State.pinAll (s : State) : List DeclRegion → Except Bool State
  | [] => .ok s
  | r :: rs =>
    if r.sess && r.len != 0 then
      match s.pin r.sid r.len with
      | .ok t => t.pinAll rs
      | .error refused => .error refused
    else s.pinAll rs

/-! ### Enqueue (R362, R379, R386) -/

/-- The words of a packet's declaration block. -/
def State.declWords (s : State) (p : Packet) : List Nat := s.memWords p.decl 88
/-- R467: a packet's declaration block is served. -/
def State.declServed (s : State) (p : Packet) : Bool := s.servedRun p.decl (declBytes p.ver)
/-- R379: the code for which a packet is refused before its sessions are pinned; IMAGE must be backed even where IMGLEN is 0
(DEDUCED, log 69). A declaration block that is not served is not looked at (R467). -/
def State.packetRefused (s : State) (ws : List Nat) : Option Nat :=
  let p := Packet.ofWords ws
  let declOk := backedRun p.decl (declBytes p.ver)
  if p.ver ≠ 1 ∧ p.ver ≠ 2 then some 0x11
  else if packetMalformed ws || (declOk && s.declServed p && declMalformed (s.declWords p) p) then some 0x10
  else if p.tooMuch then some 0x12
  else if !backedRun p.code p.bound || !backed p.image || !backedRun p.image p.imglen || !declOk then some 0x13
  else none
/-- R376, R450, R467: the declaration of a packet, with its sessions pinned; else the code for which the packet is refused, or 0 where what
it needs is not served yet. -/
def State.declared (s : State) (p : Packet) : Except Nat (State × Decl) :=
  if !s.declServed p then .error 0
  else if declMalformed (s.declWords p) p then .error 0x10
  else
    let d := Decl.ofWords (s.declWords p) p.ver
    match s.pinAll d.regions with
    | .ok t => .ok (t, d)
    | .error refused => .error (if refused then 0x14 else 0)
/-- R362: the EPOCH that the next record gets. -/
def State.nextEpoch (s : State) : Nat :=
  let q := s.stc / 2 ^ 16 % 2 ^ 30
  if s.last < q then q else (s.last + 1) % 2 ^ 30
/-- R386: a record is accepted, or refused with a code; die is the one that spawned it (R384). One whose needs are not served yet is
accepted, and looked at again once they are (R467; DEDUCED, log 105). -/
def State.enqueue (s : State) (ws : List Nat) (host : Option (Nat × Nat)) (die : Option Nat) (rack : Bool) : State × Option Nat :=
  let p := Packet.ofWords ws
  let refuse (code : Nat) : State × Option Nat := (s.completeRecord p host (code * 256), some code)
  let accept (t : State) (d : Decl) (await : Bool) : State × Option Nat :=
    let epoch := s.nextEpoch
    let r : Record :=
      { pkt := p, decl := d, host := host, rack := rack, die := die, enqueued := s.stc, pkg := s.pkgId, await := await }
    ({ t with
      last := epoch
      records := aset epoch r t.records }, none)
  match s.packetRefused ws with
  | some code => refuse code
  | none =>
    match s.declared p with
    | .ok (t, d) => accept t d false
    | .error 0 => accept s {} true
    | .error code => refuse code
/-- R467: the first record whose needs have come to be served is looked at: it is granted its sessions, or it completes with the code for
which it is refused. -/
def State.lookAgain (s : State) : Option State :=
  s.records.findSome? fun (epoch, r) =>
    if !r.await then none
    else
      match s.declared r.pkt with
      | .ok (t, d) => some { t with records := aset epoch { r with decl := d, await := false } t.records }
      | .error 0 => none
      | .error code => some (({ s with records := adel epoch s.records } : State).completeRecord r.pkt r.host (code * 256))

/-! ### Enqueue packets (R384) -/

/-- R384: a packet of eight words breaks its layout. -/
def enqMalformed (es : List Nat) : Bool :=
  let e := wordOf es
  e 0 % 256 != 2 || bitsOf (e 0) 47 23 != 0 || bitsOf (e 0) 20 19 != 0 || e 1 / 2 ^ 52 != 0 || e 1 % 64 != 0 || e 7 != 0
/-- Bits hi to lo of a word replaced. -/
def setBits (v hi lo x : Nat) : Nat := v - bitsOf v hi lo * 2 ^ lo + x % 2 ^ (hi - lo + 1) * 2 ^ lo
/-- R384: the template with the packet's fields in place of its own. -/
def overlay (ts es : List Nat) : List Nat :=
  let e := wordOf es
  let h := setBits (wordOf ts 0) 63 48 (bitsOf (e 0) 63 48)
  let h := if (e 0).testBit 18 then setBits h 17 16 (bitsOf (e 0) 17 16) else h
  let startv := (e 0).testBit 21
  let h := if startv then setBits h 22 21 (bitsOf (e 0) 22 21) else h
  let d := wordOf ts 5
  let n0 := if e 4 % 2 ^ 32 = 0 then d % 2 ^ 32 else e 4 % 2 ^ 32
  let n1 := if e 4 / 2 ^ 32 = 0 then d / 2 ^ 32 else e 4 / 2 ^ 32
  let ts := ts.set 0 h
  let ts := if e 2 = 0 then ts else ts.set 7 (e 2)
  let ts := if startv then ts.set 8 (e 3) else ts
  ((ts.set 5 (n0 + n1 * 2 ^ 32)).set 28 (e 5)).set 29 (e 6)
/-- R467: the template that an enqueue packet names is served, or no storage holds it. -/
def State.templateServed (s : State) (words : List Word) : Bool :=
  let lpa := wordOf (words.map (·.toNat)) 1 % 2 ^ 52
  !backedRun lpa 256 || s.servedRun lpa 256
/-- R384: the record of an enqueue packet is formed, or completes with a refusal code. A template that no storage holds is refused as one
whose code is unbacked (DEDUCED, log 35). -/
def State.formRecord (s : State) (words : List Word) (die : Option Nat) : State :=
  let es := words.map (·.toNat)
  let lpa := wordOf es 1 % 2 ^ 52
  let ts := s.memWords lpa 32
  let ws := overlay ts es
  let fail (code : Nat) : State := s.completeRecord (Packet.ofWords ws) none (code * 256)
  if bitsOf (wordOf es 0) 15 8 ≠ 2 then fail 0x11
  else if enqMalformed es then fail 0x10
  else if !backedRun lpa 256 then fail 0x13
  else (s.enqueue ws none die false).1

/-! ### Enumeration (R380) -/

/-- Row-major counters of an ordinal. -/
def unrank : List Nat → Nat → List Nat
  | [], _ => []
  | _ :: ns, o => let m := ns.foldl (· * ·) 1; o / m :: unrank ns (o % m)
/-- Serpentine: a dimension runs backwards when the rank of those before it is odd. -/
def serpent (rank : Nat) : List Nat → List Nat → List Nat
  | n :: ns, j :: js => (if rank % 2 = 1 then n - 1 - j else j) :: serpent (rank * n + j) ns js
  | _, _ => []
/-- Ids of an extent n whose bits from k up are those of p. -/
def underPrefix (n k p : Nat) : Nat := min n ((p + 1) * 2 ^ k) - min n (p * 2 ^ k)
/-- Morton: the codes whose bits from (b, d) up are given, for the extents ns: ps holds the bits of each id from b or b + 1 up. -/
def mortonCount (ns ps : List Nat) (b d : Nat) : Nat :=
  ((List.range 4).map fun i => underPrefix (wordOf ns i) (if d ≤ i then b else b + 1) (wordOf ps i)).foldl (· * ·) 1
/-- Morton: the ids of an ordinal, bit by bit from the highest; n counts the bits to come. -/
def mortonFrom (ns : List Nat) : Nat → Nat → List Nat → List Nat
  | 0, _, ps => ps
  | n + 1, o, ps =>
    let d := n % 4
    let zero := ps.set d (wordOf ps d * 2)
    let c := mortonCount ns zero (n / 4) d
    if o < c then mortonFrom ns n o zero else mortonFrom ns n (o - c) (ps.set d (wordOf ps d * 2 + 1))
/-- R380: the iteration at an ordinal. -/
def Packet.iteration (p : Packet) (o : Nat) : List Nat :=
  match p.order with
  | 0 => unrank p.dims o
  | 1 => (unrank p.dims.reverse o).reverse
  | 2 => mortonFrom p.dims 100 o [0, 0, 0, 0]
  | _ => serpent 0 p.dims (unrank p.dims o)
/-- R362: an age stamp. -/
def ageStamp (epoch ord pkg : Nat) : Word := BitVec.ofNat 64 (epoch % 2 ^ 30 * 2 ^ 34 + ord % 2 ^ 24 * 2 ^ 10 + pkg % 1024)

end Sys2Proof.Machine
end

