-- ==== Sys2Proof/Machine/Queues.lean ====
section
/-! DEFINITION. The queues of a package: host rings, enqueue queues and rack queues, and the registers that firmware writes (spec/16 R381 to
R385, spec/13 R321, R325, R327, R330). -/

namespace Sys2Proof.Machine

/-! ### Host queues (R382, R383) -/

def State.hostQueue (s : State) (q : Nat) : HostQueue := aget {} q s.hostQueues
def State.setHost (s : State) (q : Nat) (f : HostQueue → HostQueue) : State :=
  { s with hostQueues := amod {} q f s.hostQueues }
/-- R382: TAIL takes a value, and is checked. -/
def HostQueue.setTail (h : HostQueue) (v : Nat) : HostQueue :=
  { h with
    tail := v % 2 ^ 32
    err := h.err || decide (2 ^ h.m < (v + 2 ^ 32 - h.head) % 2 ^ 32) }
/-- R382: a place of the bridge window: the package of the bridge group, the queue and the register's offset. -/
def windowPkg (o : Nat) : Nat := o / 2 ^ 21
def windowQueue (o : Nat) : Nat := o % 2 ^ 21 / 64
def windowReg (o : Nat) : Nat := o % 64
/-- R382: the bridge window's size. -/
def windowBytes : Nat := 2 ^ 26
/-- R382, R383: TAIL of a queue is written; the write to a queue that is switched out lands in the shadow. -/
def State.writeTail (s : State) (q v : Nat) : State :=
  s.setHost q fun h => if h.inn then h.setTail v else { h with shadow := v % 2 ^ 32 }
/-- TAIL (R360, R382, R383): a write at an offset of the bridge window, by the host, or as the group's bridge carries it here; only TAIL is
writable. A write for another package of the group is carried over UALink by the bridge, and the host port of another device is
disabled. -/
def execTail (offset : Nat) (value : Nat) (s : State) : Res :=
  orStay s (
    if windowBytes ≤ offset || windowReg offset != 0 || decide (256 ≤ windowQueue offset) then none
    else if windowPkg offset = s.groupIndex then some (s.writeTail (windowQueue offset) value)
    else if s.bridge && s.linked then some { s with sent := s.sent ++ [.window offset value] }
    else none)
/-- SWITCH_OUT (R383). -/
def execSwitchOut (queue : Nat) (s : State) : Res :=
  orStay s (
    if 256 ≤ queue || !(s.hostQueue queue).inn then none
    else some (s.setHost queue fun h => { h with
      inn := false
      shadow := h.tail
      saved := h.progress }))
/-- SWITCH_IN (R383): at most 64 host queues are switched in. -/
def execSwitchIn (queue : Nat) (s : State) : Res :=
  orStay s (
    if 256 ≤ queue || (s.hostQueue queue).inn || decide (64 ≤ (s.hostQueues.filter fun (_, h) => h.inn).length) then none
    else some (s.setHost queue fun h => { h.setTail h.shadow with inn := true }))
/-- R382: what a queue's register at an offset reads as. -/
def State.hostRead (s : State) (q off : Nat) : Nat :=
  let h := s.hostQueue q
  match off with
  | 0 => if h.inn then h.tail else h.shadow
  | 8 => if h.inn then h.progress else h.saved + 2 ^ 63
  | 16 => bitIf h.inn 0 + bitIf h.err 1
  | _ => 0

/-- R469: compute tiles that are retired. -/
def State.retiredTiles (s : State) : Nat := (s.retired.filter fun p => match p with | .tile _ => true | _ => false).length
/-- Bits by die. -/
def State.dieBits (s : State) (f : Die → Nat) (w : Nat) : Nat := packFields w (s.dies.map f)
/-- R469: the package status word. -/
def State.statusWord (s : State) : Nat :=
  s.dieBits (fun d => if d.canon then 1 else 0) 1 * 2 ^ 32 + min 255 s.retiredTiles * 2 ^ 24
    + s.dieBits (fun d => if d.fail then 1 else 0) 1 * 2 ^ 20 + s.dieBits (·.stage) 2 * 2 ^ 8
    + bitIf s.linked 1 + bitIf (decide (1 ≤ (s.die 0).stage)) 0
/-- R360, R382, R469: what the host reads at an offset of the bridge window: a queue's register or the package status word; in the part of
another package of the group, whose registers hold what that package has put there, a free value; absent where the host port is disabled. -/
def State.windowRead (s : State) (offset : Nat) : Option Nat :=
  if !s.bridge || decide (windowBytes ≤ offset) then none
  else if windowPkg offset ≠ s.groupIndex then some (Config.peerRead s.stc false (windowPkg offset) (offset % 2 ^ 21))
  else if offset % 2 ^ 21 = 0x1F0000 then some s.statusWord
  else if windowQueue offset < 256 then some (s.hostRead (windowQueue offset) (windowReg offset))
  else none
/-- R360: the 64 KiB page of the aperture that an offset lies in, as firmware has mapped it: the package of the group and the frame. -/
def State.aperturePage (s : State) (offset : Nat) : Option (Nat × Nat) :=
  (s.aperture.find? fun (k, _, _) => k == offset / 65536).map fun (_, p, f) => (p, f)

/-- R360: what the host reads of a byte of the aperture: HBM of this package, or of another of the group, a free value; absent where firmware
maps no page, nor any storage is. -/
def State.apertureRead (s : State) (offset : Nat) : Option Nat :=
  if !s.bridge || decide (2 ^ 36 ≤ offset) then none
  else
    (s.aperturePage offset).bind fun (p, f) =>
      let a := f + offset % 65536
      if p ≠ s.groupIndex then some (Config.peerRead s.stc true p a)
      else if backed a then some (getByte s.mem a).toNat
      else none

/-! ### Rack queues (R381, R385) -/

/-- The 32 words of a packet that arrives whole. -/
def packetWords (packet : Nat) : List Nat := (List.range 32).map fun k => packet / 2 ^ (64 * k) % 2 ^ 64
/-- Compute nodes of the package. -/
def allNodes : List Nat := (List.range 4).flatMap dieNodes
/-- R385, R390: slots that a class could have: the free ones, and, for realtime and interactive, those of running tasks of lower classes
that do not commit. -/
def State.slotsFor (s : State) (cls : Nat) : Nat :=
  s.freeSlots allNodes
    + if 2 ≤ cls then 0
      else (s.slots.filter fun (_, l) => l.stage == .running && l.task.isSome && !l.core.commit && decide (cls < l.pkt.cls)).length
/-- R385: packets that wait in host queues. -/
def HostQueue.waiting (h : HostQueue) : Nat := (h.tail + 2 ^ 32 - h.head) % 2 ^ 32
/-- R386: how far behind the newest an EPOCH stands, the oldest least. -/
def State.epochRank (s : State) (epoch : Nat) : Nat := (epoch + 2 ^ 30 - (s.last + 1) % 2 ^ 30) % 2 ^ 30
/-- A list in rising order of a key. -/
def insertBy {α : Type} (key : α → Nat) (x : α) : List α → List α
  | [] => [x]
  | y :: ys => if key x ≤ key y then x :: y :: ys else y :: insertBy key x ys
def sortBy {α : Type} (key : α → Nat) (xs : List α) : List α := xs.foldr (insertBy key) []
/-- R391: the tasks of a record that are not yet handed, nor aborted. -/
def Record.left (r : Record) : Nat := r.pkt.tasks - r.handed - (r.aborted.filter fun o => decide (r.handed ≤ o)).length
/-- R385: the tasks that wait at the dispatchers of the dies and of the package. -/
def State.tasksWaiting (s : State) : Nat := (s.dies.map Die.waiting).sum + (s.records.map fun (_, r) => r.left).sum
/-- R385: a residency report. -/
def State.report (s : State) (tag acc code : Nat) : List Word :=
  let tags := ((sortBy (fun x => s.epochRank x.1) s.records).map fun (_, r) => r.pkt.tag).take 32
  let w (n : Nat) : Word := BitVec.ofNat 64 n
  let four (l : List Nat) : Word := w (packFields 16 l)
  let padded := tags ++ List.replicate (32 - tags.length) 0
  [w (tag * 2 ^ 48 + acc * 2 ^ 40 + code * 2 ^ 32 + s.pkgId % 1024 * 2 ^ 22 + 2 * 256 + 3), w s.stc,
    four ((List.range 4).map fun c => min 0xFFFF (s.slotsFor c)),
    w (min 0xFFFF s.records.length + min 0xFFFFFFFF s.tasksWaiting * 65536)]
    ++ (List.range 8).map (fun k => four (padded.drop (4 * k) |>.take 4))
    ++ [w (min 0xFFFF s.sessions.length + Session.pinned s.sessions / 2 ^ 20 % 65536 * 65536),
      w ((s.hostQueues.map fun (_, h) => h.waiting).sum % 2 ^ 32 + (s.enqQueues.map fun (_, q) => q.packets.length).sum * 2 ^ 32),
      w ((s.rackQueues.map fun (_, q) => q.length).sum), 0]
def State.sendReport (s : State) (tag acc code : Nat) : State := { s with sent := s.sent ++ [.report (s.report tag acc code)] }
/-- RACK_PACKET_ARRIVAL (R381, R385, R467): a packet reaches a rack queue, or is answered as refused where the queue is full. -/
def execRackPacketArrival (queue : Nat) (packet : Nat) (s : State) : Res :=
  orStay s (
    let q := aget [] queue s.rackQueues
    if queue < 512 || decide (544 ≤ queue) || !s.linked then none
    else if 64 ≤ q.length then some (s.sendReport (bitsOf (packet % 2 ^ 64) 63 48) 1 0)
    else some { s with rackQueues := aset queue (q ++ [packet % 2 ^ 2048]) s.rackQueues })

/-! ### Fetch (R382, R384, R385) -/

/-- R382: the next packet of a host ring. -/
def State.fetchHost (s : State) (q : Nat) : Option State :=
  let h := s.hostQueue q
  let a := h.ring + 256 * (h.head % 2 ^ h.m)
  if !h.inn || h.err || h.head == h.tail || !backedRun a 256 || !s.servedRun a 256 then none
  else
    let ws := s.memWords a 32
    some ((s.setHost q fun h => { h with head := (h.head + 1) % 2 ^ 32 }).enqueue ws (some (q, h.head)) none false).1
/-- R385: the next packet of a rack queue; the answer tells whether it was accepted. -/
def State.fetchRack (s : State) (q : Nat) : Option State :=
  match aget [] q s.rackQueues with
  | [] => none
  | p :: rest =>
    let ws := packetWords p
    let (t, code) := ({ s with rackQueues := aset q rest s.rackQueues } : State).enqueue ws none none true
    let tag := bitsOf (wordOf ws 0) 63 48
    some (match code with
      | none => t.sendReport tag 0 0
      | some c => t.sendReport tag 2 c)
/-- PACKET_FETCH (R382, R385). -/
def execPacketFetch (queue : Nat) (s : State) : Res :=
  orStay s (
    if (s.die 0).stage = 0 then none
    else if queue < 256 then s.fetchHost queue
    else if 512 ≤ queue ∧ queue < 544 then s.fetchRack queue
    else none)

/-! ### Enqueue packets (R250, R251, R384) -/

/-- R237: an acknowledgement reaches its task; one whose task is off its slot waits, and one whose task is gone is dropped. -/
def State.postAck (s : State) (age : Word) (result k : Nat) : Option State :=
  match s.slotOf age with
  | some ctx => if (s.slotAt ctx).core.stsRoom then some (s.setCoreAt ctx (·.postSts (ackAnswer result k))) else none
  | none => if s.savedTasks.any fun w => w.task.age == age then none else some s
/-- Packet k on its way: a spawned one forms its record at its die at once, and its acknowledgement goes back; another is placed in its
queue, where its place was granted before it was sent (R357). -/
def State.enqArrives (s : State) (k : Nat) (e : Enq) : Option State :=
  let gone := { s with enqs := ldel k s.enqs }
  let ack (t : State) (result : Nat) : Option State :=
    match e.ack with
    | some (age, n) => t.postAck age result n
    | none => some t
  if e.words.isEmpty then ack gone 0
  else
    match e.spawn with
    | some d =>
      if !s.templateServed e.words then none else
      let t := { s with enqs := lmod k (fun e => { e with words := [] }) s.enqs }
      some (t.formRecord e.words (some d))
    | none => (ack gone 0).map fun t => t.intoQueue { e with ack := none }
/-- ENQUEUE_PACKET_ARRIVAL (R384): packet k on its way arrives; beyond those, the first packet of an enqueue queue, counted from 256, is read
and forms its record. -/
def execEnqueuePacketArrival (k : Nat) (s : State) : Res :=
  orStay s (
    match s.enqs[k]? with
    | some e => s.enqArrives k e
    | none =>
      let q := 256 + (k - s.enqs.length)
      match (aget ({} : EnqQueue) q s.enqQueues).packets with
      | [] => none
      | e :: rest =>
        if !s.templateServed e.words then none else
        let t := { s with enqQueues := amod {} q (fun x : EnqQueue => { x with packets := rest }) s.enqQueues }
        some (t.formRecord e.words none))

/-! ### Registers that firmware and the package manager write -/

/-- A count that a limit register takes: 1 to 2^32 − 1. -/
def limitOk (v : Nat) : Bool := decide (1 ≤ v) && decide (v < 2 ^ 32)
/-- R450: a run of bytes lies in part in a pinned session. -/
def State.holdsPinned (s : State) (a n : Nat) : Bool :=
  s.sessions.any fun x => x.exts.any fun e => decide (e.pa < a + n) && decide (a < e.pa + e.len)
/-- R330, R450: an invalidation is requested: the frames are aligned and backed, and hold no pinned session, which is never moved. -/
def State.requestInvalid (s : State) (v : Nat) : State :=
  let size := pageBytes s.invReq.2
  let old := if s.invReq.2 = 0 then s.frameNow s.invReq.1 else s.invReq.1
  let new := if v.testBit 63 then some (v % 2 ^ 52) else none
  let ok (f : Nat) : Bool := f % size == 0 && backedRun f size && !s.holdsPinned f size
  if ok old && (match new with | some f => ok f | none => true) then
    { s with
      invalids := s.invalids ++ [({ id := s.invNext, old := old, size := size, new := new } : Invalid)]
      invNext := s.invNext + 1 }
  else s
/-- The registers by number (DESIGN CHOICE, log 36): 0 to 3 the drain limits of the dies (R327), 4 the gating limit (R441), 5 GRACE (R390),
6 AGESTEP and 7 LEAD (R386), 8 a free frame (R325), 9 a unit of L2 taken, 10 and 11 the frame and page size of an invalidation, 12 its new frame
with bit 63 for a move (R330), 13 the address of an update's image (R470), 14 and 15 the package's place in its bridge group and whether its
host port is the group's (R360), 2^20 + k page k of the aperture, with the package in bits 56 to 52 and bit 63 for present (R360), 16 to 27 firmware base, bound and diagnostic enable by die (R111, R112), 28 the HBM that is
reserved for save records (R442), 4096 + q clears ERR (R382), 8192 + 4·q the ring base, m and vector of a host queue (R381), 16384 + q ACCEPT (R381), 65536 + the id of an address space its root (R321). -/
def State.setRegister (s : State) (reg v : Nat) : State :=
  if reg < 4 then if limitOk v then s.setDie reg fun d => { d with drainLimit := v } else s
  else if reg = 4 then if limitOk v then { s with gatingLimit := v } else s
  else if reg = 28 then if v % 64 = 0 ∧ v < 2 ^ 40 then { s with recordBase := v } else s
  else if reg = 5 then if v ≤ 2 ^ 20 then { s with grace := v } else s
  else if reg = 6 then if limitOk v then { s with ageStep := v } else s
  else if reg = 7 then { s with lead := v }
  else if reg = 8 then if v % 65536 = 0 ∧ v < 2 ^ 40 then { s with freeFrames := s.freeFrames ++ [v] } else s
  else if reg = 9 then { s with taken := v / 65536 * 65536 :: s.taken }
  else if reg = 10 then { s with invReq := (v % 2 ^ 52, s.invReq.2) }
  else if reg = 11 then { s with invReq := (s.invReq.1, v % 4) }
  else if reg = 12 then s.requestInvalid v
  else if reg = 13 then { s with update := v % 2 ^ 52 }
  else if reg = 14 then { s with groupIndex := v % 32 }
  else if reg = 15 then { s with bridge := v.testBit 0 }
  else if reg < 20 then s.setDie (reg - 16) fun d => { d with fwBase := v % 2 ^ 52 }
  else if reg < 24 then s.setDie (reg - 20) fun d => { d with fwBound := v % 2 ^ 32 }
  else if reg < 28 then s.setDie (reg - 24) fun d => { d with diagen := v.testBit 0 }
  else if 4096 ≤ reg ∧ reg < 4352 then s.setHost (reg - 4096) fun h => { h with err := false }
  else if 8192 ≤ reg ∧ reg < 9216 then
    s.setHost ((reg - 8192) / 4) fun h =>
      match reg % 4 with
      | 0 => { h with ring := v % 2 ^ 52 }
      | 1 => if 4 ≤ v ∧ v ≤ 16 then { h with m := v } else h
      | 2 => { h with vector := v % 2048 }
      | _ => h
  else if 16640 ≤ reg ∧ reg < 16896 then
    { s with enqQueues := amod {} (reg - 16384) (fun q : EnqQueue => { q with accept := v % 4 }) s.enqQueues }
  else if 65536 ≤ reg ∧ reg < 131072 then { s with roots := aset (reg - 65536) (v % 2 ^ 52) s.roots }
  else if 2 ^ 20 ≤ reg ∧ reg < 2 ^ 21 then
    let rest := s.aperture.filter fun (k, _, _) => k != reg - 2 ^ 20
    if v.testBit 63 && bitsOf v 51 0 % 65536 == 0 && decide (bitsOf v 51 0 < 2 ^ 40) then
      { s with aperture := rest ++ [(reg - 2 ^ 20, bitsOf v 56 52, bitsOf v 51 0)] }
    else { s with aperture := rest }
  else s
/-- REGISTER_WRITE (R327, R330, R381, R382, R386, R390, R441). -/
def execRegisterWrite (reg : Nat) (value : Nat) (s : State) : Res := .next (s.setRegister reg value)

/-! ### Counts from other packages, and sessions (R378, R451) -/

/-- REMOTE_EVENT_INCREMENT (R378, R449, R240): increment k from another package, or one that its event let wait, takes effect. -/
def execRemoteEventIncrement (k : Nat) (s : State) : Res :=
  orStay s ((s.increments[k]?).bind fun w =>
    if s.countWaits (remoteCtx w.toNat) (w.toNat % 32) then none
    else some (({ s with increments := ldel k s.increments } : State).deliverCount (remoteCtx w.toNat) (w.toNat % 32)))
/-- A declaration names a session. -/
def Decl.names (d : Decl) (sid : Nat) : Bool := d.regions.any fun r => r.sess && r.len != 0 && r.sid == sid
/-- R451, R373, R377: a record names a session in its packet or in its declaration. -/
def Packet.names (p : Packet) (sid : Nat) : Bool := sid != 0 && p.sess.contains sid
/-- SESSION_RELEASE (R451): once no enqueued record and no saved task names the session, its L2 is free. -/
def execSessionRelease (sid : Nat) (s : State) : Res :=
  orStay s (
    if !(s.sessions.any fun x => x.sid == sid) || (s.records.any fun (_, r) => r.decl.names sid || r.pkt.names sid)
        || s.savedTasks.any fun w => w.task.decl.names sid || w.task.pkt.names sid then none
    else some { s with sessions := s.sessions.filter fun x => x.sid != sid })

end Sys2Proof.Machine
end

