-- ==== Sys2Proof/Machine/Sched.lean ====
section
/-! DEFINITION. From record to running task: batches, the choice of a slot, binding, entry, deadlines and aborts (spec/16 R380, R386 to
R393, spec/21 R448, spec/23 R467). -/

namespace Sys2Proof.Machine

/-! ### Records that can be served (R376, R386, R467) -/

/-- R384, R376: a record's tasks may occupy a die. -/
def Record.reaches (r : Record) (d : Nat) : Bool := r.die.isNone || r.die == some d
/-- The nodes at which tasks of a record have slots. -/
def State.slotNodes (s : State) (epoch : Nat) : List Nat :=
  (s.slots.filter fun (_, l) => (l.task.map (·.epoch)) == some epoch).map fun (c, _) => nodeOf c
/-- A task of a record waits at a die, for its first slot, saved or drained. -/
def Die.holdsTask (d : Die) (epoch : Nat) : Bool := (d.queues.flatten ++ d.drained).any fun w => w.task.epoch == epoch
/-- R376: the tasks of a granted record occupy the instance of a scope (k = 0 for `.tile`) in which a node of a die lies, or may come to:
while tasks are to be handed out, or wait at that die. `.pkg` and `.pod` (k from 3) have one instance for all. -/
def State.occupies (s : State) (epoch : Nat) (r : Record) (d k n : Nat) : Bool :=
  r.granted
    && (decide (3 ≤ k) || (r.reaches d && decide (0 < r.left)) || (s.die d).holdsTask epoch
      || (s.slotNodes epoch).any fun m => scopePlace (k + 1) m == scopePlace (k + 1) n)
/-- R376: objects of a scope that granted records hold in the instance in which a node of a die lies. -/
def State.objectsHeld (s : State) (d k n : Nat) : Nat :=
  ((s.records.filter fun (e, r) => s.occupies e r d k n).map fun (_, r) => wordOf r.decl.objects k).sum
/-- R347: filter ids that no resident record has. -/
def State.freeFilters (s : State) : List Nat :=
  ((List.range 255).map (· + 1)).filter fun f => !(s.records.any fun (_, r) => r.filters.contains f)
/-- R376, R347, R13: the grants of a record can be met: every instance of a scope that its tasks may occupy has objects enough (DEDUCED, log
37). -/
def State.grantsMet (s : State) (r : Record) : Bool :=
  r.granted || (decide (r.decl.nfilt ≤ s.freeFilters.length)
    && ((List.range 4).filter r.reaches).all fun d =>
      (dieNodes d).all fun n => (numbered 0 objectLimits).all fun (k, m) =>
        wordOf r.decl.objects k == 0 || decide (s.objectsHeld d k n + wordOf r.decl.objects k ≤ m))
/-- R467: a run of bytes is served to a die: to D0 in stage 1 only L2 of D0. -/
def State.servedTo (s : State) (d a n : Nat) : Bool :=
  if d == 0 && (s.die 0).stage == 1 then n == 0 || (inL2 a && dieOfAddr a == 0 && inL2 (a + n - 1) && dieOfAddr (a + n - 1) == 0)
  else s.servedRun a n
/-- R467: a region of a record is served to a die. -/
def State.regionServed (s : State) (d : Nat) (p : Packet) (x : DeclRegion) : Bool :=
  if x.sess then
    x.len == 0 || ((s.sessions.find? fun y => y.sid == x.sid).map fun y => y.exts.all fun e => s.servedTo d e.pa e.len).getD true
  else
    (s.unitsFrom p.asid x.va x.len x.wr (x.len / 65536) 0).all fun u =>
      match u.pa with
      | some a => s.servedTo d a u.len
      | none => true
/-- R467: everything that a record needs is served to a die. -/
def State.needsServed (s : State) (r : Record) (d : Nat) : Bool :=
  let p := r.pkt
  let host := match r.host with
    | some (q, k) => s.servedTo d ((s.hostQueue q).ring + 256 * (k % 2 ^ (s.hostQueue q).m)) 256
    | none => true
  host && s.servedTo d p.code p.bound && s.servedTo d p.image p.imglen && s.servedTo d p.decl (declBytes p.ver)
    && (s.linked || wordOf r.decl.objects 4 == 0)
    && ((s.dies.all fun d => 2 ≤ d.stage) || r.decl.regions.all (s.regionServed d p))
/-- R468: a figure in ac of the package dispatcher, in STC counts: it doubles in stage 1 of D0 (DEDUCED, log 58). -/
def State.packageAc (s : State) (n : Nat) : Nat := if (s.die 0).stage = 1 then 2 * n else n
/-- R386: the effective class of a record. -/
def State.effClass (s : State) (r : Record) : Nat :=
  if r.pkt.cls < 2 then r.pkt.cls
  else max 1 (r.pkt.cls - (s.stc - r.lastBatch.getD r.enqueued) / s.packageAc s.ageStep)

/-! ### Batches (R386, R387) -/

/-- R467, R472, R473: a die is handed tasks: D0 not while it waits to leave stage 1, and no die while it is hot. -/
def State.dieOpen (s : State) (d : Nat) : Bool :=
  let x := s.die d
  !x.hot && (decide (2 ≤ x.stage) || (d == 0 && x.stage == 1 && !x.trained))
/-- R387: the tasks of batches that a die has not acknowledged: it acknowledges each as it gives it a slot (DEDUCED, log 88). -/
def Die.unacked (d : Die) : Nat := (d.queues.flatten.filter (·.batch)).length
/-- R387: the free slots of a die, which it reports as they change, less the batches it has not acknowledged. -/
def State.dieFree (s : State) (d : Nat) : Nat := s.freeSlots (dieNodes d) - (s.die d).unacked
/-- R387, R388: a quadrant holds the block that a packet names, as that packet's arena has it. -/
def State.holdsBlock (s : State) (ctx : Nat) (p : Packet) : Bool :=
  match p.block, (s.slotAt ctx).quad.copy with
  | none, b => b.isNone
  | some _, none => false
  | some off, some b =>
    (blockCheck (s.codeByte p) p.bound p.cfgtab off).isNone
      && { b with place := {} } == readBlock (s.codeByte p) p.cfgtab off {}
/-- The free slots of a die. -/
def State.freeCtxs (s : State) (d : Nat) : List Nat :=
  (dieNodes d).flatMap fun n =>
    ((List.range 4).map (4 * n + ·)).filter fun c => s.tileUsable n && (s.slotAt c).stage == .free
/-- R450: sessions of a record that lie on a die. -/
def State.sessionsOn (s : State) (d : Decl) (die : Nat) : Nat :=
  (s.sessions.filter fun x => d.names x.sid && x.exts.any fun e => (e.pa - 2 ^ 51) / 2 ^ 22 / 96 == die).length
/-- Lexicographic order of keys. -/
def keyLess : List Nat → List Nat → Bool
  | a :: as, b :: bs => decide (a < b) || (a == b && keyLess as bs)
  | _, _ => false
/-- The first of the least. -/
def leastBy {α : Type} (key : α → List Nat) : List α → Option α
  | [] => none
  | x :: xs =>
    match leastBy key xs with
    | none => some x
    | some y => if keyLess (key y) (key x) then some y else some x
/-- The dies that a record's tasks may go to. -/
def State.diesFor (s : State) (r : Record) : List Nat :=
  (List.range 4).filter fun d => s.dieOpen d && decide (0 < s.dieFree d) && r.reaches d && s.needsServed r d
/-- R387: the order of preference of a die, the least first. -/
def State.dieKey (s : State) (r : Record) (d : Nat) : List Nat :=
  let tiles := (dieNodes d).filter fun n =>
    (List.range 4).any fun k => s.tileUsable n && (s.slotAt (4 * n + k)).stage == .free && s.holdsBlock (4 * n + k) r.pkt
  [16 - s.sessionsOn r.decl d, 512 - tiles.length, 2048 - s.dieFree d, d]
/-- R386: a record may be handed out now. -/
def State.eligible (s : State) (r : Record) : Bool :=
  !r.await && decide (0 < r.left) && (!r.pkt.startv || decide (r.pkt.start ≤ s.stc + s.packageAc s.lead))
    && s.grantsMet r && !(s.diesFor r).isEmpty
/-- R386: the order in which records are served. -/
def State.recordKey (s : State) (x : Nat × Record) : List Nat := [s.effClass x.2, x.2.pkt.deadline, s.epochRank x.1]
/-- R380, R388: a task of a record. -/
def State.newTask (s : State) (epoch : Nat) (r : Record) (d o : Nat) : Waiting :=
  { task := { epoch := epoch, ord := o, iter := r.pkt.iteration o, age := ageStamp epoch o r.pkg, pkt := r.pkt, decl := r.decl }
    left := 2048 + d
    since := s.stc
    batch := true }
/-- R376, R347: the grants of a record. -/
def State.grant (s : State) (r : Record) : Record :=
  if r.granted then r
  else
    { r with
      granted := true
      filters := s.freeFilters.take r.decl.nfilt }
/-- R380, R391: the next n ordinals of a record from o on that are not aborted; fuel is a bound on those that are looked at. -/
def Record.ordinals (r : Record) : Nat → Nat → Nat → List Nat
  | 0, _, _ => []
  | _, 0, _ => []
  | fuel + 1, n + 1, o => if r.aborted.contains o then r.ordinals fuel (n + 1) (o + 1) else o :: r.ordinals fuel n (o + 1)
/-- R376, R241: an object of a record that is granted starts anew. -/
def State.freshObjects (s : State) (epoch : Nat) (r : Record) : State :=
  if r.granted then s else { s with barriers := s.barriers.filter fun b => b.epoch != epoch }
/-- BATCH_HANDOUT (R386, R387); a record whose needs have come to be served is looked at first (R467). -/
def execBatchHandout (s : State) : Res :=
  orStay s (
    if s.lookAgain.isSome then s.lookAgain else
    match leastBy s.recordKey (s.records.filter fun (_, r) => s.eligible r) with
    | none => none
    | some (epoch, r) =>
      (leastBy (s.dieKey r) (s.diesFor r)).map fun d =>
        let n := min 64 (min r.left (s.dieFree d))
        let s := s.freshObjects epoch r
        let r := s.grant r
        let os := r.ordinals (n + r.aborted.length) n r.handed
        let ts := os.map (s.newTask epoch r d)
        let t := { s with records := aset epoch { r with
          handed := (os.getLast?.map (· + 1)).getD r.handed
          lastBatch := some s.stc } s.records }
        t.setDie d fun x => ts.foldl (fun x w => x.putTask false w) x)

/-! ### The choice of a slot (R388) -/

/-- Hops between two nodes. -/
def nodeHops (a b : Nat) : Nat :=
  let dist (x y : Nat) : Nat := if x ≤ y then y - x else x - y
  dist (a % 32) (b % 32) + dist (a / 32) (b / 32)
/-- R388: the fewest hops to a memory tile of a record's sessions. -/
def State.sessionHops (s : State) (d : Decl) (n : Nat) : Nat :=
  let tiles := ((s.sessions.filter fun x => d.names x.sid).flatMap (·.exts)).map fun e => memoryNode ((e.pa - 2 ^ 51) / 2 ^ 22)
  match tiles.map (nodeHops n) with
  | [] => 0
  | h :: hs => hs.foldl min h
/-- R388: the slot for a task: the one it left, one that holds its block, one near its sessions, the lowest. -/
def State.slotKey (s : State) (w : Waiting) (c : Nat) : List Nat :=
  [bitIf (w.saved.isSome && c != w.left) 0, bitIf (!s.holdsBlock c w.task.pkt) 0, s.sessionHops w.task.decl (nodeOf c), c]
def State.chooseSlot (s : State) (d : Nat) (w : Waiting) : Option Nat := leastBy (s.slotKey w) (s.freeCtxs d)
/-- R388: the front task of the lowest class that is not empty. -/
def Die.front (d : Die) : Option Waiting := (d.queues.find? fun q => !q.isEmpty).bind (·.head?)
/-- TASK_DISPATCH (R388, R391): a slot is given to the front task of a die that has not been saved; D0 hands none while it waits to leave
stage 1 (R467). -/
def execTaskDispatch (die : Nat) (s : State) : Res :=
  orStay s (
    match (s.die die).front with
    | none => none
    | some w =>
      if w.saved.isSome || (die == 0 && (s.die 0).stage == 1 && (s.die 0).trained) then none
      else
        (s.chooseSlot die w).map fun c =>
          (s.setDie die (·.forget w.task.age)).setSlot c fun l => { l with
            stage := .binding
            task := some w.task })

/-! ### Binding (R389, R448) -/

/-- R335: bytes that are copied carry their uncorrectable words with them. -/
def copiedBad (bad : List Nat) (src n : Nat) : List Nat :=
  (bad.filter fun a => decide (src ≤ a) && decide (a < src + n)).map (· - src)
/-- R389 item 3: the tile-store share of a task at entry; the header of a journal is zero, also where ARG lies in it (R401, DEDUCED, log
89). -/
def State.entryStore (s : State) (p : Packet) : List (Nat × BitVec 8) × List Nat :=
  let cells := (s.mem.filter fun (a, _) => decide (p.image ≤ a) && decide (a < p.image + p.imglen)).map fun (a, b) => (a - p.image, b)
  let store := writeLE (writeLE cells p.arg 8 p.user0) (p.arg + 8) 8 p.user1
  (if p.jnl = 0 then store else clearBytes store p.journal 64, (copiedBad s.badWords p.image p.imglen).filter fun a => a != p.arg && a != p.arg + 8)
/-- R372, R380, R112, R406: the control core at entry. -/
def State.entryCore (s : State) (ctx : Nat) (t : Task) : Core :=
  let p := t.pkt
  let i (k : Nat) : Word := BitVec.ofNat 64 (wordOf t.iter k)
  let regs : Vector Word 32 := ((((Vector.replicate 32 0).set 1 (i 0)).set 2 (i 1)).set 3 (i 2)).set 4 (i 3)
  let path := Path.allAt p.entry
  { sreg := regs.set 5 (BitVec.ofNat 64 p.arg)
    supBank := Vector.ofFn fun k : Fin 8 => Config.freeWord (s.draws + k)
    supSpill := (List.range 512).map fun k => (k, Config.freeWord (s.draws + 8 + k))
    slipwin := BitVec.ofNat 9 (if p.slip = 0 then 64 else p.slip)
    jnl := t.decl.sets.any Option.isSome
    diagen := (s.die (dieOf (nodeOf ctx))).diagen
    arenabase := BitVec.ofNat 52 p.code
    arenabound := BitVec.ofNat 32 p.bound
    age := t.age
    restarts := BitVec.ofNat 16 t.restarts
    deadline := BitVec.ofNat 64 p.deadline
    trapcause := if t.wounder.isSome then causeWord 0 true 7 0x0B else 0
    trapval := BitVec.ofNat 64 (t.wounder.getD 0)
    user := path }
/-- R389 item 2, R379, R461: the quadrant holds the packet's block, or is EMPTY; else the code with which the task ends: 0x06 for a block that
is not listed or fails a check, 0x05 for one that cannot be placed. -/
def State.entryQuad (s : State) (ctx : Nat) (p : Packet) : Except Nat Quad :=
  match p.block with
  | none => .ok {}
  | some off =>
    let b := s.listed ctx off
    if b.code.isSome ∨ off % 16 ≠ 0 then .error 0x06
    else
      match b.place with
      | none => .error 0x05
      | some pl => .ok (Quad.load (readBlock (s.codeByte p) p.cfgtab off pl) (s.acOf ctx))
/-- R389 items 3 and 4: the slot of a task that binds, with its tile-store share and its control core. -/
def Slot.bindTo (l : Slot) (t : Task) (store : List (Nat × BitVec 8) × List Nat) (core : Core) : Slot :=
  { quad := l.quad
    stage := .binding
    task := some t
    core := core
    regions := l.regions
    blocks := l.blocks
    store := store.1
    badWords := store.2 }
/-- TASK_BIND (R389): the region table, then the block, then the tile-store share and the registers; a failure in any step ends the task with
its code, and the later steps do not come. -/
def execTaskBind (s : State) : Res :=
  orStay s (
    match s.me.stage, s.me.task with
    | .binding, some t =>
      let c := s.cur
      match (s.setMe fun l => { l with regions := List.replicate 16 {} }).formRegions c t.pkt.asid 0 t.decl.regions with
      | none => some (s.endTask c (0x04 * 256))
      | some u =>
        let u := (u.rebindGraphs t.pkt).listFor c t
        match u.entryQuad c t.pkt with
        | .error code => some ((u.reportUnlisted c t).endTask c (code * 256))
        | .ok q =>
          let u := u.setSlot c fun l => { l.bindTo t (u.entryStore t.pkt) (u.entryCore c t) with
            quad := q
            stage := .bound
            boundAt := u.stc }
          some { u with draws := u.draws + 520 }
    | _, _ => none)

/-! ### Entry (R392, R393) -/

/-- R393: a deadline that has passed is pending. -/
def Core.dueNow (c : Core) (now : Nat) : Core :=
  if c.deadline.toNat ≤ now ∧ ¬c.dued then { c.addPend 0x10 7 c.deadline with dued := true } else c
/-- R392: the bind did not complete before START; a restarted task takes no schedule miss. -/
def Slot.startMissed (l : Slot) (t : Task) (start : Nat) : Bool :=
  t.pkt.startv && !t.pkt.late && t.restarts == 0 && decide (start ≤ l.boundAt)
/-- TASK_ENTRY (R392, R393). -/
def execTaskEntry (s : State) : Res :=
  orStay s (
    match s.me.stage, s.me.task with
    | .bound, some t =>
      let start := s.stampOf s.cur t.pkt.start
      if t.pkt.startv && t.restarts == 0 && decide (s.stc < start) then none
      else
        let missed := s.me.startMissed t start
        some (s.setMe fun l =>
          let c := if missed then l.core.addPend 0x0A 7 (BitVec.ofNat 64 t.pkt.start) else l.core
          { l with
            stage := .running
            core := c.dueNow s.stc })
    | _, _ => none)
/-- DEADLINE_EXPIRY (R393): not during a commit (R257). -/
def execDeadlineExpiry (s : State) : Res :=
  orStay s (
    if !s.me.runs || s.core.commit || s.core.dued || decide (s.stc < s.core.deadline.toNat) then none
    else some (s.setCore (·.dueNow s.stc)))

/-! ### Aborts (R391, R393) -/

/-- The task of an AGE that waits at a die: one saved or drained from a slot, or one that waits for its first slot. -/
def State.abortee (s : State) (age : Nat) : Option Waiting :=
  (s.dies.flatMap fun d => d.queues.flatten ++ d.drained).find? fun w => w.task.age.toNat == age
/-- R391: a task of a record that is still at the package dispatcher is aborted. -/
def State.abortPending (s : State) (epoch ord : Nat) : Option State :=
  match s.records.find? fun (e, _) => e == epoch with
  | none => none
  | some (_, r) =>
    if r.pkt.tasks ≤ ord || decide (ord < r.handed) || r.aborted.contains ord then none
    else
      let w := s.newTask epoch r 0 ord
      some (({ s with records := aset epoch { r with aborted := ord :: r.aborted } s.records } : State).taskEnded w.task 0x0100)
/-- ABORT (R391, R393): the task of the slot ends with code 0x01; from 8192 on, the task of the record whose EPOCH is counted from
there, with its ordinal in the bits from 30 up; from 2^64 on, the waiting task whose AGE is counted from there (log 62). A task that commits
is not aborted (R404). -/
def execAbort (s : State) : Res :=
  orStay s (
    if 2 ^ 64 ≤ s.cur then (s.abortee (s.cur - 2 ^ 64)).map fun w => s.endWaiting w 0x0100
    else if 8192 ≤ s.cur then s.abortPending ((s.cur - 8192) % 2 ^ 30) ((s.cur - 8192) / 2 ^ 30)
    else if s.me.task.isSome && !s.core.commit then some (s.failTask s.cur 0x01)
    else none)

end Sys2Proof.Machine
end

