-- ==== Sys2Proof/Machine/SaveImage.lean ====
section
/-! DEFINITION. The save record as the die manager writes it: the core context, the header, and the FIFO, chain, stream and region parts
(spec/04 R119, spec/21 R442 to R446). It is written to HBM that no region maps; the machine keeps the saved slot beside it (log 38). -/

namespace Sys2Proof.Machine

/-- A field of the record: its offset, its bytes and its value; bytes that no field names are zero. -/
structure RecField where
  off : Nat
  bytes : Nat
  val : Nat
  deriving DecidableEq, Repr, Inhabited

/-- Values of n bytes each, one after another from an offset. -/
def fieldsAt (off n : Nat) : List Nat → List RecField
  | [] => []
  | v :: vs => ⟨off, n, v⟩ :: fieldsAt (off + n) n vs
def wordsAt (off : Nat) (ws : List Word) : List RecField := fieldsAt off 8 (ws.map (·.toNat))

/-! ### The core context (R119) -/

/-- R104: an entry of the branch-outcome queue. -/
def Branch.word (b : Branch) : Nat := (if b.tkn then b.tgt / 4 * 2 ^ 34 else 0) + b.xfer / 4 % 2 ^ 30 * 16 + bitIf b.tkn 0
/-- R119: queue control. The oldest entry stands in place 0 (DESIGN CHOICE, log 41). -/
def Path.queueControl (p : Path) : Nat :=
  p.boq.length % 64 * 2 ^ 8 + p.usedM % 64 * 2 ^ 16 + p.usedA % 64 * 2 ^ 24 + p.usedY % 64 * 2 ^ 32 + p.boq.length * 2 ^ 40
/-- R119: an assembly buffer: its pushes, then their count. -/
def assemblyAt (off : Nat) (ws : List Word) : List RecField := wordsAt off ws ++ [⟨off + 128, 8, ws.length⟩]
/-- R148, R155, R156: a stream command's record as it stands, with CURSOR and STATUS. -/
def Cmd.streamRecord (c : Cmd) : List Nat :=
  (c.raw.toList.take 14).map (·.toNat) ++ [c.cursorNow, c.status.toNat]
/-- R220: an engine command's record. -/
def Cmd.engineRecordOf (c : Cmd) (eng : Nat) : List Nat :=
  (c.raw.toList.take 14).map (·.toNat) ++ [c.cursorNow, (c.engineStatus eng).toNat]
/-- R119: the commands of the array-and-chain queue, at most 64 of them. Those in execution stand first, in the order in which they were
queued (DESIGN CHOICE, log 80: the spec places the command in execution within the 64 records and does not say where). -/
def Slot.queueAAll (l : Slot) : List Cmd :=
  let age (c : Cmd) : Nat := (l.core.seqA.toNat + 65536 - c.seq) % 65536
  (match l.array, l.chain.cmd with
    | some a, some b => if age a < age b then [b, a] else [a, b]
    | a, b => a.toList ++ b.toList) ++ l.queueA
/-- R119: the commands of the encode queue, those in execution first (DESIGN CHOICE, log 80). -/
def Slot.queueEAll (l : Slot) : List Cmd := l.channels.filterMap (·.cmd) ++ l.queueE
/-- Records of 128 bytes from an offset. -/
def recordsAt (off : Nat) : List (List Nat) → List RecField
  | [] => []
  | r :: rs => fieldsAt off 8 r ++ recordsAt (off + 128) rs
/-- Head and tail of a queue that is saved from place 0: the tail in [63:32] (DESIGN CHOICE, log 41). -/
def queueEnds (n : Nat) : Nat := n * 2 ^ 32
/-- R119: the core context of a saved slot, 30,744 bytes. It has no field for a head that is between a prefix and its target, or past the first
word only of an instruction of two: the resume address is the prefix's or the first word's, and the slips are as they are counted (DESIGN
CHOICE, log 113). -/
def Slot.coreContext (l : Slot) : List RecField :=
  let c := l.core
  let p := c.user
  wordsAt 0 (c.sreg.set 0 0).toList ++ wordsAt 0x100 c.freg.toList
    ++ [⟨0x180, 8, 1 + ((List.range 7).map fun k => bitIf c.preg[Fin.ofNat 8 (k + 1)] (k + 1)).sum⟩]
    ++ fieldsAt 0x188 4 (c.hreg.toList.map (·.toNat)) ++ fieldsAt 0x1C8 2 (c.bdreg.toList.map (·.toNat))
    ++ fieldsAt 0x1D8 2 (c.ereg.toList.map (·.toNat))
    ++ fieldsAt 0x218 8 [c.slipwin.toNat, c.tstatus.toNat, c.deadline.toNat, c.trapcause.toNat, c.trapval.toNat, c.age.toNat,
        c.restarts.toNat, l.quad.cuts % 16]
    ++ fieldsAt 0x258 4 [p.place .s, p.place .m, p.place .a, p.place .y]
    ++ fieldsAt 0x268 4 [c.trappcS.toNat, c.trappcM.toNat, c.trappcA.toNat, c.trappcY.toNat]
    ++ [⟨0x278, 8, p.queueControl⟩] ++ fieldsAt 0x280 8 (p.boq.map (·.word))
    ++ assemblyAt 0x480 c.asmM ++ assemblyAt 0x508 c.asmA ++ assemblyAt 0x590 c.asmE
    ++ fieldsAt 0x618 8 [p.lagM, p.lagA, p.lagY]
    ++ c.spill.map (fun (k, v) => ⟨0x800 + 8 * k, 8, v.toNat⟩)
    ++ recordsAt 0x1800 (l.eng.queue.map (·.streamRecord))
    ++ recordsAt 0x3800 (l.queueAAll.map fun c => c.engineRecordOf (kindEng c.kind)) ++ recordsAt 0x5800 (l.queueEAll.map (·.engineRecordOf 2))
    ++ fieldsAt 0x7800 8 [queueEnds l.eng.queue.length, queueEnds l.queueAAll.length, queueEnds l.queueEAll.length]

/-! ### The header, FIFOs and windrows (R442, R443, R446) -/

/-- R226: the codes of the region states. -/
def QState.rstate : QState → Nat
  | .empty => 0 | .loaded => 1 | .run => 2 | .draining => 3 | .drained => 4
/-- R443: the save header. -/
def Waiting.header (w : Waiting) (l : Slot) : List RecField :=
  fieldsAt 0x8000 8
    [l.eng.flying.length * 2 ^ 32 + l.quad.cuts % 16 * 2 ^ 24 + bitIf w.cut 23 + l.quad.st.rstate * 2 ^ 20,
      ((l.quad.blk.map (·.off)).getD 0) % 2 ^ 32 * 2 ^ 32 + w.task.pkt.ts * 1024, w.since, w.left % 65536]
/-- R446: the entry of a windrow. -/
def Windrow.entry (w : Windrow) : List Nat :=
  [2 ^ 63 + w.size / 64 * 2 ^ 52 + (w.count - 1) * 2 ^ 44 + w.base, w.free + w.filled * 2 ^ 9 + w.rp * 2 ^ 18 + w.wp * 2 ^ 26]
/-- R442: windrows, FIFOs and the chain engine's order program and boundary image (R410, R411). -/
def Slot.fifoPart (l : Slot) : List RecField :=
  let c := l.core
  (c.windrows.flatMap fun (k, w) => fieldsAt (0x8040 + 16 * k) 8 w.entry)
    ++ (List.range 4).flatMap (fun k => wordsAt (0x8140 + 128 * k) c.xi[Fin.ofNat 4 k])
    ++ (List.range 4).flatMap (fun k => wordsAt (0x8340 + 128 * k) c.xo[Fin.ofNat 4 k])
    ++ wordsAt 0x8540 c.sts ++ wordsAt 0x8640 c.chf ++ wordsAt 0x8840 (l.chain.prog.flatMap fun (a, b) => [a, b])
    ++ fieldsAt 0x11000 1 (l.chain.bnd.image.map (·.toNat))

/-! ### Tokens (R444) -/

/-- R444: a token place: the payload and the descriptor. -/
def tokenPlace (off : Nat) (ctl : Bool) (t : Tok) : List RecField :=
  [⟨off, if ctl then 8 else 64, t.pay⟩, ⟨off + 64, 8, t.tag % 16 + bitIf t.lem 4 + bitIf t.mkr 5 + bitIf ctl 8⟩]
def tokenPlaces (off : Nat) (ctl : Bool) : List Tok → List RecField
  | [] => []
  | t :: ts => tokenPlace off ctl t ++ tokenPlaces (off + 72) ctl ts
/-- R444: a head, with what it holds beside COUNT, and its token places. -/
def tokenEntry (off extra : Nat) (ctl : Bool) (ts : List Tok) : List RecField :=
  ⟨off, 8, ts.length + extra⟩ :: tokenPlaces (off + 8) ctl ts
/-- R442, R444: the ports of a region. -/
def Quad.portPart (q : Quad) : List RecField :=
  (q.inPorts.flatMap fun (p, x) => tokenEntry (0x22000 + 640 * p) (x.pr % 16 * 16) (q.inPlane p) x.q)
    ++ q.outPorts.flatMap fun (p, ts) => tokenEntry (0x29800 + 640 * p) 0 (q.outPlane p) (ts.map (·.1))
/-- R444: the recurrence holds: the tokens that an SREC has taken and not sent. -/
def Slot.holdPart (l : Slot) : List RecField :=
  let holders := (numbered 0 l.eng.flying).filter fun (_, c) => c.kind == 5 && !c.held.isEmpty
  (numbered 0 (holders.take 32)).flatMap fun (k, n, c) =>
    tokenEntry (0x2E800 + 640 * k) (n % 512 * 256 + 2 ^ 17) (epCpl c.ep0) (c.held.map (·.2))

/-! ### Operator state (R445) -/

/-- R445: an MMS4 step in progress. -/
def MatStep.fields (p : MatStep) : List RecField :=
  let place (q : Nat) (t : Option Tok) : List RecField := match t with | some t => tokenPlace (0x188 + 72 * q) false t | none => []
  [⟨0x100, 8, 1 + (p.phase + 1) % 4 * 2 + p.kb % 2 ^ 32 * 2 ^ 32⟩] ++ fieldsAt 0x108 1 p.sa ++ fieldsAt 0x148 1 p.sb
    ++ place 0 p.aToks[0]? ++ place 1 p.aToks[1]? ++ place 2 p.metaTok ++ place 3 p.bToks[0]? ++ place 4 p.bToks[1]?
/-- R445: the state of an operator, from the offset of its entry. -/
def OpState.fields (st : OpState) (s : BSlot) (w : Nat) : List RecField :=
  (if matrixOp s.op then
      fieldsAt 0 4 st.acc ++ [⟨0x40, 8, st.kb⟩] ++ fieldsAt 0x48 1 st.sa ++ fieldsAt 0x88 1 st.sb
        ++ (if s.op = 0x21 then (st.step.map (·.fields)).getD [] else [])
    else if s.op = 0x2B then fieldsAt 0 4 st.acc ++ [⟨0x100, 8, st.cnt⟩]
    else if s.op = 0x2C then [⟨0, 4, st.carry⟩]
    else if s.op = 0x3C then [⟨0, 8, st.cnt⟩]
    else if s.op = 0x3F then [⟨0, 8, st.x⟩]
    else if s.op = 0x3D then ⟨0, 8, st.line.length⟩ :: tokenPlaces 8 s.pl (st.line.map (·.getD ⟨0, 0, false, false⟩))
    else if s.op = 0x48 ∨ s.op = 0x49 then fieldsAt 0 8 ((st.run.map fun r => [r.first, r.stop, r.next]).getD [])
    else if s.op = 0x4A ∨ s.op = 0x4B then fieldsAt 0 4 [st.ordA, st.ordB]
    else if s.op = 0x4D then
      ⟨0, 8, st.pend.length⟩ :: tokenPlace 8 false ⟨packFields (CfgWord.inf w).width st.pend, 0, false, false⟩
    else [])
    ++ if irregular s.op then
        tokenEntry 0x488 0 ((s.op != 0x2B && s.op != 0x4D && s.op != 0x3D) || (s.op == 0x3D && s.pl)) (st.queue.map (·.tok))
      else []
def RecField.shift (k : Nat) (f : RecField) : RecField := { f with off := f.off + k }
/-- R445: the entry of slot n: its state and its inter-group buffers. -/
def Quad.slotEntry (q : Quad) (n : Nat) (st : OpState) : List RecField :=
  let s := q.slot n
  (st.fields s (q.word n) ++ (List.range 3).flatMap fun o =>
    match aget [] (4 * n + o) q.bufs with
    | [] => []
    | ts => tokenEntry (0x600 + 0x250 * o) 0 (operandPlane s o) ts).map (·.shift (0x34000 + 4096 * n))
/-- R445: with CUT, the snapshots of the last complete cut, with empty ports, buffers and queues. -/
def Quad.atLastCut (q : Quad) : Quad :=
  let st (n : Nat) (s : BSlot) : OpState :=
    match q.lastCut.bind fun c => c.snaps.find? fun x => x.slot == n with
    | some x => x.st.afterCut
    | none => OpState.atCfg s (q.word n)
  let pr := (q.lastCut.map fun c => (c.round + 1) % 16).getD 0
  { q with
    ops := (numbered 0 q.slots).map fun (n, s) => st n s
    inPorts := (q.ports.filter (!·.dir)).foldl (fun l e => aset e.phys { pr := pr } l) []
    outPorts := []
    bufs := [] }
/-- R440, R445: with CUT, a command bound to the region stands cut at the CURSOR of the cut record. -/
def Cmd.atLastCut (c : Cmd) (q : Quad) : Cmd :=
  let d := c.rolled q
  let n := (q.cutAt c).1
  { d with
    st := c.st
    cursor := if c.kind = 5 ∨ c.kind = 0x10 ∨ !c.started then d.cursor else if c.filtFn = 2 then n * c.dstFmt.width / 8 else n }
def Quad.regionPart (q : Quad) : List RecField :=
  q.portPart ++ (numbered 0 q.ops).flatMap fun (n, st) => if opStateful (q.slot n).op || q.bufs != [] then q.slotEntry n st else []

/-! ### The record (R442) -/

/-- R442: the record of a waiting task that is saved. -/
def Waiting.record (w : Waiting) : List RecField :=
  match w.saved with
  | none => []
  | some l =>
    let q := if w.cut then l.quad.atLastCut else l.quad
    let flying := l.eng.flying.map fun c => if w.cut && c.onPort w.left then c.atLastCut l.quad else c
    let l := { l with
      quad := q
      eng := { l.eng with flying := flying } }
    l.coreContext ++ w.header l ++ l.fifoPart ++ recordsAt 0x9000 (flying.map (·.streamRecord)) ++ q.regionPart ++ l.holdPart
      ++ (l.store.filter fun x => decide (x.1 < w.task.pkt.ts * 1024)).map fun (a, b) => ⟨0xB4000 + a, 1, b.toNat⟩
/-- The byte of the record at an offset. -/
def Waiting.recordByte (w : Waiting) (off : Nat) : Nat :=
  match w.record.find? fun f => decide (f.off ≤ off) && decide (off < f.off + f.bytes) with
  | some f => f.val / 256 ^ (off - f.off) % 256
  | none => 0
/-- R442: the bytes of a record with a whole tile-store share, and the offset of that share. -/
def recordBytes : Nat := 0xB4000 + 512 * 1024
def recordStore : Nat := 0xB4000
/-- R442: where area k of the HBM that firmware reserves for save records begins. -/
def State.recordPlace (s : State) (k : Nat) : Nat := s.recordBase + k * recordBytes
/-- R442: the first area that no saved task's record takes; none where firmware has reserved no HBM, or it ends (DEDUCED, log 38). -/
def State.freeArea (s : State) : Option Nat :=
  if s.recordBase = 0 then none
  else
    let used := (s.dies.flatMap fun d => d.queues.flatten ++ d.drained).filterMap (·.area)
    ((List.range (used.length + 1)).find? fun k => !used.contains k).bind fun k =>
      if backedRun (s.recordPlace k) recordBytes then some k else none
/-- R442: the die manager writes the record of a waiting task to its area. -/
def State.writeRecord (s : State) (w : Waiting) : State :=
  match w.area with
  | none => s
  | some k =>
    let a := s.recordPlace k
    { s with
      mem := w.record.foldl (fun m f => writeLE m (a + f.off) f.bytes f.val) (clearBytes s.mem a recordBytes)
      badWords := s.badWords.filter fun x => !(decide (a ≤ x) && decide (x < a + recordBytes)) }
/-- R448 item 1, R335: the tile-store share from the record, with its uncorrectable words; the saved slot's own where the record takes no HBM. -/
def State.recordedStore (s : State) (w : Waiting) (l : Slot) : List (Nat × BitVec 8) × List Nat :=
  match w.area with
  | none => (l.store, l.badWords)
  | some k =>
    let a := s.recordPlace k + recordStore
    let n := w.task.pkt.ts * 1024
    ((s.mem.filter fun (x, _) => decide (a ≤ x) && decide (x < a + n)).map fun (x, b) => (x - a, b), copiedBad s.badWords a n)
/-- n bytes of the record, the lowest first. -/
def Waiting.recordNum (w : Waiting) (off : Nat) : Nat → Nat
  | 0 => 0
  | n + 1 => w.recordByte off + 256 * w.recordNum (off + 1) n

end Sys2Proof.Machine
end

