-- ==== Sys2Proof/Machine/Preempt.lean ====
section
/-! DEFINITION. Pre-emption: the request, source gating, the save and the restore (spec/16 R390, spec/21 R439 to R449). A task is restored from
the fields of its saved slot, with the tile-store share from its record (DESIGN CHOICE, log 38). -/

namespace Sys2Proof.Machine

/-! ### The request (R390) -/

/-- R390: the running tasks of a die whose class is beyond a class. -/
def State.victims (s : State) (d cls : Nat) : List (Nat × Slot) :=
  s.slots.filter fun (c, l) => dieOf (nodeOf c) == d && l.stage == .running && l.task.isSome && !l.core.commit
    && decide (cls < l.pkt.cls)
/-- R390: the highest class, then the latest deadline, then the youngest age. -/
def victimOf : List (Nat × Slot) → Option (Nat × Slot)
  | [] => none
  | x :: xs =>
    match victimOf xs with
    | none => some x
    | some y =>
      let a := (x.2.pkt.cls, x.2.core.deadline.toNat)
      let b := (y.2.pkt.cls, y.2.core.deadline.toNat)
      if b.1 < a.1 ∨ (a.1 = b.1 ∧ (b.2 < a.2 ∨ (a.2 = b.2 ∧ older y.2.age x.2.age))) then some x else some y
/-- R390, R118, R120: a slot's pre-emption is requested; in supervisor mode it is held until TRET. -/
def Slot.requested (l : Slot) (now : Nat) : Slot :=
  { l with
    preq := some now
    gateHeld := l.gateHeld || l.core.sup }
/-- PREEMPTION_REQUEST (R390): one request at a time at a die (DEDUCED, log 39). -/
def execPreemptionRequest (die : Nat) (s : State) : Res :=
  orStay s (
    let busy := s.slots.any fun (c, l) => dieOf (nodeOf c) == die && (l.preq.isSome || (l.stage == .gating && !l.yielded && !l.draining))
    match (s.die die).front with
    | none => none
    | some w =>
      if 2 ≤ w.task.pkt.cls || busy || !(s.freeCtxs die).isEmpty then none
      else (victimOf (s.victims die w.task.pkt.cls)).map fun x => s.setSlot x.1 (·.requested (s.acOf x.1)))

/-! ### When a gated slot may be saved (R440, R441) -/

/-- R440: a command of a lane that completes although its slot is gated, and still can; a step of a CRUN ends in every case but that of a
missing page (R231, R426, R430). -/
def Slot.laneBusy (l : Slot) (n : Nat) : Bool :=
  match l.lane n with
  | none => false
  | some c =>
    let stopped := c.notice.isSome || c.waitGranule.isSome || !l.core.stsRoom
    if c.st = .faulted then !c.reported && l.core.stsRoom
    else if c.kind = 0x49 then l.chain.begun && c.notice.isNone
    else c.started && completesGated c.kind && !stopped
/-- R440: a stream command that takes from an output port and can go on. -/
def State.streamBusy (s : State) (ctx : Nat) (c : Cmd) : Bool :=
  (s.slotAt ctx).mayMove ctx c && !s.complete ctx c && (match s.advance ctx c with | .stop _ => true | _ => false)
/-- Nothing that a command of the slot has sent is still on its way. -/
def State.sentAll (s : State) (ctx : Nat) : Bool :=
  !(s.updates.any fun u => u.ctx == ctx) && !(s.remotes.any fun r => r.src == ctx)
/-- R440: the slot's commands have stopped. -/
def State.stopped (s : State) (ctx : Nat) : Bool :=
  s.sentAll ctx && (List.range 6).all fun n => !(s.slotAt ctx).laneBusy n
/-- R441: gating quiescence. -/
def State.gatedRest (s : State) (ctx : Nat) : Bool :=
  s.stopped ctx && !((s.slotAt ctx).eng.flying.any (s.streamBusy ctx))
    && ((s.quadNow ctx).quiescent (s.acOf ctx) || (s.slotAt ctx).quad.st == .empty)
/-- R441, R310 (its table, pre-emption with open round buffers): a cut of the region is incomplete, or a round buffer is open. -/
def State.cutOpen (s : State) (ctx : Nat) : Bool :=
  let q := s.quadNow ctx
  !q.snaps.isEmpty || !q.entries.isEmpty || !q.outMarks.isEmpty || !q.marks.isEmpty
    || s.buffers.any fun u => u.ctx == ctx && (match u.round with | some r => decide (q.cuts ≤ r) | none => false)

/-! ### The save (R439 to R447) -/

/-- R352: a ZRD command as it stood at a tile boundary; elements below an ordinal are not delivered again. -/
def Cmd.atTile (c : Cmd) (t : TileStart) (unsent : Nat) : Cmd :=
  { c with
    raw := c.raw.set 12 (BitVec.ofNat 64 t.off)
    cursor := t.cursor
    outn := t.outn
    tileBits := t.bits
    skipTo := max c.skipTo unsent
    pack := []
    ready := []
    tileFrom := none
    tilePrev := none }
/-- R352: a ZRD command goes back to the boundary before the tile of its first element that has not left; one that draws from a windrow keeps
what it has drawn. -/
def Cmd.toTile (c : Cmd) : Cmd :=
  let unsent := c.outn - c.pack.length
  if c.filtFn ≠ 2 || epType c.ep0 = 5 || (c.ready.isEmpty && c.pack.isEmpty) then c
  else
    match c.tileFrom, c.tilePrev with
    | some t, some u => c.atTile (if t.outn ≤ unsent then t else u) unsent
    | some t, none => c.atTile t unsent
    | none, _ => c
/-- R440: a stream command as it is cut: elements of a token that was not sent are read again where they can be (DEDUCED, log 40). -/
def Cmd.cutStream (c : Cmd) : Cmd :=
  let c := c.toTile
  let back := c.filtFn != 2 && (decide (epType c.ep0 < 2) || c.kind == 6) && c.kind != 5
  { c with
    st := if c.st = .faulted then .faulted else .cut
    notice := none
    waitGranule := none
    past := c.past || (!c.started && c.stamp.isSome)
    cursor := if back then c.cursor - c.pack.length else c.cursor
    outn := if back then c.outn - c.pack.length else c.outn
    pack := if back then [] else c.pack }
/-- R440, R457: a command of a lane as it is cut; an EFRM is abandoned. -/
def Cmd.cutLane (c : Cmd) : Cmd :=
  let c := { c with
    st := if c.st = .faulted then .faulted else .cut
    notice := none
    waitGranule := none
    past := c.past || ((!c.started || c.kind == 0x81) && c.stamp.isSome) }
  if c.kind = 0x81 ∧ c.st ≠ .faulted then
    { c with
      started := false
      fin := false
      acted := false
      cursor := 0
      ready := []
      run := [] }
  else c
/-- R439 to R447: the slot as its record holds it. -/
def Slot.saved (l : Slot) : Slot :=
  let chain := l.chain.abandon
  { l with
    stage := .free
    preq := none
    gateHeld := false
    drainHeld := false
    yielded := false
    draining := false
    eng := { l.eng with flying := l.eng.flying.map (·.cutStream) }
    array := l.array.map (·.cutLane)
    chain := { chain with cmd := chain.cmd.map (·.cutLane) }
    channels := l.channels.map fun (h : Channel) => { h with cmd := h.cmd.map (·.cutLane) } }
/-- A drained task's record keeps what its commands wait for (R327). -/
def Cmd.keepNotice (c : Cmd) (old : Option Cmd) : Cmd := { c with notice := old.bind (·.notice) }
def Slot.savedDrained (l : Slot) : Slot :=
  let r := l.saved
  { r with
    eng := { r.eng with flying := r.eng.flying.map fun c => c.keepNotice (l.eng.flying.find? fun x => x.seq == c.seq) }
    chain := { r.chain with cmd := r.chain.cmd.map fun c => c.keepNotice l.chain.cmd }
    channels := (r.channels.zip l.channels).map fun (x : Channel × Channel) =>
      { x.1 with cmd := x.1.cmd.map fun c => c.keepNotice x.2.cmd } }
/-- R308, R447: updates on their way reach their homes, and the buffers of completed rounds are applied; open ones stay. -/
def State.settle (s : State) (ctx : Nat) : State :=
  let s := s.landUpdates ctx
  let cuts := (s.slotAt ctx).quad.cuts
  s.applyRounds ctx fun r => match r with | some r => decide (r < cuts) | none => false
/-- R439 items 5 and 6: the record is written and the slot is free; its task waits at its die. -/
def State.saveTask (s : State) (ctx : Nat) (cut : Bool) : State :=
  let s := s.settle ctx
  let l := { s.slotAt ctx with quad := s.quadNow ctx }
  match l.task with
  | none => s
  | some t =>
    let waits := l.draining && s.notices.any fun n => n.age == t.age
    let s := (s.withdrawWaits t.age).resend ctx (savedSender t.age)
    let s := if waits then s else s.withdrawNotices t.age
    let s := { s with patches := s.patches.filter fun p => p.age != t.age }
    let w : Waiting :=
      { task := t
        saved := some (if waits then l.savedDrained else l.saved)
        left := ctx
        since := s.stc
        cut := cut
        area := s.freeArea
        buffers := s.buffers.filter fun u => u.ctx == ctx }
    let s := { s with buffers := s.buffers.filter fun u => u.ctx != ctx }
    let s := (s.writeRecord w).setSlot ctx fun l => l.vacate (s.acOf ctx)
    s.setDie (dieOf (nodeOf ctx)) fun d =>
      if waits then { d with drained := d.drained ++ [w] } else d.putTask (!l.yielded) w
/-- R390, R439: the slot's heads stop and its sources gate. -/
def State.beginGating (s : State) (ctx : Nat) : State :=
  (s.stopHeads ctx).setSlot ctx fun l => { l.gate (s.acOf ctx) with chain := l.chain.abandonWithheld }
/-- R327: a drained region is rolled back, not run to quiescence; its commands keep what they wait for. -/
def State.saveDrained (s : State) (ctx : Nat) : State :=
  let before := (s.slotAt ctx).eng.flying
  let t := ({ s.rollback ctx with notices := s.notices } : State).setEng ctx fun e => { e with
    flying := e.flying.map fun c => c.keepNotice (before.find? fun x => x.seq == c.seq) }
  t.saveTask ctx false
/-- SOURCE_GATING (R390, R439 to R441, R120): GRACE after the request the slot gates, or after TRET if it is in supervisor mode; at gating
quiescence it is saved. -/
def execSourceGating (s : State) : Res :=
  orStay s (
    let c := s.cur
    let l := s.me
    match l.stage with
    | .running =>
      if !s.gateDue c || l.core.commit then none
      else if l.core.sup then if l.gateHeld then none else some (s.setMe fun l => { l with gateHeld := true })
      else some (s.beginGating c)
    | .gating =>
      if l.draining then if s.stopped c then some (s.saveDrained c) else none
      else if s.gatedRest c then some (s.saveTask c (s.cutOpen c))
      else none
    | _ => none)
/-- GATING_LIMIT_EXPIRY (R441): the record's region part is the last complete cut, whatever has not come to rest. -/
def execGatingLimitExpiry (s : State) : Res :=
  orStay s (
    let l := s.me
    if l.stage != .gating || l.draining || decide (s.acOf s.cur < l.gated + s.gatingLimit) then none
    else some (s.saveTask s.cur true))

/-! ### The restore (R448, R449) -/

/-- R448 item 3: a cut command runs on, or waits again. -/
def Cmd.uncut (c : Cmd) : Cmd := if c.st = .cut then { c with st := if c.started then .running else .waiting } else c
/-- R448: the slot from its record, with a region table and block list of its own; the supervisor's registers do not survive (R119). -/
def State.restored (s : State) (ctx : Nat) (l : Slot) : Slot :=
  let here := s.slotAt ctx
  let regions := here.regions
  let copy (c : Cmd) : Cmd := { c.uncut with exts := ({ l with regions := regions } : Slot).copiesFor c }
  { l with
    stage := .running
    regions := regions
    blocks := here.blocks
    boundAt := s.stc
    eng := { l.eng with
      flying := l.eng.flying.map fun c => { copy c with notice := none }
      kept := l.eng.kept.map copy }
    array := l.array.map (·.uncut)
    chain := { l.chain with cmd := l.chain.cmd.map fun c => { c.uncut with notice := none } }
    channels := l.channels.map fun (h : Channel) => { h with cmd := h.cmd.map fun c => { c.uncut with notice := none } }
    core := { l.core.dueNow s.stc with
      supBank := Vector.ofFn fun k : Fin 8 => Config.freeWord (s.draws + k)
      supSpill := (List.range 512).map fun k => (k, Config.freeWord (s.draws + 8 + k)) } }
/-- R449: a held delivery is forwarded. -/
def State.forward (s : State) (ctx : Nat) (h : Held) : State :=
  match h with
  | .token r => { s with remotes := s.remotes ++ [{ r with dst := ctx, fwd := some (s.slotAt ctx).age }] }
  | .count e => s.setCoreAt ctx (·.addEvent (Fin.ofNat 32 e) 1)
/-- R449: the deliveries held for a task, in the order in which they arrived. -/
def State.forwardAll (s : State) (ctx : Nat) (age : Word) : State :=
  let mine := s.held.filter fun (a, _) => a == age
  mine.foldl (fun s (_, h) => s.forward ctx h) { s with held := s.held.filter fun (a, _) => a != age }
/-- R448 step 2, R461, R466: the region of the record, with its block as CFG loads it under the placement that this bind has formed; else the
code with which the task ends. -/
def State.restoredQuad (s : State) (ctx : Nat) (q : Quad) (p : Packet) : Except Nat Quad :=
  match q.blk with
  | none => .ok q
  | some old =>
    let b := s.listed ctx old.off
    match b.code, b.place with
    | some _, _ => .error 0x06
    | none, none => .error 0x05
    | none, some pl =>
      let now := readBlock (s.arenaByte ctx) p.cfgtab old.off pl
      .ok { q with
        blk := some now
        copy := some now }
/-- R176, R449: the tokens of a restored task that are still on their way are its own again, and it learns what has become of the others. -/
def State.heedAcks (s : State) (ctx : Nat) (w : Waiting) : State :=
  w.acks.foldl (fun s (r, placed) => if placed then s.tokenPlaced { r with src := ctx } else s.tokenDropped { r with src := ctx })
    (s.resend (savedSender w.task.age) ctx)
/-- R448, R466: a saved task is rebuilt on a slot; none of the steps may fail. -/
def State.restoreTask (s : State) (ctx : Nat) (w : Waiting) (l : Slot) : State :=
  let age := w.task.age
  let store := s.recordedStore w l
  let l := { l with
    store := store.1
    badWords := store.2 }
  let s := s.setSlot ctx fun x => ({ quad := x.quad } : Slot).bindTo w.task store l.core
  match s.formRegions ctx w.task.pkt.asid 0 w.task.decl.regions with
  | none => ((s.withdrawWaits age).releaseGranules age).endTask ctx (0x04 * 256)
  | some u =>
    let u := (u.rebindGraphs w.task.pkt).listFor ctx w.task
    match u.restoredQuad ctx l.quad w.task.pkt with
    | .error code => ((u.withdrawWaits age).releaseGranules age).endTask ctx (code * 256)
    | .ok q =>
      let u := u.setSlot ctx fun _ => u.restored ctx { l with quad := q }
      let u := { u with
        draws := u.draws + 520
        buffers := u.buffers ++ w.buffers.map fun (x : Update) => { x with ctx := ctx } }
      let u := if w.cut then u.rollback ctx else u
      (u.heedAcks ctx w).forwardAll ctx age
/-- R467, R473: a die restores saved tasks. -/
def State.restores (s : State) (d : Nat) : Bool :=
  !(s.die d).hot && !(d == 0 && (s.die 0).stage == 1 && (s.die 0).trained)
/-- TASK_RESTORE (R388, R448): the saved task at the front of the current slot's die. -/
def execTaskRestore (s : State) : Res :=
  orStay s (
    let d := dieOf (nodeOf s.cur)
    match (s.die d).front with
    | none => none
    | some w =>
      match w.saved with
      | none => none
      | some l =>
        if !s.restores d then none
        else (s.chooseSlot d w).map fun c => (s.setDie d (·.forget w.task.age)).restoreTask c w l)

end Sys2Proof.Machine
end

