-- ==== Sys2Proof/Machine/Bringup.lean ====
section
/-! DEFINITION. Service stages, trust, ageing and heat (spec/23 R467 to R474, spec/22 R462, R463, spec/14 R361). -/

namespace Sys2Proof.Machine

/-! ### Stages (R467) -/

/-- POWER_GOOD (R467): stage 0. -/
def execPowerGood (s : State) : Res := orStay s (if s.powered then none else some { s with powered := true })
/-- R467: the stage in which a die serves once its stacks have trained. -/
def State.fullStage (s : State) : Nat := if s.linked then 3 else 2
/-- R467: no task is bound in D0. -/
def State.d0Empty (s : State) : Bool := s.slots.all fun (c, l) => dieOf (nodeOf c) != 0 || l.stage == .free
/-- R467: a die whose firmware has verified and whose stacks have trained enters stage 2; D0 once no task is bound there. -/
def State.raise (s : State) (d : Nat) : State :=
  let x := s.die d
  if !x.verified || !x.trained || decide (2 ≤ x.stage) || (d == 0 && !s.d0Empty) then s
  else s.setDie d fun x => { x with stage := s.fullStage }

/-! ### Images (R470) -/

/-- A number in bytes of an image. -/
def imageNum (b : List Byte) (off n : Nat) : Nat := readNum (fun k => ((b[k]?).getD 0).toNat) off n
/-- R470: the body length, and the length of the image. -/
def imageLen (b : List Byte) : Nat := imageNum b 0x10 8
def imageKind (b : List Byte) : Nat := imageNum b 0 1
def imageSvn (b : List Byte) : Nat := imageNum b 8 8
/-- R470: the header keeps its layout. -/
def imageForm (b : List Byte) : Bool :=
  (imageKind b == 1 || imageKind b == 2) && imageNum b 1 1 == 1 && imageNum b 2 6 == 0 && imageLen b % 64 == 0
    && imageNum b 0x18 40 == 0 && b.length == 0x80 + imageLen b + 3309
/-- R470, R471: the SHA-384 digest of bytes, the first byte most significant. -/
def sha384Num (b : List Byte) : Nat := Crypto.beNat (Crypto.sha384 b)
/-- R470: a signature of algorithm k (0 Ed25519, 1 ML-DSA-65) verifies. -/
def signatureOk (k : Nat) (key m sig : List Byte) : Bool :=
  if k = 0 then Crypto.ed25519Ok key m sig else Crypto.mlDsa65Ok key m sig
/-- R470: both of its keys match their digests, both signatures over the header and body verify, and the SVN is not below the fused one. -/
def imageAccepted (b : List Byte) : Bool :=
  let signed := b.take (0x40 + imageLen b)
  let sigs := [(b.drop (0x40 + imageLen b)).take 64, b.drop (0x80 + imageLen b)]
  imageForm b && decide (Config.fusedMinSvn (imageKind b) ≤ imageSvn b)
    && (numbered 0 sigs).all fun (k, sig) =>
      sha384Num (Config.publicKey b k) == Config.fusedKeyDigest k && signatureOk k (Config.publicKey b k) signed sig
/-- R470, R471: an image that runs, with its digest and SVN; it takes the place of the one of its KIND. -/
def Die.install (d : Die) (b : List Byte) : Die :=
  { d with images := (d.images.filter fun x => x.1 != imageKind b) ++ [(imageKind b, sha384Num b, imageSvn b)] }
/-- FIRMWARE_VERIFY (R467, R470): a die's firmware is checked; D0 enters stage 1, and a die whose image is refused stays in stage 0. -/
def execFirmwareVerify (die : Nat) (s : State) : Res :=
  orStay s (
    let b := Config.bootImage die
    if !s.powered || decide (4 ≤ die) || (s.die die).verified || (s.die die).fail then none
    else if imageKind b == 1 && imageAccepted b then
      let t := s.setDie die fun d => { d.install b with verified := true }
      some (if die = 0 then t.setDie 0 fun d => { d with stage := 1 } else t.raise die)
    else some (s.setDie die fun d => { d with fail := true }))
/-- HBM_TRAINING_COMPLETE (R467, R469, R474): a die's stacks have trained. D0 whose firmware had not verified then, or that had a task bound,
enters stage 2 when it comes again, once its slots are empty. From 4 on, the training
of the die counted from there has ended in failure: FAIL is set, and the die goes no further (log 62). -/
def execHbmTrainingComplete (die : Nat) (s : State) : Res :=
  orStay s (
    if !s.powered || decide (8 ≤ die) || (s.die (die % 4)).fail then none
    else if (s.die (die % 4)).trained then if die = 0 then some (s.raise 0) else none
    else if 4 ≤ die then some (s.setDie (die - 4) fun d => { d with fail := true })
    else some ((s.setDie die fun d => { d with trained := true }).raise die))
/-- LINK_TRAINING_COMPLETE (R467): the links have trained and the pod descriptor has been read. -/
def execLinkTrainingComplete (s : State) : Res :=
  orStay s (
    if s.linked || decide ((s.die 0).stage < 2) then none
    else some { s with
      linked := true
      pkgId := Config.podId % 1024
      dies := s.dies.map fun d : Die => if d.stage = 2 then { d with stage := 3 } else d })
/-- FIRMWARE_UPDATE (R470, R474): the image of an update is verified at the current slot's die, and installed or refused whole. -/
def execFirmwareUpdate (s : State) : Res :=
  orStay s (
    let a := s.update
    let n := 0x80 + s.memWord (a + 0x10) + 3309
    let d := dieOf (nodeOf s.cur)
    if (s.die d).stage = 0 || !backedRun a 64 || !backedRun a n then none
    else
      let b := readBytes s.mem a n
      if imageAccepted b then some (s.setDie d (·.install b)) else none)

/-! ### Attestation (R471) -/

/-- R471: what an attestation report holds: of each die manager the number of its images, and of each its KIND, digest and SVN; the fused
minimum SVNs; RETIRED and CANON; the nonce; and STC. -/
def State.attestation (s : State) (nonce : Nat) : List Nat :=
  (s.dies.flatMap fun d => d.images.length :: d.images.flatMap fun (k, g, v) => [k, g, v])
    ++ [Config.fusedMinSvn 1, Config.fusedMinSvn 2, min 255 s.retiredTiles, s.dieBits (fun d => if d.canon then 1 else 0) 1,
      nonce % 2 ^ 256, s.stc]
/-- The bytes of numbers, 64 each. -/
def reportBytes (ws : List Nat) : List Byte := ws.flatMap fun w => (List.range 64).map fun k => BitVec.ofNat 8 (w / 256 ^ k)
/-- ATTESTATION_REQUEST (R471): the report is signed under both algorithms. -/
def execAttestationRequest (nonce : Nat) (s : State) : Res :=
  orStay s (
    if (s.die 0).stage = 0 then none
    else
      let ws := s.attestation nonce
      some { s with sent := s.sent ++ [.attest ws [Config.reportSignature 0 (reportBytes ws), Config.reportSignature 1 (reportBytes ws)]] })

/-! ### Ageing (R462, R463, R472) -/

/-- A part that a sample names, if the package has it. -/
def samplePart (v : Nat) : Option Part :=
  let n := v / 8 % 1024
  let p := v / 8192 % 256
  let compute := computeNode n
  match v % 8 with
  | 2 => if compute then some (.pe n p) else none
  | 3 => if compute ∧ p < 48 then some (.inPort n p) else none
  | 4 => if compute ∧ p < 32 then some (.outPort n p) else none
  | 5 => if compute then some (.tile n) else none
  | 6 => if 10 ≤ (localOf n).2 then some (.memoryTile n) else none
  | 7 => if (localOf n).2 < 2 then some (.hedgerow n) else none
  | _ => none
/-- AGEING_SAMPLE (R472): what the monitors find is a free value: a part that cannot meet its margins is marked; a memory tile or hedgerow
tile is reported and kept. -/
def execAgeingSample (s : State) : Res :=
  orStay s (
    let t := { s with draws := s.draws + 1 }
    if (s.die 0).stage = 0 then none
    else
      match samplePart (Config.monitorSample s.draws) with
      | none => some t
      | some (.memoryTile n) => some (t.setDie (dieOf n) fun d => { d with reported := d.reported ++ [n] })
      | some (.hedgerow n) => some (t.setDie (dieOf n) fun d => { d with reported := d.reported ++ [n] })
      | some p => some (if s.marked.contains p || s.retired.contains p then t else { t with marked := s.marked ++ [p] }))
/-- A slot has no task bound. -/
def State.slotEmpty (s : State) (ctx : Nat) : Bool := (s.slotAt ctx).stage == .free
def State.tileEmpty (s : State) (node : Nat) : Bool := (List.range 4).all fun k => s.slotEmpty (4 * node + k)
/-- R463: no task is bound where a part is; ports are a tile's. -/
def State.partFree (s : State) (p : Part) : Bool :=
  match p with
  | .pe n k => s.slotEmpty (4 * n + k / 64)
  | .inPort n _ => s.tileEmpty n
  | .outPort n _ => s.tileEmpty n
  | .tile n => s.tileEmpty n
  | .memoryTile _ => false
  | .hedgerow _ => false
def Part.node : Part → Nat
  | .pe n _ => n
  | .inPort n _ => n
  | .outPort n _ => n
  | .tile n => n
  | .memoryTile n => n
  | .hedgerow n => n
/-- R462: a quadrant of a tile has too few usable PEs or ports. -/
def State.tileWorn (s : State) (node : Nat) : Bool :=
  (List.range 4).any fun k =>
    decide ((s.usablePes (4 * node + k)).length < 60)
      || decide (s.usablePorts node true ((List.range 12).map (12 * k + ·)) < 10)
      || decide (s.usablePorts node false ((List.range 8).map (8 * k + ·)) < 7)
/-- R462, R472: a die below 112 usable tiles has lost canonical capacity. -/
def State.checkCanon (s : State) (d : Nat) : State :=
  if ((dieNodes d).filter s.tileUsable).length < 112 then s.setDie d fun x => { x with canon := true } else s
/-- R462: a tile that is worn is retired, or marked while a task is bound there. -/
def State.retireTile (s : State) (n : Nat) : State :=
  if s.retired.contains (.tile n) then s
  else if s.tileEmpty n then
    ({ s with
      retired := .tile n :: s.retired
      marked := s.marked.filter (· != .tile n) } : State).checkCanon (dieOf n)
  else if s.marked.contains (.tile n) then s
  else { s with marked := s.marked ++ [.tile n] }
/-- RETIREMENT (R462, R463): mark k takes effect once no task is bound there. -/
def execRetirement (k : Nat) (s : State) : Res :=
  orStay s (
    match s.marked[k]? with
    | none => none
    | some p =>
      if !s.partFree p then none
      else
        match p with
        | .tile n => some ({ s with marked := ldel k s.marked }.retireTile n)
        | p =>
          let t := { s with
            marked := ldel k s.marked
            retired := p :: s.retired }
          some (if t.tileWorn p.node then t.retireTile p.node else t))
/-! ### Heat (R473) and the pod (R361) -/

/-- SOFT_TEMPERATURE_LIMIT (R473): a die passes the limit and gets no further batch; once more, it has cooled. -/
def execSoftTemperatureLimit (die : Nat) (s : State) : Res :=
  orStay s (if 4 ≤ die then none else some (s.setDie die fun d => { d with hot := !d.hot }))
/-- HARD_TEMPERATURE_LIMIT (R473): power is removed and every piece of state is lost; what was sent outside stays sent. -/
def execHardTemperatureLimit (s : State) : Res :=
  .next { State.reset with
    agenda := s.agenda
    moves := s.moves
    draws := s.draws
    sent := s.sent }
/-- PACKAGE_LEAVES_POD (R355, R361). -/
def execPackageLeavesPod (pkg : Nat) (s : State) : Res :=
  orStay s (if s.unreachable.contains pkg then none else some { s with unreachable := pkg :: s.unreachable })

end Sys2Proof.Machine
end

