-- ==== Sys2Proof/Machine/System.lean ====
section
/-! DEFINITION. System registers, the software trap and its return, prefix words and DIAG (spec/02 R89 to R92, spec/04 R112 to
R117, spec/01 R25 to R30, R35). -/

namespace Sys2Proof.Machine

/-! ### System registers (R89, R90) -/

/-- R89: the registers that user mode may read. -/
def userReads (k : Nat) : Bool := k ≤ 4 || k == 13 || k == 14 || k == 15
/-- R89, R90: a system register, zero-extended. -/
def State.sysReg (t : State) (k : Nat) : Word :=
  let c := t.core
  match k with
  | 0 => BitVec.ofNat 64 t.stc
  | 1 => c.slipwin.zeroExtend 64
  | 2 => BitVec.ofNat 64 (t.cur % 4096)
  | 3 => c.age
  | 4 => c.restarts.zeroExtend 64
  | 5 => c.trapcause
  | 6 => c.trapval
  | 7 => c.trappcS.zeroExtend 64
  | 8 => c.trappcM.zeroExtend 64
  | 9 => c.trappcA.zeroExtend 64
  | 10 => c.trappcY.zeroExtend 64
  | 11 => c.arenabase.zeroExtend 64
  | 12 => c.arenabound.zeroExtend 64
  | 13 => BitVec.ofNat 64 ((t.me.quad.settle (t.acOf t.cur)).roundId (t.acOf t.cur) % 16)
  | 14 => c.deadline
  | _ => c.tstatus
/-- R115: the bits of `trapcause` that are not reserved. -/
def causeMask : Word := 0x1F0FFF
/-- R90: a write of a register that has no behaviour of its own. A new deadline can pass again (R256, R393). -/
def Core.writeSys (c : Core) (k : Nat) (v : Word) : Core :=
  match k with
  | 5 => { c with trapcause := v &&& causeMask }
  | 6 => { c with trapval := v }
  | 8 => { c with trappcM := v.truncate 32 }
  | 9 => { c with trappcA := v.truncate 32 }
  | 10 => { c with trappcY := v.truncate 32 }
  | 14 => { c with
      deadline := v
      dued := false }
  | _ => c
/-- R90: a SYSW of a register that supervisor mode alone writes. -/
def State.supWrite (s : State) (i : Instr) (k : Nat) (body : State → State) : Res :=
  s.issueS i (fun _ => false) fun t =>
    if t.core.sup then .next ((body t).finishS 1) else .next (t.syncTrap .s 0x04 (BitVec.ofNat 64 k))

/-- SYSR (R89, R90). -/
def execSysr (d : SReg) (sys : Fin 1024) (g : Bool) (lat : Fin 8) (s : State) : Res :=
  s.issueS (.sysr d sys g lat) (fun _ => false) fun t =>
    if t.core.sup || userReads sys.val then .next ((t.setCore (·.land (.s d) (t.sysReg sys.val) (latClass lat))).finishS 1)
    else .next (t.syncTrap .s 0x04 (BitVec.ofNat 64 sys.val))

/-- SYSW of `trapcause`, `trapval`, `trappc.m`, `trappc.a`, `trappc.y` or `deadline` (R89, R90, R117). -/
def execSysw (d : SReg) (sys : Fin 1024) (g : Bool) (s : State) : Res :=
  s.supWrite (.sysw d sys g) sys.val fun t => t.setCore (·.writeSys sys.val (t.readS 1 d))

/-- SYSW of `slipwin` (R90): the low nine bits, clamped into 1 to 256. -/
def execSyswSlipwin (d : SReg) (g : Bool) (s : State) : Res :=
  s.issueS (.syswSlipwin d g) (fun _ => false) fun t =>
    let v := max 1 (min 256 ((t.readS 1 d).toNat % 512))
    .next ((t.setCore fun c => { c with slipwin := BitVec.ofNat 9 v }).finishS 1)

/-- R117: the user path restarts at an address, with every head level. -/
def Core.restartAt (c : Core) (v : BitVec 32) : Core :=
  { c with
    trappcS := v
    trappcM := v
    trappcA := v
    trappcY := v
    user := { pcS := v.toNat, pcM := v.toNat, pcA := v.toNat, pcY := v.toNat } }

/-- SYSW of `trappc.s` (R90, R117). -/
def execSyswTrappcS (d : SReg) (g : Bool) (s : State) : Res :=
  s.supWrite (.syswTrappcS d g) 7 fun t => t.setCore (·.restartAt ((t.readS 1 d).truncate 32))

/-- SYSW of `tstatus` (R90, R112): DZT alone is written, in both modes. -/
def execSyswTstatus (d : SReg) (g : Bool) (s : State) : Res :=
  s.issueS (.syswTstatus d g) (fun _ => false) fun t =>
    .next ((t.setCore fun c => { c with dzt := (t.readS 1 d).getLsbD 7 }).finishS 1)

/-! ### The software trap and the return (R91, R92, R117) -/

/-- TRAP (R91): it issues, and the trap is its effect. -/
def execTrap (code : Fin 32) (a : SReg) (g : Bool) (s : State) : Res :=
  s.issueS (.trap code a g) (fun _ => false) fun t =>
    .next ((t.finishS 1).syncTrap .s 0x08 (t.readS 1 a) code.val)

/-- R117: from a trailing head's place on S's path, lag words behind that of S with used outcomes consumed, on to an address: its lag
and the outcomes consumed there. -/
def State.seek (s : State) (goal : Nat) : Nat → Nat → Nat → Nat → List Branch → Option (Nat × Nat)
  | 0, pc, lag, used, _ => if pc = goal then some (lag, used) else none
  | fuel + 1, pc, lag, used, boq =>
    if pc = goal then some (lag, used)
    else if lag = 0 then none
    else
      match s.fetch s.cur pc with
      | .word w =>
        let (next, rest) := nextOnPath pc (wordLen w) boq
        s.seek goal fuel next (lag - wordLen w) (used + (boq.length - rest.length)) rest
      | _ => none
/-- R117: the words in line from an address up to another, with no transfer between; fuel bounds them. -/
def State.inLine (s : State) (goal : Nat) : Nat → Nat → Option Nat
  | 0, _ => none
  | fuel + 1, pc =>
    if pc = goal then some 0
    else if goal < pc then none
    else
      match s.fetch s.cur pc with
      | .word w => if recordsWord w then none else (s.inLine goal fuel (pc + 4 * wordLen w)).map (· + wordLen w)
      | _ => none
/-- R117: a trailing head resumes at its trap PC: where it stood, if that is the address; else at that address on S's path, at or behind S;
elsewhere it is lost (DEDUCED, log 17). -/
def State.resumeHead (s : State) (h : Head) (goal : Nat) : State :=
  let p := s.core.path
  if p.place h = goal then s
  else
    let found := match s.seek goal (p.whole h) (p.pc h) (p.whole h) (p.used h) (p.boq.drop (p.used h)) with
      | some r => some r
      | none => (s.inLine (p.pc h) 512 goal).map fun n => (p.whole h + n, p.used h)
    s.setCore (·.setPath fun p =>
      match found with
      | some (lag, used) =>
        ((((p.setPc h goal).setLag h (if p.halfS then lag + 1 else lag)).setHalf h false).setUsed h used).setLost h none
      | none => p.setLost h (some goal))
/-- R111: results in flight for the supervisor bank land there. -/
def Core.landBank (c : Core) : Core :=
  let own (f : Flight) : Bool := match f.reg with
    | .s r => decide (24 ≤ r.val)
    | _ => false
  { c.flights.foldl (fun c f => if own f && !f.landed then c.setReg f.reg f.val else c) c with
    flights := c.flights.filter fun f => !own f }
/-- R92, R117: the slot is in user mode, each head at its trap PC. S goes on from where it stood, with its next unit at `trappc.s` (R114;
a write of `trappc.s` has put S there). A gating that has come due is taken before the first user issue (R118, R120). Words of the firmware for M, A and Y that precede the TRET and have not issued are dropped
(DESIGN CHOICE, log 74: the spec says nothing of them). A trap PC that is not at a word is fetched from all the same (DESIGN CHOICE, log
75). -/
def State.returnTrap (s : State) : State :=
  let s := s.setMe fun l => { l with
    gateHeld := s.gateDue s.cur
    core := { l.core.landBank with
      sup := false
      ywait := none
      firm := {} } }
  let s := ((s.resumeHead .m s.core.trappcM.toNat).resumeHead .a s.core.trappcA.toNat).resumeHead .y s.core.trappcY.toNat
  s.setCore (·.setPath (·.trim))

/-- TRET (R92, R117). In user mode it traps, with its own word as `trapval` (R116). -/
def execTret (g : Bool) (s : State) : Res :=
  s.issueS (.tret g) (fun _ => false) fun t =>
    if t.core.sup then .next ((t.finishS 1).returnTrap)
    else
      let w := match t.fetch t.cur t.core.path.pcS with | .word w => w | _ => 0
      .next (t.syncTrap .s 0x04 (BitVec.ofNat 64 w))

/-! ### Prefix words (R26 to R29) -/

/-- R29: the modifiers RM, SAT and FTZ that an instruction accepts; none for one that takes no prefix. -/
def accepts : Instr → Option (Bool × Bool × Bool)
  | .fadd .. => some (true, true, true)
  | .fsub .. => some (true, true, true)
  | .fmul .. => some (true, true, true)
  | .ffma .. => some (true, true, true)
  | .fdiv .. => some (true, true, true)
  | .fsqrt .. => some (true, true, true)
  | .fcvtRint .. => some (true, true, true)
  | .fcvtRound32 .. => some (true, true, true)
  | .fcvtToint .. => some (true, true, true)
  | .fcvtTouint .. => some (true, true, true)
  | .fcvtFromint .. => some (true, true, true)
  | .fcvtFromuint .. => some (true, true, true)
  | .fcvtTofp32 .. => some (true, true, true)
  | .fcvtFromfp32 .. => some (true, true, true)
  | .fcvtTofp16 .. => some (true, true, true)
  | .fcvtFromfp16 .. => some (true, true, true)
  | .fcvtTobf16 .. => some (true, true, true)
  | .fcvtFrombf16 .. => some (true, true, true)
  | .fcvtToe4m3 .. => some (true, true, true)
  | .fcvtFrome4m3 .. => some (true, true, true)
  | .fcvtToe5m2 .. => some (true, true, true)
  | .fcvtFrome5m2 .. => some (true, true, true)
  | .fcvtTotap8 .. => some (true, true, true)
  | .fcvtFromtap8 .. => some (true, true, true)
  | .fcvtTotap6 .. => some (true, true, true)
  | .fcvtFromtap6 .. => some (true, true, true)
  | .fmin .. => some (false, false, true)
  | .fmax .. => some (false, false, true)
  | .fcmp .. => some (false, false, true)
  | .add .. => some (false, true, false)
  | .sub .. => some (false, true, false)
  | .mul .. => some (false, true, false)
  | .addi .. => some (false, true, false)
  | .muli .. => some (false, true, false)
  | .madi .. => some (false, true, false)
  | .sred .. => some (true, true, true)
  | .satm .. => some (true, true, true)
  | .chrun .. => some (true, false, true)
  | _ => none

/-- What the scan of R27 finds: a target so many words on, what ends it without one (the word and its offset), or a word that no
storage backs. -/
inductive Scan where
  | target (dist : Nat) (i : Instr)
  | orphan (w off : Nat)
  | unbacked (addr : Nat)
/-- R27: the scan from the word at offset off, dist words past the prefix. Where it reaches `arenabound`, no word has ended it, and the
offset that the trap carries is the one at which it stopped (DESIGN CHOICE, log 77). An uncorrectable word ends the scan as the bound
does (DEDUCED, log 78: R335 has it count as outside the arena where it is fetched). -/
def State.scan (s : State) (tag : Nat) : Nat → Nat → Nat → Scan
  | 0, off, _ => .orphan 0 off
  | fuel + 1, off, dist =>
    match s.fetch s.cur off with
    | .outside => .orphan 0 off
    | .unbacked a => .unbacked a
    | .word w =>
      if transferWord w then .orphan w off
      else if wordTag w ≠ tag then s.scan tag fuel (off + 4 * wordLen w) (dist + wordLen w)
      else if w % 4 = 2 then .orphan w off
      else
        match decode w (match s.fetch s.cur (off + 4) with | .word x => x | _ => 0) with
        | .error _ => .orphan w off
        | .ok i => if i.wf && (accepts i).isSome then .target dist i else .orphan w off

/-- R28: a trailing head moves on to the target of a prefix, with the modifiers. -/
def Core.armAt (c : Core) (h : Head) (rm : Nat) (sat ftz : Bool) (dist : Nat) : Core :=
  let at' := c.path.pc h
  let c := c.setPath fun p => (p.setPc h (at' + 4 * dist)).setLag h (p.lag h - dist)
  { c with arm := some ⟨h, rm, sat, ftz, at', dist⟩ }
/-- R28, R88: S steps past a prefix and keeps its modifiers for the target: the unit issues there, after the words between. -/
def Core.passPrefix (c : Core) (rm : Nat) (sat ftz : Bool) (dist : Nat) : Core :=
  c.setPath fun p => { p.passS 1 with pfx := some ⟨rm, sat, ftz, p.pcS, p.pcS + 4 * dist⟩ }

/-- PFX (R27 to R29): it issues with its target. S goes on to the target first, as the slip window
lets it (R103); a trailing head waits until S is past the target, which
the step then executes next. -/
def execPfx (ftz : Bool) (sat : Bool) (rm : Fin 8) (head : Fin 8) (s : State) : Res :=
  let h : Head := if head = 0 then .s else if head = 1 then .m else .a
  let off := s.core.path.pc h
  match s.scan head.val ((s.arena s.cur).2 / 4) (off + 4) 1 with
  | .unbacked a => .fault (.unbacked a)
  | .orphan w at' => .next (s.syncTrap h 0x02 (BitVec.ofNat 64 (w % 2 ^ 32 + at' * 2 ^ 32)))
  | .target dist i =>
    match accepts i with
    | none => .next s
    | some (r, t, f) =>
      if (rm != 0 && !r) || (sat && !t) || (ftz && !f) then
        .next (s.illegal h (match s.fetch s.cur off with | .word w => w | _ => 0) 0)
      else if h = .s then if s.core.slipOk 1 then .next (s.setCore (·.passPrefix rm.val sat ftz dist)) else .next s
      else if s.core.path.lag h ≤ dist then .next s
      else .next (s.setCore (·.armAt h rm.val sat ftz dist))

/-! ### DIAG (R35) -/

/-- DIAG (R35): an illegal encoding, whatever its guard, unless the diagnostic enable is set; then it has no effect (DEDUCED,
log 18). -/
def execDiag (g : Bool) (s : State) : Res :=
  if s.core.path.lag .y < s.core.path.left .y 1 then .next s
  else if !s.core.diagen then
    .next (s.illegal .y (match s.fetch s.cur (s.core.path.pc .y) with | .word w => w | _ => 0) 0)
  else s.issueX .y (.diag g) fun t => .next (t.finishX .y 1)

end Sys2Proof.Machine
end

