-- ==== Sys2Proof/Machine/CoreEv.lean ====
section
/-! DEFINITION. The events of a control core: a result lands, a bank is granted, and a pending cause is taken (spec/02 R52, spec/04
R109, R113, R114). -/

namespace Sys2Proof.Machine

/-- RESULT_LAND (R52). -/
def execResultLand (k : Nat) (s : State) : Res := .next (s.setCore (·.landOne k))

/-- TILE_STORE_BANK_GRANT (R109): the stream engine keeps the bank from an access for two ac at most. -/
def execTileStoreBankGrant (conflict : Bool) (s : State) : Res :=
  orStay s (s.core.bank.map fun b =>
    if conflict && decide (b.refused < 2) then s.setCore fun c => { c with bank := some { b with refused := b.refused + 1 } }
    else s.grantBank s.cur)

/-- TRAP_ENTRY (R113, R114, R118): a pending cause is taken in user mode, the one that became pending first (DESIGN CHOICE, log 79: the
spec gives several no order). A synchronous trap is entered by the word that raises it, and before this (State.firstTrap). -/
def execTrapEntry (s : State) : Res :=
  orStay s (
    match s.core.pend with
    | [] => none
    | p :: rest =>
      if s.core.sup || s.me.stage != .running || s.core.commit then none
      else
        let t := s.setCore fun c => { c with pend := rest }
        some (t.trapAt s.cur (s.nextS s.cur) (causeWord 0 true p.head p.cause) p.val))

end Sys2Proof.Machine
end

