-- ==== Sys2Proof/Machine/Scalar.lean ====
section
/-! DEFINITION. The integer, bit-field and predicate instructions of the S head (spec/02 R56 to R67). -/

namespace Sys2Proof.Machine

/-- R57: an exact result modulo 2^64, or clamped to the signed range under SAT. -/
def clampInt (sat : Bool) (v : Int) : Word :=
  if sat then BitVec.ofInt 64 (max (-(2 ^ 63)) (min (2 ^ 63 - 1) v)) else BitVec.ofInt 64 v
/-- R59: IMM32 sign-extended. -/
def sext (imm : BitVec 32) : Word := imm.signExtend 64
/-- R59: IMM32 zero-extended. -/
def zext (imm : BitVec 32) : Word := imm.zeroExtend 64
/-- R56: the shift amount s[B][5:0]. -/
def shiftAmount (b : Word) : Nat := b.toNat % 64
/-- R61: one bits among the low n. -/
def onesBelow (v : Word) : Nat → Nat
  | 0 => 0
  | n + 1 => onesBelow v n + if v.getLsbD n then 1 else 0
/-- R61: zero bits above the highest one bit among the low n. -/
def leadingZeros (v : Word) : Nat → Nat
  | 0 => 0
  | n + 1 => if v.getLsbD n then 0 else leadingZeros v n + 1
/-- R61: zero bits from bit k up, n bits being left. -/
def trailingZeros (v : Word) (k : Nat) : Nat → Nat
  | 0 => 0
  | n + 1 => if v.getLsbD k then 0 else trailingZeros v (k + 1) n + 1
/-- R62: EXT under a field specification. -/
def extractField (x : Word) (spec : Nat) : Word :=
  let lsb := spec % 64
  let w := spec / 64 % 64 + 1
  let f := x.toNat / 2 ^ lsb % 2 ^ w
  if spec / 4096 % 2 = 1 then BitVec.ofInt 64 (toSigned w f) else BitVec.ofNat 64 f
/-- R62: INS under a field specification. -/
def insertField (y x : Word) (spec : Nat) : Word :=
  let lsb := spec % 64
  let w := spec / 64 % 64 + 1
  let mask : Word := BitVec.ofNat 64 ((2 ^ w - 1) * 2 ^ lsb)
  (y &&& ~~~mask) ||| ((x <<< lsb) &&& mask)
/-- R58: DIV: the signed quotient, rounded toward zero. -/
def quotS (a b : Word) : Word := if b = 0 then BitVec.allOnes 64 else BitVec.ofInt 64 (a.toInt.tdiv b.toInt)
/-- R58: DIVU. -/
def quotU (a b : Word) : Word := if b = 0 then BitVec.allOnes 64 else BitVec.ofNat 64 (a.toNat / b.toNat)
/-- R58: REM: the remainder takes the dividend's sign. -/
def remS (a b : Word) : Word := if b = 0 then a else BitVec.ofInt 64 (a.toInt.tmod b.toInt)
/-- R58: REMU. -/
def remU (a b : Word) : Word := if b = 0 then a else BitVec.ofNat 64 (a.toNat % b.toNat)
/-- R56: bits [127:64] of the signed product. -/
def mulHigh (a b : Word) : Word := BitVec.ofInt 64 (a.toInt * b.toInt / 2 ^ 64)
/-- R56: bits [127:64] of the unsigned product. -/
def mulHighU (a b : Word) : Word := BitVec.ofNat 64 (a.toNat * b.toNat / 2 ^ 64)

/-- R56: a register-register instruction. -/
def State.binary (s : State) (i : Instr) (a b : SReg) (lat : Fin 8) (f : Mods → Word → Word → Word) : Res :=
  s.issueResult i (latClass lat) fun t => f s.core.mods (t.readS 1 a) (t.readS 2 b)
/-- R59 to R61: an instruction of one register. -/
def State.unary (s : State) (i : Instr) (a : SReg) (lat : Fin 8) (f : Mods → Word → Word) : Res :=
  s.issueResult i (latClass lat) fun t => f s.core.mods (t.readS 1 a)
/-- R58: a division: by zero it traps under DZT. -/
def State.divide (s : State) (i : Instr) (a b : SReg) (lat : Fin 8) (f : Word → Word → Word) : Res :=
  s.issueS i (fun _ => false) fun t =>
    let x := t.readS 1 a
    let y := t.readS 2 b
    if y = 0 ∧ t.core.dzt then .next (t.syncTrap .s 0x05 x)
    else .next ((match i.dest with
      | some r => t.setCore (·.land r (f x y) (latClass lat))
      | none => t).finishS (words i))

/-- ADD (R56, R57). -/
def execAdd (d : SReg) (a : SReg) (b : SReg) (g : Bool) (lat : Fin 8) (s : State) : Res :=
  s.binary (.add d a b g lat) a b lat fun m x y => clampInt m.sat (x.toInt + y.toInt)

/-- SUB (R56, R57). -/
def execSub (d : SReg) (a : SReg) (b : SReg) (g : Bool) (lat : Fin 8) (s : State) : Res :=
  s.binary (.sub d a b g lat) a b lat fun m x y => clampInt m.sat (x.toInt - y.toInt)

/-- MUL (R56, R57). -/
def execMul (d : SReg) (a : SReg) (b : SReg) (g : Bool) (lat : Fin 8) (s : State) : Res :=
  s.binary (.mul d a b g lat) a b lat fun m x y => clampInt m.sat (x.toInt * y.toInt)

/-- MULH (R56). -/
def execMulh (d : SReg) (a : SReg) (b : SReg) (g : Bool) (lat : Fin 8) (s : State) : Res :=
  s.binary (.mulh d a b g lat) a b lat fun _ x y => mulHigh x y

/-- MULHU (R56). -/
def execMulhu (d : SReg) (a : SReg) (b : SReg) (g : Bool) (lat : Fin 8) (s : State) : Res :=
  s.binary (.mulhu d a b g lat) a b lat fun _ x y => mulHighU x y

/-- DIV (R58). -/
def execDiv (d : SReg) (a : SReg) (b : SReg) (g : Bool) (lat : Fin 8) (s : State) : Res :=
  s.divide (.div d a b g lat) a b lat quotS

/-- DIVU (R58). -/
def execDivu (d : SReg) (a : SReg) (b : SReg) (g : Bool) (lat : Fin 8) (s : State) : Res :=
  s.divide (.divu d a b g lat) a b lat quotU

/-- REM (R58). -/
def execRem (d : SReg) (a : SReg) (b : SReg) (g : Bool) (lat : Fin 8) (s : State) : Res :=
  s.divide (.rem d a b g lat) a b lat remS

/-- REMU (R58). -/
def execRemu (d : SReg) (a : SReg) (b : SReg) (g : Bool) (lat : Fin 8) (s : State) : Res :=
  s.divide (.remu d a b g lat) a b lat remU

/-- AND (R56). -/
def execAnd (d : SReg) (a : SReg) (b : SReg) (g : Bool) (lat : Fin 8) (s : State) : Res :=
  s.binary (.and d a b g lat) a b lat fun _ x y => x &&& y

/-- OR (R56). -/
def execOr (d : SReg) (a : SReg) (b : SReg) (g : Bool) (lat : Fin 8) (s : State) : Res :=
  s.binary (.or d a b g lat) a b lat fun _ x y => x ||| y

/-- XOR (R56). -/
def execXor (d : SReg) (a : SReg) (b : SReg) (g : Bool) (lat : Fin 8) (s : State) : Res :=
  s.binary (.xor d a b g lat) a b lat fun _ x y => x ^^^ y

/-- ANDN (R56). -/
def execAndn (d : SReg) (a : SReg) (b : SReg) (g : Bool) (lat : Fin 8) (s : State) : Res :=
  s.binary (.andn d a b g lat) a b lat fun _ x y => x &&& ~~~y

/-- SHL (R56). -/
def execShl (d : SReg) (a : SReg) (b : SReg) (g : Bool) (lat : Fin 8) (s : State) : Res :=
  s.binary (.shl d a b g lat) a b lat fun _ x y => x <<< shiftAmount y

/-- SHR (R56). -/
def execShr (d : SReg) (a : SReg) (b : SReg) (g : Bool) (lat : Fin 8) (s : State) : Res :=
  s.binary (.shr d a b g lat) a b lat fun _ x y => x >>> shiftAmount y

/-- SAR (R56). -/
def execSar (d : SReg) (a : SReg) (b : SReg) (g : Bool) (lat : Fin 8) (s : State) : Res :=
  s.binary (.sar d a b g lat) a b lat fun _ x y => x.sshiftRight (shiftAmount y)

/-- MIN (R56). -/
def execMin (d : SReg) (a : SReg) (b : SReg) (g : Bool) (lat : Fin 8) (s : State) : Res :=
  s.binary (.min d a b g lat) a b lat fun _ x y => if x.slt y then x else y

/-- MAX (R56). -/
def execMax (d : SReg) (a : SReg) (b : SReg) (g : Bool) (lat : Fin 8) (s : State) : Res :=
  s.binary (.max d a b g lat) a b lat fun _ x y => if x.slt y then y else x

/-- MINU (R56). -/
def execMinu (d : SReg) (a : SReg) (b : SReg) (g : Bool) (lat : Fin 8) (s : State) : Res :=
  s.binary (.minu d a b g lat) a b lat fun _ x y => if x.ult y then x else y

/-- MAXU (R56). -/
def execMaxu (d : SReg) (a : SReg) (b : SReg) (g : Bool) (lat : Fin 8) (s : State) : Res :=
  s.binary (.maxu d a b g lat) a b lat fun _ x y => if x.ult y then y else x

/-- ADDI (R57, R59). -/
def execAddi (d : SReg) (a : SReg) (imm : BitVec 32) (g : Bool) (lat : Fin 8) (s : State) : Res :=
  s.unary (.addi d a imm g lat) a lat fun m x => clampInt m.sat (x.toInt + imm.toInt)

/-- MULI (R57, R59). -/
def execMuli (d : SReg) (a : SReg) (imm : BitVec 32) (g : Bool) (lat : Fin 8) (s : State) : Res :=
  s.unary (.muli d a imm g lat) a lat fun m x => clampInt m.sat (x.toInt * imm.toInt)

/-- ANDI (R59). -/
def execAndi (d : SReg) (a : SReg) (imm : BitVec 32) (g : Bool) (lat : Fin 8) (s : State) : Res :=
  s.unary (.andi d a imm g lat) a lat fun _ x => x &&& sext imm

/-- ORI (R59). -/
def execOri (d : SReg) (a : SReg) (imm : BitVec 32) (g : Bool) (lat : Fin 8) (s : State) : Res :=
  s.unary (.ori d a imm g lat) a lat fun _ x => x ||| zext imm

/-- XORI (R59). -/
def execXori (d : SReg) (a : SReg) (imm : BitVec 32) (g : Bool) (lat : Fin 8) (s : State) : Res :=
  s.unary (.xori d a imm g lat) a lat fun _ x => x ^^^ zext imm

/-- SHLI (R60). -/
def execShli (d : SReg) (a : SReg) (sh : Fin 64) (lat : Fin 8) (s : State) : Res :=
  s.unary (.shli d a sh lat) a lat fun _ x => x <<< sh.val

/-- SHRI (R60). -/
def execShri (d : SReg) (a : SReg) (sh : Fin 64) (lat : Fin 8) (s : State) : Res :=
  s.unary (.shri d a sh lat) a lat fun _ x => x >>> sh.val

/-- SARI (R60). -/
def execSari (d : SReg) (a : SReg) (sh : Fin 64) (lat : Fin 8) (s : State) : Res :=
  s.unary (.sari d a sh lat) a lat fun _ x => x.sshiftRight sh.val

/-- LI (R59). -/
def execLi (d : SReg) (imm : BitVec 32) (g : Bool) (lat : Fin 8) (s : State) : Res :=
  s.issueResult (.li d imm g lat) (latClass lat) fun _ => sext imm

/-- CLZ (R61). -/
def execClz (d : SReg) (a : SReg) (g : Bool) (lat : Fin 8) (s : State) : Res :=
  s.unary (.clz d a g lat) a lat fun _ x => BitVec.ofNat 64 (leadingZeros x 64)

/-- CTZ (R61). -/
def execCtz (d : SReg) (a : SReg) (g : Bool) (lat : Fin 8) (s : State) : Res :=
  s.unary (.ctz d a g lat) a lat fun _ x => BitVec.ofNat 64 (trailingZeros x 0 64)

/-- POPC (R61). -/
def execPopc (d : SReg) (a : SReg) (g : Bool) (lat : Fin 8) (s : State) : Res :=
  s.unary (.popc d a g lat) a lat fun _ x => BitVec.ofNat 64 (onesBelow x 64)

/-- EXT (R62). -/
def execExt (d : SReg) (a : SReg) (imm : BitVec 32) (g : Bool) (lat : Fin 8) (s : State) : Res :=
  s.unary (.ext d a imm g lat) a lat fun _ x => extractField x imm.toNat

/-- INS (R62): the field of s[D] as it stands. -/
def execIns (d : SReg) (a : SReg) (imm : BitVec 32) (g : Bool) (lat : Fin 8) (s : State) : Res :=
  s.issueResult (.ins d a imm g lat) (latClass lat) fun t => insertField (t.readS 3 d) (t.readS 1 a) imm.toNat

/-- SEL (R63). -/
def execSel (d : SReg) (a : SReg) (b : SReg) (lat : Fin 8) (s : State) : Res :=
  s.issueResult (.sel d a b lat) (latClass lat) fun t => if t.readP 3 1 then t.readS 1 a else t.readS 2 b

/-- MADI (R57, R64). -/
def execMadi (d : SReg) (a : SReg) (b : SReg) (imm : BitVec 32) (g : Bool) (lat : Fin 8) (s : State) : Res :=
  s.binary (.madi d a b imm g lat) a b lat fun m x y => clampInt m.sat (x.toInt * imm.toInt + y.toInt)

/-- CMP (R65). -/
def execCmp (c : Fin 4) (p : PReg) (a : SReg) (b : SReg) (g : Bool) (lat : Fin 8) (s : State) : Res :=
  s.binary (.cmp c p a b g lat) a b lat fun _ x y => if intCond c x y then 1 else 0

/-- CMPI (R65). -/
def execCmpi (c : Fin 4) (p : PReg) (a : SReg) (imm : BitVec 32) (g : Bool) (lat : Fin 8) (s : State) : Res :=
  s.unary (.cmpi c p a imm g lat) a lat fun _ x => if intCond c x (sext imm) then 1 else 0

/-- PLOG (R67). -/
def execPlog (c : Fin 4) (p : PReg) (i : Bool) (x : PReg) (j : Bool) (y : PReg) (g : Bool) (lat : Fin 8) (s : State) : Res :=
  s.issueResult (.plog c p i x j y g lat) (latClass lat) fun t =>
    if predFn c (t.readP 1 x != i) (t.readP 2 y != j) then 1 else 0

end Sys2Proof.Machine
end

