-- ==== Sys2Proof/Machine/Float.lean ====
section
/-! DEFINITION. The FP64 instructions of the S head (spec/02 R66, R68 to R73). -/

namespace Sys2Proof.Machine

/-- R68: the exact value of an FP64 operand; a subnormal one is zero of its sign under FTZ. -/
def fp (m : Mods) (x : Word) : FVal := Fmt.fp64.operand m.ftz x.toNat
/-- R68: Round into FP64. -/
def fpWord (m : Mods) (v : FVal) : Word := BitVec.ofNat 64 (roundTo .fp64 m v)
/-- R70: the value rounded to an integer, which keeps its sign when it is zero. -/
def integral (rm : RMode) : FVal → FVal
  | .fin n k e => .fin n (roundMag rm n k e 0) 0
  | v => v
/-- R71: TOUINT. -/
def toUnsigned (m : Mods) : FVal → Word
  | .nan => if m.sat then 0 else 1 <<< 63
  | .inf n => if m.sat then (if n then 0 else BitVec.allOnes 64) else 1 <<< 63
  | .fin n k e =>
    let v := roundInt m.rm n k e
    if v < 0 then (if m.sat then 0 else 1 <<< 63)
    else if 2 ^ 64 ≤ v then (if m.sat then BitVec.allOnes 64 else 1 <<< 63)
    else BitVec.ofInt 64 v
/-- R70: a pattern of format f, with zeros above it. -/
def narrow (f : Fmt) (m : Mods) (x : Word) : Word := BitVec.ofNat 64 (roundTo f m (fp m x))
/-- R70: a pattern of format f widened to FP64, exactly. -/
def widen (f : Fmt) (m : Mods) (x : Word) : Word := fpWord {} (f.operand m.ftz (x.toNat % 2 ^ f.width))

/-- R68: an instruction of two f registers. -/
def State.fbinary (s : State) (i : Instr) (a b : FReg) (lat : Fin 8) (f : Mods → Word → Word → Word) : Res :=
  s.issueResult i (latClass lat) fun t => f s.core.mods (t.readF 1 a) (t.readF 2 b)
/-- R68, R70: an instruction of one f register. -/
def State.funary (s : State) (i : Instr) (a : FReg) (lat : Fin 8) (f : Mods → Word → Word) : Res :=
  s.issueResult i (latClass lat) fun t => f s.core.mods (t.readF 1 a)

/-- FADD (R68). -/
def execFadd (d : FReg) (a : FReg) (b : FReg) (g : Bool) (lat : Fin 8) (s : State) : Res :=
  s.fbinary (.fadd d a b g lat) a b lat fun m x y => fpWord m ((fp m x).add m.rm (fp m y))

/-- FSUB (R68). -/
def execFsub (d : FReg) (a : FReg) (b : FReg) (g : Bool) (lat : Fin 8) (s : State) : Res :=
  s.fbinary (.fsub d a b g lat) a b lat fun m x y => fpWord m ((fp m x).add m.rm (fp m y).neg)

/-- FMUL (R68). -/
def execFmul (d : FReg) (a : FReg) (b : FReg) (g : Bool) (lat : Fin 8) (s : State) : Res :=
  s.fbinary (.fmul d a b g lat) a b lat fun m x y => fpWord m ((fp m x).mul (fp m y))

/-- FFMA (R68): rounded once. -/
def execFfma (d : FReg) (a : FReg) (b : FReg) (g : Bool) (lat : Fin 8) (s : State) : Res :=
  s.issueResult (.ffma d a b g lat) (latClass lat) fun t =>
    let m := s.core.mods
    fpWord m (((fp m (t.readF 1 a)).mul (fp m (t.readF 2 b))).add m.rm (fp m (t.readF 3 d)))

/-- FDIV (R68). -/
def execFdiv (d : FReg) (a : FReg) (b : FReg) (g : Bool) (lat : Fin 8) (s : State) : Res :=
  s.fbinary (.fdiv d a b g lat) a b lat fun m x y => fpWord m ((fp m x).div (fp m y))

/-- FSQRT (R68). -/
def execFsqrt (d : FReg) (a : FReg) (g : Bool) (lat : Fin 8) (s : State) : Res :=
  s.funary (.fsqrt d a g lat) a lat fun m x => fpWord m (fp m x).sqrt

/-- FMIN (R69). -/
def execFmin (d : FReg) (a : FReg) (b : FReg) (g : Bool) (lat : Fin 8) (s : State) : Res :=
  s.fbinary (.fmin d a b g lat) a b lat fun m x y => fpWord {} ((fp m x).min (fp m y))

/-- FMAX (R69). -/
def execFmax (d : FReg) (a : FReg) (b : FReg) (g : Bool) (lat : Fin 8) (s : State) : Res :=
  s.fbinary (.fmax d a b g lat) a b lat fun m x y => fpWord {} ((fp m x).max (fp m y))

/-- FCMP (R66). -/
def execFcmp (c : Fin 4) (p : PReg) (a : FReg) (b : FReg) (g : Bool) (lat : Fin 8) (s : State) : Res :=
  s.fbinary (.fcmp c p a b g lat) a b lat fun m x y => if floatCond c (fp m x) (fp m y) then 1 else 0

/-- fcvtRint (R70). -/
def execFcvtRint (d : FReg) (a : FReg) (g : Bool) (lat : Fin 8) (s : State) : Res :=
  s.funary (.fcvtRint d a g lat) a lat fun m x => fpWord {} (integral m.rm (fp m x))

/-- fcvtRound32 (R70). -/
def execFcvtRound32 (d : FReg) (a : FReg) (g : Bool) (lat : Fin 8) (s : State) : Res :=
  s.funary (.fcvtRound32 d a g lat) a lat fun m x => fpWord {} (Fmt.fp32.value (roundTo .fp32 m (fp m x)))

/-- fcvtToint (R71). -/
def execFcvtToint (d : SReg) (a : FReg) (g : Bool) (lat : Fin 8) (s : State) : Res :=
  s.funary (.fcvtToint d a g lat) a lat fun m x => BitVec.ofNat 64 (roundToInt 64 m (Fmt.fp64.value x.toNat))

/-- fcvtTouint (R71). -/
def execFcvtTouint (d : SReg) (a : FReg) (g : Bool) (lat : Fin 8) (s : State) : Res :=
  s.funary (.fcvtTouint d a g lat) a lat fun m x => toUnsigned m (Fmt.fp64.value x.toNat)

/-- fcvtFromint (R71). -/
def execFcvtFromint (d : FReg) (a : SReg) (g : Bool) (lat : Fin 8) (s : State) : Res :=
  s.unary (.fcvtFromint d a g lat) a lat fun m x => fpWord { rm := m.rm } (.ofInt x.toInt)

/-- fcvtFromuint (R71). -/
def execFcvtFromuint (d : FReg) (a : SReg) (g : Bool) (lat : Fin 8) (s : State) : Res :=
  s.unary (.fcvtFromuint d a g lat) a lat fun m x => fpWord { rm := m.rm } (.ofInt x.toNat)

/-- fcvtTofp32 (R70). -/
def execFcvtTofp32 (d : SReg) (a : FReg) (g : Bool) (lat : Fin 8) (s : State) : Res :=
  s.funary (.fcvtTofp32 d a g lat) a lat fun m x => narrow .fp32 m x

/-- fcvtFromfp32 (R70). -/
def execFcvtFromfp32 (d : FReg) (a : SReg) (g : Bool) (lat : Fin 8) (s : State) : Res :=
  s.unary (.fcvtFromfp32 d a g lat) a lat fun m x => widen .fp32 m x

/-- fcvtTofp16 (R70). -/
def execFcvtTofp16 (d : SReg) (a : FReg) (g : Bool) (lat : Fin 8) (s : State) : Res :=
  s.funary (.fcvtTofp16 d a g lat) a lat fun m x => narrow .fp16 m x

/-- fcvtFromfp16 (R70). -/
def execFcvtFromfp16 (d : FReg) (a : SReg) (g : Bool) (lat : Fin 8) (s : State) : Res :=
  s.unary (.fcvtFromfp16 d a g lat) a lat fun m x => widen .fp16 m x

/-- fcvtTobf16 (R70). -/
def execFcvtTobf16 (d : SReg) (a : FReg) (g : Bool) (lat : Fin 8) (s : State) : Res :=
  s.funary (.fcvtTobf16 d a g lat) a lat fun m x => narrow .bf16 m x

/-- fcvtFrombf16 (R70). -/
def execFcvtFrombf16 (d : FReg) (a : SReg) (g : Bool) (lat : Fin 8) (s : State) : Res :=
  s.unary (.fcvtFrombf16 d a g lat) a lat fun m x => widen .bf16 m x

/-- fcvtToe4m3 (R70). -/
def execFcvtToe4m3 (d : SReg) (a : FReg) (g : Bool) (lat : Fin 8) (s : State) : Res :=
  s.funary (.fcvtToe4m3 d a g lat) a lat fun m x => narrow .e4m3 m x

/-- fcvtFrome4m3 (R70). -/
def execFcvtFrome4m3 (d : FReg) (a : SReg) (g : Bool) (lat : Fin 8) (s : State) : Res :=
  s.unary (.fcvtFrome4m3 d a g lat) a lat fun m x => widen .e4m3 m x

/-- fcvtToe5m2 (R70). -/
def execFcvtToe5m2 (d : SReg) (a : FReg) (g : Bool) (lat : Fin 8) (s : State) : Res :=
  s.funary (.fcvtToe5m2 d a g lat) a lat fun m x => narrow .e5m2 m x

/-- fcvtFrome5m2 (R70). -/
def execFcvtFrome5m2 (d : FReg) (a : SReg) (g : Bool) (lat : Fin 8) (s : State) : Res :=
  s.unary (.fcvtFrome5m2 d a g lat) a lat fun m x => widen .e5m2 m x

/-- fcvtTotap8 (R70). -/
def execFcvtTotap8 (d : SReg) (a : FReg) (g : Bool) (lat : Fin 8) (s : State) : Res :=
  s.funary (.fcvtTotap8 d a g lat) a lat fun m x => narrow .tap8 m x

/-- fcvtFromtap8 (R70). -/
def execFcvtFromtap8 (d : FReg) (a : SReg) (g : Bool) (lat : Fin 8) (s : State) : Res :=
  s.unary (.fcvtFromtap8 d a g lat) a lat fun m x => widen .tap8 m x

/-- fcvtTotap6 (R70). -/
def execFcvtTotap6 (d : SReg) (a : FReg) (g : Bool) (lat : Fin 8) (s : State) : Res :=
  s.funary (.fcvtTotap6 d a g lat) a lat fun m x => narrow .tap6 m x

/-- fcvtFromtap6 (R70). -/
def execFcvtFromtap6 (d : FReg) (a : SReg) (g : Bool) (lat : Fin 8) (s : State) : Res :=
  s.unary (.fcvtFromtap6 d a g lat) a lat fun m x => widen .tap6 m x

/-- FMVI (R72): without FTZ. -/
def execFmvi (d : FReg) (imm : BitVec 32) (g : Bool) (lat : Fin 8) (s : State) : Res :=
  s.issueResult (.fmvi d imm g lat) (latClass lat) fun _ => fpWord {} (Fmt.fp32.value imm.toNat)

/-- FMVF into an s register (R72). -/
def execFmvfToS (d : SReg) (a : FReg) (g : Bool) (lat : Fin 8) (s : State) : Res :=
  s.funary (.fmvfToS d a g lat) a lat fun _ x => x

/-- FMVF into an f register (R72). -/
def execFmvfToF (d : FReg) (a : SReg) (g : Bool) (lat : Fin 8) (s : State) : Res :=
  s.unary (.fmvfToF d a g lat) a lat fun _ x => x

end Sys2Proof.Machine
end

