-- ==== Sys2Proof/Machine/Flow.lean ====
section
/-! DEFINITION. The control transfers of the S head and NOP (spec/02 R74 to R81). -/

namespace Sys2Proof.Machine

/-- The address of the word S stands at. -/
def State.pcS (s : State) : Nat := s.core.path.pcS
/-- A target k words from S's word. One beyond 2^64 or below 0 is taken modulo 2^64, as it is checked and as `trapval` holds it (DESIGN
CHOICE, log 95: R74, R75 and R79 state no wrap). -/
def State.target (s : State) (k : Int) : Word := BitVec.ofInt 64 (s.pcS + 4 * k)
/-- R74: a target outside the arena, or not at a word. -/
def State.badTarget (s : State) (t : Word) : Bool :=
  decide ((s.arena s.cur).2 < t.toNat + 4) || t.toNat % 4 != 0
/-- R74: S waits while the branch-outcome queue is full. -/
def State.boqFull (s : State) : Bool := decide (boqDepth ≤ s.core.path.boq.length)
/-- R74, R104: a transfer of n words that records its outcome: a target taken, or none, with the change of the core that goes
with it. -/
def State.leap (s : State) (g : Going) (n : Nat) (tgt : Option Word) (f : Core → Core) : Res :=
  match tgt with
  | none => .next (((s.setCore f).finishS n).setCore (·.setPath (·.record g 0 s.pcS false)))
  | some t =>
    if s.badTarget t then .next (s.syncTrap .s 0x03 t)
    else .next (((s.setCore f).finishS n).setCore (·.setPath fun p => { p.record g t.toNat s.pcS true with pcS := t.toNat }))
/-- R74, R79, R80: a CALL or RET: guarded off, it records that it was not taken. -/
def State.leapGuarded (s : State) (g : Going) (i : Instr) (body : State → Res) : Res :=
  if s.stalledS i || s.boqFull then .next s
  else
    let t := s.setCore (·.closeWindows)
    if i.guard && !t.readGuard then t.leap g (words i) none id else body t

/-- BR (R75). -/
def execBr (off : Fin 4096) (n : Bool) (p : PReg) (s : State) : Res :=
  s.issueS (.br off n p) State.boqFull fun t =>
    t.leap .jump 1 (if t.readP 1 p != n then some (t.target (toSigned 12 off.val)) else none) id

/-- R77, R101: S goes back to the start of the loop that a BRP closes, and repeats the loop. A BRP inside a loop that S repeats already
widens it (log 14). -/
def Path.loopBack (p : Path) (brp tgt : Nat) : Path :=
  { p with
    pcS := tgt
    replay := some (match p.replay with
      | none => ⟨brp, tgt, 0⟩
      | some l => if l.depth = 0 then { l with start := min l.start tgt } else l) }
/-- R77, R101: S has executed the BRP at an address not taken. -/
def Path.loopOut (p : Path) (brp : Nat) : Path :=
  { p with
    boq := p.boq.map (·.release brp)
    replay := match p.replay with
      | some l => if l.brp = brp ∧ l.depth = 0 then none else some l
      | none => none }
/-- BRP (R76, R77, R101): its first pass stands on the linear path, and S stands still there while it repeats the loop. -/
def execBrp (off : Fin 4096) (n : Bool) (p : PReg) (s : State) : Res :=
  s.issueS (.brp off n p) (fun _ => false) fun t =>
    let here := t.pcS
    if t.readP 1 p != n then
      let tgt := t.target (toSigned 12 off.val)
      if t.badTarget tgt then .next (t.syncTrap .s 0x03 tgt)
      else .next ((t.finishS 1).setCore (·.setPath (·.loopBack here tgt.toNat)))
    else .next ((t.finishS 1).setCore (·.setPath (·.loopOut here)))

/-- DBRP (R78): the branch uses the new value at once. -/
def execDbrp (a : SReg) (off : Fin 2048) (lat : Fin 8) (s : State) : Res :=
  s.issueS (.dbrp a off lat) State.boqFull fun t =>
    let v := t.readS 1 a - 1
    t.leap .jump 1 (if 0 < v.toInt then some (t.target (toSigned 11 off.val)) else none) (·.land (.s a) v (latClass lat))

/-- CALL (R79). A base with 4·IMM32 added is taken modulo 2^64 (DESIGN CHOICE, log 95). -/
def execCall (d : SReg) (a : SReg) (imm : BitVec 32) (g : Bool) (lat : Fin 8) (s : State) : Res :=
  let go : Going := if d = 0 then .jump else .call
  s.leapGuarded go (.call d a imm g lat) fun t =>
    let tgt := if a = 0 then t.target imm.toInt else t.readS 1 a + BitVec.ofInt 64 (4 * imm.toInt)
    t.leap go 2 (some tgt) (·.land (.s d) (BitVec.ofNat 64 (t.pcS + 8)) (latClass lat))

/-- RET (R80). -/
def execRet (a : SReg) (g : Bool) (s : State) : Res :=
  s.leapGuarded .ret (.ret a g) fun t => t.leap .ret 1 (some (t.readS 1 a)) id

/-- NOP (R80). -/
def execNop (g : Bool) (s : State) : Res :=
  s.issueS (.nop g) (fun _ => false) fun t => .next (t.finishS 1)

end Sys2Proof.Machine
end

