-- ==== Sys2Proof/Machine/Outside.lean ====
section
/-! DEFINITION. What the world outside does to the package: writes of memory, stored words that become uncorrectable, and what other
packages of the pod and the host's aperture send; and how an instruction is placed for the next step. -/

namespace Sys2Proof.Machine

/-- Writes bytes of physical memory; a word written is whole again (R335). -/
def State.writeMem (s : State) (a : Nat) (bs : List Byte) : State :=
  { s with
    mem := writeBytes s.mem a bs
    badWords := s.badWords.filter fun w => !(decide (a ≤ w + 7) && decide (w < a + bs.length)) }

/-- A write by system software, a host or a device of the pod. -/
def State.outsideWrite (s : State) (a : Nat) (bs : List Byte) : Res :=
  if backedRun a bs.length then .next (s.writeMem a bs) else .fault (.unbacked a)

/-- R360: the host writes bytes of one page of the 64 GiB aperture: they reach this package's HBM, or are carried over UALink to another
of the group. -/
def State.apertureWrite (s : State) (offset : Nat) (bs : List Byte) : State :=
  if !s.bridge || decide (2 ^ 36 ≤ offset) || decide (65536 < offset % 65536 + bs.length) then s
  else
    match s.aperturePage offset with
    | none => s
    | some (p, f) =>
      let a := f + offset % 65536
      if p = s.groupIndex then if backedRun a bs.length then s.writeMem a bs else s
      else if s.linked then { s with sent := s.sent ++ [.aperture p a bs] }
      else s

/-- R335: a stored word becomes uncorrectable. -/
def State.upset (s : State) (tile : Option Nat) (a : Nat) : State :=
  match tile with
  | some ctx => s.setSlot ctx fun l => { l with badWords := (a % 524288 / 8 * 8) :: l.badWords }
  | none => { s with badWords := (a / 8 * 8) :: s.badWords }

/-- R335: a read has found a single-bit error of a stored word: the word is corrected and written back, which no program sees, and the die
manager counts it. -/
def State.correct (s : State) (tile : Option Nat) (a : Nat) : State :=
  s.setDie (match tile with | some ctx => dieOf (nodeOf ctx) | none => dieOfAddr a) fun d => { d with corrected := d.corrected + 1 }

/-- R151, R355: a token of another package is on its way to a slot. -/
def State.podToken (s : State) (dst port : Nat) (cpl : Bool) (pay : Nat) (lem mkr : Bool) (ev : Option Nat) : State :=
  if s.linked then { s with remotes := s.remotes ++ [⟨4096, 0, dst, port, cpl, ⟨pay, 0, lem, mkr⟩, ev, none⟩] } else s

/-- R384, R357: an enqueue packet of another package is on its way, if a place for it was granted; one that is refused is not sent. -/
def State.podPacket (s : State) (queue : Nat) (ws : List Word) : State :=
  if s.linked && s.queueAnswer queue true == 0 then { s with enqs := s.enqs ++ [⟨ws, queue, none, true, none⟩] } else s

/-- R242: an arrival of another package on a `.pod` barrier is on its way. -/
def State.podArrival (s : State) (epoch bid weight : Nat) : State :=
  if s.linked then { s with arrivals := s.arrivals ++ [⟨epoch, 5, 0, bid, weight⟩] } else s

/-- R378: a completion event word of another package is on its way. -/
def State.podCount (s : State) (w : Word) : State := if s.linked then { s with increments := s.increments ++ [w] } else s

/-- R280: time has gone on, and the span in which each region has rested is noted. -/
def State.lapse (s : State) : State :=
  { s with slots := s.slots.map fun (c, l) => (c, { l with quad := l.quad.lapse (s.acOf c - 1) }) }
/-- R371, R468: STC stands at 0 in stage 0, and counts from then on. -/
def State.pass (s : State) (n : Nat) : State :=
  if 1 ≤ (s.die 0).stage then ({ s with stc := s.stc + n } : State).lapse else s

/-- The move that comes next: the first of the agenda, or Config's. -/
def State.turn (s : State) : Turn × State :=
  match s.agenda with
  | t :: rest => (t, { s with agenda := rest })
  | [] => (Config.freeTurn s.moves, { s with moves := s.moves + 1 })

/-- The slot where withFetchWord places an instruction: slot 0 of the compute tile at node (0, 2). -/
def placeCtx : Nat := 256

/-- The head that executes a word (R16, R25). -/
def wordHead (w : Nat) : Head :=
  match wordTag w with
  | 1 => .m | 2 => .a | 3 => .y | _ => .s

/-- The path of a slot whose next instruction of head h stands at offset 0: a trailing head's instruction is one that S has
stepped past, but for TEND and TYLD, which S waits at (R102, R247). -/
def placePath (h : Head) (w : Nat) : Path :=
  if h = .s ∨ endsTask w then {}
  else { pcS := 8, lagM := 2, lagA := 2, lagY := 2 }

/-- A task for the slot where an instruction is placed. -/
def placeTask : Task := { epoch := 1, ord := 0, iter := [0, 0, 0, 0], age := 0, pkt := {}, decl := {} }

/-- The state with an instruction placed, so that the next step is its head's move: a running slot with a 64-byte arena at
physical address 0. -/
def State.place (s : State) (nbits w : Nat) : State :=
  let v := w % 2 ^ nbits
  let h := wordHead v
  let s := { s with
    agenda := [⟨0, .head placeCtx h⟩]
    mem := writeLE s.mem 0 8 v }
  s.setSlot placeCtx fun l => { l with
    stage := .running
    task := some (l.task.getD placeTask)
    core := { l.core with
      sup := false
      arenabase := 0
      arenabound := 64
      user := placePath h (v % 2 ^ 32) } }

end Sys2Proof.Machine
end

