-- ==== Sys2Proof/Machine/SwardEv.lean ====
section
/-! DEFINITION. The events of a slot's sward region: tokens enter ports and buffers, groups fire, markers pass, matrix steps go on and
irregular operators emit (spec/10 R265 to R285, spec/07). -/

namespace Sys2Proof.Machine

/-- R278: the quadrant of the current slot makes a move, if it can; a cut that is complete is counted. -/
def State.quadMove (s : State) (f : Quad → Option Quad) : Res :=
  orStay s ((f s.me.quad).map fun q => s.setMe (·.cutTo s.cur q (s.acOf s.cur)))

/-- PORT_TOKEN_ENTRY (R276, R281). -/
def execPortTokenEntry (port : Nat) (s : State) : Res := orStay s (s.portEnter s.cur port)

/-- BARE_MARKER_DISCARD (R266). -/
def execBareMarkerDiscard (port : Nat) (s : State) : Res :=
  s.quadMove fun q => (q.settle (s.acOf s.cur)).bareDiscard port

/-- R278, R464: a stream is bound to an output port: a stream command that holds or awaits it, or the stream of a graph's edge. -/
def State.takesFrom (s : State) (ctx p : Nat) : Bool :=
  ((s.slotAt ctx).eng.flying.any fun c => (c.sides ctx).contains (100 + p)) || s.edgeTakes ctx p
/-- TOKEN_BUFFER_ENTRY (R271, R278). -/
def execTokenBufferEntry (k : Nat) (s : State) : Res :=
  s.quadMove fun q => (q.settle (s.acOf s.cur)).bufferEntry (s.acOf s.cur) k (s.takesFrom s.cur)

/-- GROUP_FIRING (R273). -/
def execGroupFiring (group : Nat) (s : State) : Res :=
  s.quadMove fun q => (q.settleBefore (s.acOf s.cur)).fireValue (s.acOf s.cur) group

/-- MARKER_FIRING (R277). -/
def execMarkerFiring (group : Nat) (s : State) : Res :=
  s.quadMove fun q => (q.settleBefore (s.acOf s.cur)).fireMarker (s.acOf s.cur) group

/-- MARKER_THROUGH (R277). -/
def execMarkerThrough (slot : Nat) (opnd : Nat) (s : State) : Res :=
  s.quadMove fun q => (q.settle (s.acOf s.cur)).markerThrough (s.acOf s.cur) slot opnd

/-- MMS4_PHASE (R202). -/
def execMms4Phase (slot : Nat) (s : State) : Res :=
  s.quadMove fun q => (q.settle (s.acOf s.cur)).mms4Phase (s.acOf s.cur) slot

/-- MATRIX_STEP_LAND (R204). -/
def execMatrixStepLand (slot : Nat) (s : State) : Res :=
  s.quadMove fun q => (q.settle (s.acOf s.cur)).matrixLand (s.acOf s.cur) slot

/-- IRREGULAR_EMIT (R211, R273, R284). -/
def execIrregularEmit (slot : Nat) (s : State) : Res :=
  s.quadMove fun q => (q.settle (s.acOf s.cur)).irregularEmit (s.acOf s.cur) slot

end Sys2Proof.Machine
end

