-- ==== Sys2Proof/Machine/Dispatch.lean ====
section
/-! DEFINITION. One arm for each instruction and event of the opcode table. -/

namespace Sys2Proof.Machine

def exec (i : Instr) (s : State) : Host.Outcome State Fault Refusal :=
  match i with
  | .add d a b g lat => Sys2Proof.Machine.execAdd d a b g lat s
  | .sub d a b g lat => Sys2Proof.Machine.execSub d a b g lat s
  | .mul d a b g lat => Sys2Proof.Machine.execMul d a b g lat s
  | .mulh d a b g lat => Sys2Proof.Machine.execMulh d a b g lat s
  | .mulhu d a b g lat => Sys2Proof.Machine.execMulhu d a b g lat s
  | .div d a b g lat => Sys2Proof.Machine.execDiv d a b g lat s
  | .divu d a b g lat => Sys2Proof.Machine.execDivu d a b g lat s
  | .rem d a b g lat => Sys2Proof.Machine.execRem d a b g lat s
  | .remu d a b g lat => Sys2Proof.Machine.execRemu d a b g lat s
  | .and d a b g lat => Sys2Proof.Machine.execAnd d a b g lat s
  | .or d a b g lat => Sys2Proof.Machine.execOr d a b g lat s
  | .xor d a b g lat => Sys2Proof.Machine.execXor d a b g lat s
  | .andn d a b g lat => Sys2Proof.Machine.execAndn d a b g lat s
  | .shl d a b g lat => Sys2Proof.Machine.execShl d a b g lat s
  | .shr d a b g lat => Sys2Proof.Machine.execShr d a b g lat s
  | .sar d a b g lat => Sys2Proof.Machine.execSar d a b g lat s
  | .min d a b g lat => Sys2Proof.Machine.execMin d a b g lat s
  | .max d a b g lat => Sys2Proof.Machine.execMax d a b g lat s
  | .minu d a b g lat => Sys2Proof.Machine.execMinu d a b g lat s
  | .maxu d a b g lat => Sys2Proof.Machine.execMaxu d a b g lat s
  | .addi d a imm g lat => Sys2Proof.Machine.execAddi d a imm g lat s
  | .muli d a imm g lat => Sys2Proof.Machine.execMuli d a imm g lat s
  | .andi d a imm g lat => Sys2Proof.Machine.execAndi d a imm g lat s
  | .ori d a imm g lat => Sys2Proof.Machine.execOri d a imm g lat s
  | .xori d a imm g lat => Sys2Proof.Machine.execXori d a imm g lat s
  | .shli d a sh lat => Sys2Proof.Machine.execShli d a sh lat s
  | .shri d a sh lat => Sys2Proof.Machine.execShri d a sh lat s
  | .sari d a sh lat => Sys2Proof.Machine.execSari d a sh lat s
  | .li d imm g lat => Sys2Proof.Machine.execLi d imm g lat s
  | .clz d a g lat => Sys2Proof.Machine.execClz d a g lat s
  | .ctz d a g lat => Sys2Proof.Machine.execCtz d a g lat s
  | .popc d a g lat => Sys2Proof.Machine.execPopc d a g lat s
  | .ext d a imm g lat => Sys2Proof.Machine.execExt d a imm g lat s
  | .ins d a imm g lat => Sys2Proof.Machine.execIns d a imm g lat s
  | .sel d a b lat => Sys2Proof.Machine.execSel d a b lat s
  | .madi d a b imm g lat => Sys2Proof.Machine.execMadi d a b imm g lat s
  | .cmp c p a b g lat => Sys2Proof.Machine.execCmp c p a b g lat s
  | .cmpi c p a imm g lat => Sys2Proof.Machine.execCmpi c p a imm g lat s
  | .fcmp c p a b g lat => Sys2Proof.Machine.execFcmp c p a b g lat s
  | .plog c p ix x j y g lat => Sys2Proof.Machine.execPlog c p ix x j y g lat s
  | .fadd d a b g lat => Sys2Proof.Machine.execFadd d a b g lat s
  | .fsub d a b g lat => Sys2Proof.Machine.execFsub d a b g lat s
  | .fmul d a b g lat => Sys2Proof.Machine.execFmul d a b g lat s
  | .ffma d a b g lat => Sys2Proof.Machine.execFfma d a b g lat s
  | .fdiv d a b g lat => Sys2Proof.Machine.execFdiv d a b g lat s
  | .fsqrt d a g lat => Sys2Proof.Machine.execFsqrt d a g lat s
  | .fmin d a b g lat => Sys2Proof.Machine.execFmin d a b g lat s
  | .fmax d a b g lat => Sys2Proof.Machine.execFmax d a b g lat s
  | .fcvtRint d a g lat => Sys2Proof.Machine.execFcvtRint d a g lat s
  | .fcvtRound32 d a g lat => Sys2Proof.Machine.execFcvtRound32 d a g lat s
  | .fcvtToint d a g lat => Sys2Proof.Machine.execFcvtToint d a g lat s
  | .fcvtTouint d a g lat => Sys2Proof.Machine.execFcvtTouint d a g lat s
  | .fcvtFromint d a g lat => Sys2Proof.Machine.execFcvtFromint d a g lat s
  | .fcvtFromuint d a g lat => Sys2Proof.Machine.execFcvtFromuint d a g lat s
  | .fcvtTofp32 d a g lat => Sys2Proof.Machine.execFcvtTofp32 d a g lat s
  | .fcvtFromfp32 d a g lat => Sys2Proof.Machine.execFcvtFromfp32 d a g lat s
  | .fcvtTofp16 d a g lat => Sys2Proof.Machine.execFcvtTofp16 d a g lat s
  | .fcvtFromfp16 d a g lat => Sys2Proof.Machine.execFcvtFromfp16 d a g lat s
  | .fcvtTobf16 d a g lat => Sys2Proof.Machine.execFcvtTobf16 d a g lat s
  | .fcvtFrombf16 d a g lat => Sys2Proof.Machine.execFcvtFrombf16 d a g lat s
  | .fcvtToe4m3 d a g lat => Sys2Proof.Machine.execFcvtToe4m3 d a g lat s
  | .fcvtFrome4m3 d a g lat => Sys2Proof.Machine.execFcvtFrome4m3 d a g lat s
  | .fcvtToe5m2 d a g lat => Sys2Proof.Machine.execFcvtToe5m2 d a g lat s
  | .fcvtFrome5m2 d a g lat => Sys2Proof.Machine.execFcvtFrome5m2 d a g lat s
  | .fcvtTotap8 d a g lat => Sys2Proof.Machine.execFcvtTotap8 d a g lat s
  | .fcvtFromtap8 d a g lat => Sys2Proof.Machine.execFcvtFromtap8 d a g lat s
  | .fcvtTotap6 d a g lat => Sys2Proof.Machine.execFcvtTotap6 d a g lat s
  | .fcvtFromtap6 d a g lat => Sys2Proof.Machine.execFcvtFromtap6 d a g lat s
  | .fmvi d imm g lat => Sys2Proof.Machine.execFmvi d imm g lat s
  | .fmvfToS d a g lat => Sys2Proof.Machine.execFmvfToS d a g lat s
  | .fmvfToF d a g lat => Sys2Proof.Machine.execFmvfToF d a g lat s
  | .br off n p => Sys2Proof.Machine.execBr off n p s
  | .brp off n p => Sys2Proof.Machine.execBrp off n p s
  | .dbrp a off lat => Sys2Proof.Machine.execDbrp a off lat s
  | .call d a imm g lat => Sys2Proof.Machine.execCall d a imm g lat s
  | .ret a g => Sys2Proof.Machine.execRet a g s
  | .nop g => Sys2Proof.Machine.execNop g s
  | .spld d cls slot g lat => Sys2Proof.Machine.execSpld d cls slot g lat s
  | .spst d cls slot g => Sys2Proof.Machine.execSpst d cls slot g s
  | .ldt d a b g lat => Sys2Proof.Machine.execLdt d a b g lat s
  | .stt d a b g => Sys2Proof.Machine.execStt d a b g s
  | .popf d fifo g lat => Sys2Proof.Machine.execPopf d fifo g lat s
  | .pushf a fifo g => Sys2Proof.Machine.execPushf a fifo g s
  | .sysr d sys g lat => Sys2Proof.Machine.execSysr d sys g lat s
  | .sysw d sys g => Sys2Proof.Machine.execSysw d sys g s
  | .syswSlipwin d g => Sys2Proof.Machine.execSyswSlipwin d g s
  | .syswTrappcS d g => Sys2Proof.Machine.execSyswTrappcS d g s
  | .syswTstatus d g => Sys2Proof.Machine.execSyswTstatus d g s
  | .trap code a g => Sys2Proof.Machine.execTrap code a g s
  | .tret g => Sys2Proof.Machine.execTret g s
  | .pfx ftz sat rm head => Sys2Proof.Machine.execPfx ftz sat rm head s
  | .saff d a b g => Sys2Proof.Machine.execSaff d a b g s
  | .saffw d a b g => Sys2Proof.Machine.execSaffw d a b g s
  | .sind d a b g => Sys2Proof.Machine.execSind d a b g s
  | .sindw d a b g => Sys2Proof.Machine.execSindw d a b g s
  | .srec d a b g => Sys2Proof.Machine.execSrec d a b g s
  | .sfill d a b imm g => Sys2Proof.Machine.execSfill d a b imm g s
  | .smc d a b g => Sys2Proof.Machine.execSmc d a b g s
  | .sgrow d a b g => Sys2Proof.Machine.execSgrow d a b g s
  | .sred d a b g => Sys2Proof.Machine.execSred d a b g s
  | .satm d a b g => Sys2Proof.Machine.execSatm d a b g s
  | .scpy d a b g => Sys2Proof.Machine.execScpy d a b g s
  | .sbar d a b g => Sys2Proof.Machine.execSbar d a b g s
  | .swinDecl d a cnt sz g => Sys2Proof.Machine.execSwinDecl d a cnt sz g s
  | .swinTake d cnt g => Sys2Proof.Machine.execSwinTake d cnt g s
  | .swinGive d cnt g => Sys2Proof.Machine.execSwinGive d cnt g s
  | .stap d a b g => Sys2Proof.Machine.execStap d a b g s
  | .sfilt d a b g => Sys2Proof.Machine.execSfilt d a b g s
  | .smeta d a b g => Sys2Proof.Machine.execSmeta d a b g s
  | .stok d a b imm g => Sys2Proof.Machine.execStok d a b imm g s
  | .sclose d g => Sys2Proof.Machine.execSclose d g s
  | .sqryCommand d g => Sys2Proof.Machine.execSqryCommand d g s
  | .sqryWindrow d g => Sys2Proof.Machine.execSqryWindrow d g s
  | .sdesc d a b g => Sys2Proof.Machine.execSdesc d a b g s
  | .acfg a b imm g => Sys2Proof.Machine.execAcfg a b imm g s
  | .arun b g => Sys2Proof.Machine.execArun b g s
  | .adrn b g => Sys2Proof.Machine.execAdrn b g s
  | .aqui k b g => Sys2Proof.Machine.execAqui k b g s
  | .amrk a b g => Sys2Proof.Machine.execAmrk a b g s
  | .aprt a b g => Sys2Proof.Machine.execAprt a b g s
  | .chbd d a g => Sys2Proof.Machine.execChbd d a g s
  | .chord a b imm g => Sys2Proof.Machine.execChord a b imm g s
  | .chrun a b g => Sys2Proof.Machine.execChrun a b g s
  | .chsv a b g => Sys2Proof.Machine.execChsv a b g s
  | .chld a b g => Sys2Proof.Machine.execChld a b g s
  | .enco ch a b g => Sys2Proof.Machine.execEnco ch a b g s
  | .encf ch a b g => Sys2Proof.Machine.execEncf ch a b g s
  | .encc ch b g => Sys2Proof.Machine.execEncc ch b g s
  | .evsig d a g => Sys2Proof.Machine.execEvsig d a g s
  | .evwait d a g => Sys2Proof.Machine.execEvwait d a g s
  | .evclr d a g => Sys2Proof.Machine.execEvclr d a g s
  | .bari imm g => Sys2Proof.Machine.execBari imm g s
  | .bara a b g => Sys2Proof.Machine.execBara a b g s
  | .barw k a b g => Sys2Proof.Machine.execBarw k a b g s
  | .barq a g => Sys2Proof.Machine.execBarq a g s
  | .fence scope g => Sys2Proof.Machine.execFence scope g s
  | .acq scope g => Sys2Proof.Machine.execAcq scope g s
  | .rel scope g => Sys2Proof.Machine.execRel scope g s
  | .tenq k a b g => Sys2Proof.Machine.execTenq k a b g s
  | .tend a g => Sys2Proof.Machine.execTend a g s
  | .tyld g => Sys2Proof.Machine.execTyld g s
  | .tspwn k a g => Sys2Proof.Machine.execTspwn k a g s
  | .tpollTask g => Sys2Proof.Machine.execTpollTask g s
  | .tpollDie g => Sys2Proof.Machine.execTpollDie g s
  | .lkprb a b g => Sys2Proof.Machine.execLkprb a b g s
  | .stamp k a g => Sys2Proof.Machine.execStamp k a g s
  | .dln a imm g => Sys2Proof.Machine.execDln a imm g s
  | .diag g => Sys2Proof.Machine.execDiag g s
  | .resultLand k => Sys2Proof.Machine.execResultLand k s
  | .tileStoreBankGrant conflict => Sys2Proof.Machine.execTileStoreBankGrant conflict s
  | .trapEntry => Sys2Proof.Machine.execTrapEntry s
  | .streamDequeue => Sys2Proof.Machine.execStreamDequeue s
  | .startStampReached seq => Sys2Proof.Machine.execStartStampReached seq s
  | .saffCommand seq => Sys2Proof.Machine.execSaffCommand seq s
  | .saffwCommand seq => Sys2Proof.Machine.execSaffwCommand seq s
  | .sindCommand seq => Sys2Proof.Machine.execSindCommand seq s
  | .sindwCommand seq => Sys2Proof.Machine.execSindwCommand seq s
  | .srecCommand seq => Sys2Proof.Machine.execSrecCommand seq s
  | .sfillCommand seq => Sys2Proof.Machine.execSfillCommand seq s
  | .smcCommand seq => Sys2Proof.Machine.execSmcCommand seq s
  | .sgrowCommand seq => Sys2Proof.Machine.execSgrowCommand seq s
  | .sredCommand seq => Sys2Proof.Machine.execSredCommand seq s
  | .satmCommand seq => Sys2Proof.Machine.execSatmCommand seq s
  | .scpyCommand seq => Sys2Proof.Machine.execScpyCommand seq s
  | .sbarCommand seq => Sys2Proof.Machine.execSbarCommand seq s
  | .stapCommand seq => Sys2Proof.Machine.execStapCommand seq s
  | .sfiltCommand seq => Sys2Proof.Machine.execSfiltCommand seq s
  | .smetaCommand seq => Sys2Proof.Machine.execSmetaCommand seq s
  | .stokCommand seq => Sys2Proof.Machine.execStokCommand seq s
  | .streamTokenTransfer seq => Sys2Proof.Machine.execStreamTokenTransfer seq s
  | .streamRetire seq => Sys2Proof.Machine.execStreamRetire seq s
  | .remoteTokenArrival k => Sys2Proof.Machine.execRemoteTokenArrival k s
  | .portTokenEntry port => Sys2Proof.Machine.execPortTokenEntry port s
  | .bareMarkerDiscard port => Sys2Proof.Machine.execBareMarkerDiscard port s
  | .tokenBufferEntry k => Sys2Proof.Machine.execTokenBufferEntry k s
  | .groupFiring group => Sys2Proof.Machine.execGroupFiring group s
  | .markerFiring group => Sys2Proof.Machine.execMarkerFiring group s
  | .markerThrough slot opnd => Sys2Proof.Machine.execMarkerThrough slot opnd s
  | .mms4Phase slot => Sys2Proof.Machine.execMms4Phase slot s
  | .matrixStepLand slot => Sys2Proof.Machine.execMatrixStepLand slot s
  | .irregularEmit slot => Sys2Proof.Machine.execIrregularEmit slot s
  | .engineCommandDequeue queue => Sys2Proof.Machine.execEngineCommandDequeue queue s
  | .cfg => Sys2Proof.Machine.execCfg s
  | .run => Sys2Proof.Machine.execRun s
  | .drn => Sys2Proof.Machine.execDrn s
  | .regionDrained => Sys2Proof.Machine.execRegionDrained s
  | .qui => Sys2Proof.Machine.execQui s
  | .quiAnswer => Sys2Proof.Machine.execQuiAnswer s
  | .mrk => Sys2Proof.Machine.execMrk s
  | .prt => Sys2Proof.Machine.execPrt s
  | .ord => Sys2Proof.Machine.execOrd s
  | .crun => Sys2Proof.Machine.execCrun s
  | .chainStepKeep => Sys2Proof.Machine.execChainStepKeep s
  | .chainStepSumInput => Sys2Proof.Machine.execChainStepSumInput s
  | .chainStepPair => Sys2Proof.Machine.execChainStepPair s
  | .csav => Sys2Proof.Machine.execCsav s
  | .clod => Sys2Proof.Machine.execClod s
  | .eopn channel => Sys2Proof.Machine.execEopn channel s
  | .efrm channel => Sys2Proof.Machine.execEfrm channel s
  | .ecls channel => Sys2Proof.Machine.execEcls channel s
  | .evwaitComplete => Sys2Proof.Machine.execEvwaitComplete s
  | .barwComplete => Sys2Proof.Machine.execBarwComplete s
  | .stampComplete => Sys2Proof.Machine.execStampComplete s
  | .tenqPlaced => Sys2Proof.Machine.execTenqPlaced s
  | .barrierArrival k => Sys2Proof.Machine.execBarrierArrival k s
  | .homeRmwApply k => Sys2Proof.Machine.execHomeRmwApply k s
  | .roundBufferApply => Sys2Proof.Machine.execRoundBufferApply s
  | .granuleTouch k => Sys2Proof.Machine.execGranuleTouch k s
  | .wound k => Sys2Proof.Machine.execWound k s
  | .faultRepair k => Sys2Proof.Machine.execFaultRepair k s
  | .shootDown k => Sys2Proof.Machine.execShootDown k s
  | .repatch k => Sys2Proof.Machine.execRepatch k s
  | .invalidation k => Sys2Proof.Machine.execInvalidation k s
  | .drainLimitExpiry => Sys2Proof.Machine.execDrainLimitExpiry s
  | .configScrub => Sys2Proof.Machine.execConfigScrub s
  | .stationFailure die station => Sys2Proof.Machine.execStationFailure die station s
  | .tail queue value => Sys2Proof.Machine.execTail queue value s
  | .registerWrite reg value => Sys2Proof.Machine.execRegisterWrite reg value s
  | .packetFetch queue => Sys2Proof.Machine.execPacketFetch queue s
  | .enqueuePacketArrival k => Sys2Proof.Machine.execEnqueuePacketArrival k s
  | .rackPacketArrival queue packet => Sys2Proof.Machine.execRackPacketArrival queue packet s
  | .switchOut queue => Sys2Proof.Machine.execSwitchOut queue s
  | .switchIn queue => Sys2Proof.Machine.execSwitchIn queue s
  | .batchHandout => Sys2Proof.Machine.execBatchHandout s
  | .taskDispatch die => Sys2Proof.Machine.execTaskDispatch die s
  | .taskBind => Sys2Proof.Machine.execTaskBind s
  | .taskEntry => Sys2Proof.Machine.execTaskEntry s
  | .preemptionRequest die => Sys2Proof.Machine.execPreemptionRequest die s
  | .sourceGating => Sys2Proof.Machine.execSourceGating s
  | .gatingLimitExpiry => Sys2Proof.Machine.execGatingLimitExpiry s
  | .taskRestore => Sys2Proof.Machine.execTaskRestore s
  | .deadlineExpiry => Sys2Proof.Machine.execDeadlineExpiry s
  | .abort => Sys2Proof.Machine.execAbort s
  | .remoteEventIncrement k => Sys2Proof.Machine.execRemoteEventIncrement k s
  | .sessionRelease sid => Sys2Proof.Machine.execSessionRelease sid s
  | .powerGood => Sys2Proof.Machine.execPowerGood s
  | .firmwareVerify die => Sys2Proof.Machine.execFirmwareVerify die s
  | .hbmTrainingComplete die => Sys2Proof.Machine.execHbmTrainingComplete die s
  | .linkTrainingComplete => Sys2Proof.Machine.execLinkTrainingComplete s
  | .firmwareUpdate => Sys2Proof.Machine.execFirmwareUpdate s
  | .attestationRequest nonce => Sys2Proof.Machine.execAttestationRequest nonce s
  | .ageingSample => Sys2Proof.Machine.execAgeingSample s
  | .retirement k => Sys2Proof.Machine.execRetirement k s
  | .softTemperatureLimit die => Sys2Proof.Machine.execSoftTemperatureLimit die s
  | .hardTemperatureLimit => Sys2Proof.Machine.execHardTemperatureLimit s
  | .packageLeavesPod pkg => Sys2Proof.Machine.execPackageLeavesPod pkg s

end Sys2Proof.Machine
end

