-- ==== Sys2Proof/Machine/Step.lean ====
section
/-! DEFINITION. One step of the package: the next turn's time passes, and its move is made. -/

namespace Sys2Proof.Machine

/-- R28, R98: head h of the current slot steps over one word or issues one unit. A prefix issues together with its target; while
the target waits, the unit has not issued and nothing has changed. -/
def headUnit (s : State) (h : Head) : Host.Outcome State Fault Refusal :=
  match s.look h with
  | .stay => .next s
  | .moved t => .next t
  | .stop r => .fault r
  | .unit i =>
    match exec i s with
    | .next t =>
      if t.core.arm.isNone then .next t
      else
        match t.look h with
        | .unit j =>
          match exec j t with
          | .next u => if u.core.arm.isNone then .next u else .next s
          | .fault r => .fault r
          | .refused r => .refused r
        | .moved u => .next u
        | .stop r => .fault r
        | .stay => .next s
    | .fault r => .fault r
    | .refused r => .refused r

/-- R113: a unit of a head, which waits behind a pending cause unless it traps. -/
def headStep (s : State) (h : Head) : Host.Outcome State Fault Refusal := s.held' (headUnit s h)

/-- R113, R120: a synchronous trap that a head raises in the ac is taken before a pending cause or a wound. -/
def eventStep (s : State) (e : Instr) : Host.Outcome State Fault Refusal :=
  match s.trapSlot e with
  | some ctx =>
    let u := { s with cur := ctx }
    u.firstTrap (headStep u) (exec e s) [.s, .m, .a, .y]
  | none => exec e s

/-- One move. -/
def move (s : State) (m : Move) : Host.Outcome State Fault Refusal :=
  match m with
  | .head ctx h => let s := { s with cur := ctx }; s.headTurn (headStep s) h
  | .event ctx e => if e.head?.isSome then .refused .notAnEvent else eventStep { s with cur := ctx } e
  | .write a bs => s.outsideWrite a bs
  | .upset tile a => .next (s.upset tile a)
  | .corrected tile a => .next (s.correct tile a)
  | .aperture o bs => .next (s.apertureWrite o bs)
  | .edge k j => .next (s.edgeMove k j)
  | .graph g => .next (s.loadGraph g)
  | .podToken dst port cpl pay lem mkr ev => .next (s.podToken dst port cpl pay lem mkr ev)
  | .podPacket q ws => .next (s.podPacket q ws)
  | .podArrival epoch bid weight => .next (s.podArrival epoch bid weight)
  | .podCount w => .next (s.podCount w)

/-- One step: the turn that comes next. -/
def step (s : State) : Host.Outcome State Fault Refusal :=
  let (t, s) := s.turn
  move (s.pass t.wait) t.move

/-- The state with an instruction placed where the next step fetches. -/
def State.withFetchWord (s : State) (nbits w : Nat) : State := s.place nbits w

end Sys2Proof.Machine
end

