-- ==== Sys2Proof/Safety.lean ====
section
/-! DEFINITION. The terms in which claims are stated: when a word issues, what its unit leaves behind, and what it means that state is
left alone. -/

namespace Sys2Proof.Machine

/-! ### When a word issues -/

/-- The state in which an S instruction reads its operands: results whose latency class is over have landed (R105, R108). -/
def State.opened (s : State) : State := s.setCore (·.closeWindows)

/-- R22, R52, R88, R103, R107: nothing holds instruction i back at the S head, and its guard admits it. -/
def State.IssuesS (s : State) (i : Instr) : Prop :=
  s.stalledS i = false ∧ (i.guard = true → s.opened.readGuard = true)

/-- R22: nothing holds instruction i back at the S head, and its guard suppresses it. -/
def State.SkipsS (s : State) (i : Instr) : Prop :=
  s.stalledS i = false ∧ i.guard = true ∧ s.opened.readGuard = false

/-- R22, R102, R106, R238: nothing holds instruction i back at trailing head h, and its guard admits it. -/
def State.IssuesX (s : State) (h : Head) (i : Instr) : Prop :=
  s.stalledX h i = false ∧ (i.guard = true → s.core.getP 1 = true)

/-- R22: nothing holds instruction i back at trailing head h, and its guard suppresses it. -/
def State.SkipsX (s : State) (h : Head) (i : Instr) : Prop :=
  s.stalledX h i = false ∧ i.guard = true ∧ s.core.getP 1 = false

/-- R52, R108: S is past instruction i, and v is in flight to register r with the class that lat encodes. -/
def State.lands (s : State) (i : Instr) (r : RegId) (lat : Fin 8) (v : Word) : State :=
  (s.opened.setCore (·.land r v (latClass lat))).finishS (words i)

/-- What S reads in s[r] and f[r] as its k-th operand, and whether it reads p[r] as true. -/
abbrev State.rs (s : State) (k : Nat) (r : SReg) : Word := s.opened.readS k r
abbrev State.rf (s : State) (k : Nat) (r : FReg) : Word := s.opened.readF k r
abbrev State.rp (s : State) (k : Nat) (p : PReg) : Bool := s.opened.readP k p

/-- SAT of the prefix that the unit carries (R28). -/
abbrev State.satOn (s : State) : Bool := s.core.mods.sat

/-! ### Elements of memory (R143) -/

/-- Bit k of a memory, from its first byte on. -/
def bitAt (m : List (Nat × BitVec 8)) (k : Nat) : Bool := (getByte m (k / 8)).getLsbD (k % 8)
/-- R143: element E of w bits holds v. -/
def Reads (m : List (Nat × BitVec 8)) (w E v : Nat) : Prop := v < 2 ^ w ∧ ∀ k, k < w → bitAt m (w * E + k) = v.testBit k
/-- R143, R145: element E of w bits takes v, and every other bit stays as it was. -/
def Wrote (m m' : List (Nat × BitVec 8)) (w E v : Nat) : Prop :=
  ∀ k, bitAt m' k = if w * E ≤ k ∧ k < w * E + w then v.testBit (k - w * E) else bitAt m k

/-! ### Commands (R158 to R162) -/

/-- Command c of the current slot is in flight and running, no earlier one holds a side of it, and nothing ends it. -/
structure State.Running (s : State) (c : Cmd) : Prop where
  found : s.cmdAt s.cur c.seq = some c
  sides : s.me.eng.holdsSides s.cur c = true
  stage : s.me.stage = .running
  started : c.started = true
  running : c.st = .running
  closing : c.closing = false

/-- A command without a filter that has nothing in part, and has elements to come. -/
structure Cmd.Clear (c : Cmd) : Prop where
  unfiltered : c.filt = none
  packed : c.pack = []
  unpacked : c.unpack = []
  ready : c.ready = []
  bits : c.outBits = (0, 0)
  notice : c.notice = none
  afresh : c.skipTo = 0
  more : c.cursor < c.count

/-- R160, R240: no count that command c of the current slot waits on is due to an EVWAIT of Y or to an earlier command. -/
def State.CountsFree (s : State) (c : Cmd) : Prop :=
  s.me.countDue s.cur c
    (s.me.eng.flying.takeWhile (fun x => x.seq != c.seq) ++ s.me.laneCmds.filter (·.leftFirst c)) = false

/-- The event of a stream command by its KIND (R165). -/
def kindEvent (seq : Nat) : Nat → Option Instr
  | 0x01 => some (.saffCommand seq)
  | 0x02 => some (.saffwCommand seq)
  | 0x03 => some (.sindCommand seq)
  | 0x04 => some (.sindwCommand seq)
  | 0x05 => some (.srecCommand seq)
  | 0x06 => some (.sfillCommand seq)
  | 0x07 => some (.smcCommand seq)
  | 0x08 => some (.sgrowCommand seq)
  | 0x09 => some (.sredCommand seq)
  | 0x0A => some (.satmCommand seq)
  | 0x0B => some (.scpyCommand seq)
  | 0x0C => some (.sbarCommand seq)
  | 0x0D => some (.stapCommand seq)
  | 0x0E => some (.sfiltCommand seq)
  | 0x0F => some (.smetaCommand seq)
  | 0x10 => some (.stokCommand seq)
  | _ => none

/-! ### Commands of the array, chain and encode engines (R220, R221) -/

/-- Command c of the current slot is in hand at lane n (0 array, 1 chain, from 2 the encode channels), may start, and has not; none of the
events that it signals has been cleared in this ac (R240). -/
structure State.LaneReady (s : State) (n : Nat) (c : Cmd) : Prop where
  hand : s.me.lane n = some c
  stage : s.me.stage = .running
  waiting : c.st = .waiting
  afresh : c.started = false
  untaken : c.waited = false
  unacted : c.acted = false
  turn : s.me.countDue s.cur c ((s.me.eng.flying ++ s.me.laneCmds).filter (·.leftFirst c)) = false
  waits : s.core.waitsMet c.waitMask = true
  stamp : c.stamp = none
  late : c.late = false
  clear : s.core.countedNow (s.acStart s.cur) c.signalMask = false

/-- R220: the answer of a command that is done. -/
def doneWord (eng seq detail : Nat) : Word :=
  BitVec.ofNat 64 (2 ^ 63 + seq % 2 ^ 16 * 2 ^ 46 + eng * 2 ^ 38 + 4 * 2 ^ 32 + detail % 2 ^ 32)

/-- R160, R220: lane n is free, the waits that a command took and its signals are in the events, and it has posted its answer if it has
one to post. -/
structure LaneDone (s t : State) (n : Nat) (c : Cmd) (detail : Nat) (posts took : Bool) : Prop where
  free : t.me.lane n = none
  answer : t.core.sts = s.core.sts ++ if posts then [doneWord (min n 2) c.seq detail] else []
  events : ∀ v : EvReg, t.core.ereg[v] =
    (let x := s.core.ereg[v] - if took && c.waitMask.testBit v.val then 1 else 0
     if c.signalMask.testBit v.val then BitVec.ofNat 16 (min 0xFFFF (x.toNat + 1)) else x)
  path : t.core.path = s.core.path
  mem : t.mem = s.mem

/-! ### What is left alone -/

/-- The special registers, the status, the accumulating counters and the buffers of a control core are as before. -/
structure SameSpecial (c d : Core) : Prop where
  hreg : d.hreg = c.hreg
  bdreg : d.bdreg = c.bdreg
  ereg : d.ereg = c.ereg
  spill : d.spill = c.spill
  supSpill : d.supSpill = c.supSpill
  slipwin : d.slipwin = c.slipwin
  status : d.tstatus = c.tstatus
  cause : d.trapcause = c.trapcause
  value : d.trapval = c.trapval
  pcs : d.trappcS = c.trappcS
  pcm : d.trappcM = c.trappcM
  pca : d.trappcA = c.trappcA
  pcy : d.trappcY = c.trappcY
  arena : d.arenabase = c.arenabase
  bound : d.arenabound = c.arenabound
  age : d.age = c.age
  restarts : d.restarts = c.restarts
  deadline : d.deadline = c.deadline
  pend : d.pend = c.pend
  fifos : d.chf = c.chf ∧ d.sts = c.sts ∧ d.xi = c.xi ∧ d.xo = c.xo
  buffers : d.asmM = c.asmM ∧ d.asmA = c.asmA ∧ d.asmE = c.asmE
  ordinals : d.seqM = c.seqM ∧ d.seqA = c.seqA ∧ d.seqE = c.seqE
  windrows : d.windrows = c.windrows

end Sys2Proof.Machine

namespace Sys2Proof

/-- The divisions (R58). -/
def Instr.divides : Instr → Bool
  | .div .. => true
  | .divu .. => true
  | .rem .. => true
  | .remu .. => true
  | _ => false

/-- The S instructions whose only effect is a result in a register: those with a destination but for the transfers, LDT, POPF and
SYSR. -/
def Instr.resultOnly (i : Instr) : Bool :=
  i.dest.isSome &&
    match i with
    | .dbrp .. => false
    | .call .. => false
    | .ldt .. => false
    | .popf .. => false
    | .sysr .. => false
    | _ => true

end Sys2Proof
end

