-- ==== Sys2Proof/Certificates/Slice0/Obligations.lean ====
section
/-! DEFINITION. The statements of this model, each with the rules of spec/ that it rests on. A next state is always that of the
instruction's own effect; where a statement gives hypotheses on the state, they name when the word or the event takes effect. -/

open Sys2Proof Sys2Proof.Machine

/-- Words written out from the spec's encodings, at least one of each head, decode to their instructions (R15 to R21). -/
def Obligations.WordsOfTheSpecDecode : Prop :=
  (decode 0x590A0500 0).toOption = some (.cmp 1 3 4 5 false 0)
  ∧ (decode 0x388644E1 0x18).toOption = some (.madi 7 2 3 0x18#32 false 2)
  ∧ (decode 0x00000102 0).toOption = some (.pfx false true 0 0)
  ∧ (decode 0x30000401 0xFFFFFFFE).toOption = some (.li 6 0xFFFFFFFE#32 false 0)
  ∧ (decode 0x08866600 0).toOption = some (.fadd 1 2 3 false 3)
  ∧ (decode 0x4FFE0840 0).toOption = some (.dbrp 9 0x7FE 0)
  ∧ (decode 0xFFE20820 0).toOption = some (.brp 0xFFE false 2)
  ∧ (decode 0x16580900 0).toOption = some (.spld 2 true 300 false 0)
  ∧ (decode 0x20020A20 0).toOption = some (.syswSlipwin 4 false)
  ∧ (decode 0x10010E24 0).toOption = some (.sclose 2 true)
  ∧ (decode 0x08400521 0).toOption = some (.cmpi 0 1 1 0#32 false 0)
  ∧ (decode 0x18801108 0).toOption = some (.chbd 3 2 false)
  ∧ (decode 0x2140140C 0).toOption = some (.evsig 4 5 false)

/-- R18, R26, R31: what S does at an illegal word. The slot runs, is in user mode and has nothing pending. -/
def Obligations.IllegalWordsTrap : Prop :=
  ∀ (s : State) (w x : Nat),
    s.me.stage = .running → s.core.sup = false → s.userHold = false → s.offBeat s.cur = false → s.core.bank = none →
    s.core.arm = none →
    s.fetch s.cur s.core.path.pcS = .word w →
    (w % 4 = 1 → s.fetch s.cur (s.core.path.pcS + 4) = .word x) → (w % 4 ≠ 1 → x = 0) →
    (w % 4 = 3 ∨ 4 ≤ wordTag w ∨ (w % 4 = 2 ∧ prefixBad w = true)
      ∨ (wordTag w = 0 ∧ w % 4 ≠ 2 ∧ ∀ i, decode w x = .ok i → i.wf = false)) →
    ∃ t, s.look .s = .moved t ∧ t.core.sup = true ∧ t.core.trapcause = 0x01
      ∧ t.core.trapval = BitVec.ofNat 64 (w % 2 ^ 32 + x % 2 ^ 32 * 2 ^ 32)
      ∧ t.core.trappcS = BitVec.ofNat 32 s.core.path.pcS

/-- A step is exec of the instruction at the head's program counter. Around exec a step takes the turn from the agenda, lets its
wait pass and makes the turn's slot the current one. -/
def Obligations.StepRunsTheDecodedInstruction : Prop :=
  ∀ (s0 s : State) (wait ctx : Nat) (h : Head) (rest : List Turn) (w x : Nat) (i : Instr),
    s0.agenda = ⟨wait, .head ctx h⟩ :: rest →
    s = { ({ s0 with agenda := rest } : State).pass wait with cur := ctx } →
    s.me.stage = .running → s.userHold = false → s.offBeat ctx = false → (h = .s → s.core.bank = none) →
    (h ≠ .s → s.core.path.lost h = none ∧ (s.core.path.replay.isSome = true → 1 < s.core.path.whole h)
      ∧ (s.core.path.left h (wordLen w) ≤ s.core.path.lag h ∨ (h = .y ∧ endsTask w = true ∧ s.core.path.together = true))) →
    (h = .s → i.long = true → s.core.slipHalf = false) → s.core.arm = none →
    s.fetch ctx (s.core.path.pc h) = .word w →
    (w % 4 = 1 → s.fetch ctx (s.core.path.pc h + 4) = .word x) → (w % 4 ≠ 1 → x = 0) →
    w % 4 ≠ 3 → w % 4 ≠ 2 → wordTag w = headCode h → decode w x = .ok i → i.wf = true →
    s.look h = .unit i
    ∧ (∀ t, exec i s = .next t → t.core.arm = none →
        (s.trapped t = true → ∀ k ∈ headsBefore h, ∀ u, headStep s k = .next u → s.trapped u = false) → step s0 = .next t)
    ∧ (∀ r, exec i s = .fault r → step s0 = .fault r)
    ∧ (∀ r, exec i s = .refused r → step s0 = .refused r)

/-- No operand bit of any encoding is dropped or moved. -/
def Obligations.DecodeOfEncode : Prop :=
  ∀ (i : Instr) (w : Nat) (x : Option Nat), i.wf = true → encode i = some (w, x) → decode w (x.getD 0) = .ok i

/-- The state after reset, as far as the spec gives it. -/
def Obligations.ResetLeavesStageZero : Prop :=
  State.reset.stc = 0 ∧ (∀ d < 4, (State.reset.die d).stage = 0) ∧ State.reset.powered = false
  ∧ (∀ ctx, (State.reset.slotAt ctx).stage = .free ∧ (State.reset.slotAt ctx).task = none)
  ∧ State.reset.records = [] ∧ Memory.wf State.reset.mem = true

/-- The canonical form of memory is an invariant of the package. -/
def Obligations.StepKeepsMemoryCanonical : Prop :=
  ∀ s t : State, Memory.wf s.mem = true → step s = .next t → Memory.wf t.mem = true

/-- R51. Full execution with destination s0 is stated for ADD, for an LDT (its bound check and its bank request) and for a POPF (its
pop). -/
def Obligations.HardWiredRegisters : Prop :=
  (∀ (s : State) (k : Nat), s.readS k 0 = 0 ∧ s.readP k 0 = true ∧ s.core.getS 0 = 0 ∧ s.core.getP 0 = true)
  ∧ (∀ (c : Core) (v : Word) (b : Bool) (cls : Nat), c.setS 0 v = c ∧ c.setP 0 b = c ∧ c.land (.s 0) v cls = c
      ∧ c.land (.p 0) v cls = c)
  ∧ (∀ (s : State) (a b : SReg) (g : Bool) (lat : Fin 8), s.IssuesS (.add 0 a b g lat) →
      exec (.add 0 a b g lat) s = .next (s.opened.finishS 1))
  ∧ (∀ (s : State) (a b : SReg) (g : Bool) (lat : Fin 8), s.IssuesS (.ldt 0 a b g lat) →
      s.opened.acquirePending = false → s.opened.core.windrowEmpty (s.opened.tileAddr a b).toNat = false →
      exec (.ldt 0 a b g lat) s = .next (if tileAddrOk (s.opened.tileAddr a b) = true
        then (s.opened.setCore fun c => { c.awaitBank 0 with
          bank := some ⟨(s.opened.tileAddr a b).toNat, false, 0, 0⟩ }).finishS 1
        else s.opened.syncTrap .s 0x06 (s.opened.tileAddr a b)))
  ∧ (∀ (s : State) (fifo : Fin 32) (g : Bool) (lat : Fin 8) (e : Word) (rest : List Word), s.IssuesS (.popf 0 fifo g lat) →
      s.opened.acquirePending = false → s.opened.core.fifo fifo.val = e :: rest →
      exec (.popf 0 fifo g lat) s = .next ((s.opened.setCore (·.setFifo fifo.val rest)).finishS 1))
  ∧ (∀ (c : Fin 4) (a b : SReg) (imm : BitVec 32) (fa fb : FReg) (x y : PReg) (i j g : Bool) (lat : Fin 8),
      (Instr.cmp c 0 a b g lat).wf = false ∧ (Instr.cmpi c 0 a imm g lat).wf = false
      ∧ (Instr.fcmp c 0 fa fb g lat).wf = false ∧ (Instr.plog c 0 i x j y g lat).wf = false)
  ∧ (∀ (f : Fields), f.tag = 0 → f.ls ≤ 1 →
      ((f.op ∈ [0x30, 0x31, 0x32, 0x33, 0x34, 0x36, 0x37] ∧ (16 ≤ f.d ∨ 16 ≤ f.a ∨ 16 ≤ f.b))
        ∨ (f.op = 0x35 ∧ (16 ≤ f.d ∨ 16 ≤ f.a)) ∨ (f.op = 0x2A ∧ (16 ≤ f.a ∨ 16 ≤ f.b)) ∨ (f.op = 0x39 ∧ 16 ≤ f.d)
        ∨ (f.op = 0x3A ∧ ((f.b = 0 ∧ 16 ≤ f.a) ∨ (f.b = 1 ∧ 16 ≤ f.d)))
        ∨ (f.op = 0x38 ∧ ((f.b ∈ [0, 1] ∧ (16 ≤ f.d ∨ 16 ≤ f.a)) ∨ (f.b ∈ [2, 3, 6, 8, 10, 12, 14, 16, 18] ∧ 16 ≤ f.a)
          ∨ (f.b ∈ [4, 5, 7, 9, 11, 13, 15, 17, 19] ∧ 16 ≤ f.d)))) →
      ∃ e, decodeFields f = .error e)

/-- R56: the register-register group, without SAT. -/
def Obligations.RegisterRegisterArithmetic : Prop :=
  ∀ (s : State) (d a b : SReg) (g : Bool) (lat : Fin 8), s.satOn = false →
    let x := s.rs 1 a
    let y := s.rs 2 b
    (s.IssuesS (.add d a b g lat) →
      exec (.add d a b g lat) s = .next (s.lands (.add d a b g lat) (.s d) lat (x + y)))
    ∧ (s.IssuesS (.sub d a b g lat) →
      exec (.sub d a b g lat) s = .next (s.lands (.sub d a b g lat) (.s d) lat (x - y)))
    ∧ (s.IssuesS (.mul d a b g lat) →
      exec (.mul d a b g lat) s = .next (s.lands (.mul d a b g lat) (.s d) lat (x * y)))
    ∧ (s.IssuesS (.mulh d a b g lat) → exec (.mulh d a b g lat) s = .next (s.lands (.mulh d a b g lat) (.s d) lat
        ((x.signExtend 128 * y.signExtend 128).extractLsb' 64 64)))
    ∧ (s.IssuesS (.mulhu d a b g lat) → exec (.mulhu d a b g lat) s = .next (s.lands (.mulhu d a b g lat) (.s d) lat
        ((x.zeroExtend 128 * y.zeroExtend 128).extractLsb' 64 64)))
    ∧ (s.IssuesS (.and d a b g lat) →
      exec (.and d a b g lat) s = .next (s.lands (.and d a b g lat) (.s d) lat (x &&& y)))
    ∧ (s.IssuesS (.or d a b g lat) →
      exec (.or d a b g lat) s = .next (s.lands (.or d a b g lat) (.s d) lat (x ||| y)))
    ∧ (s.IssuesS (.xor d a b g lat) →
      exec (.xor d a b g lat) s = .next (s.lands (.xor d a b g lat) (.s d) lat (x ^^^ y)))
    ∧ (s.IssuesS (.andn d a b g lat) →
      exec (.andn d a b g lat) s = .next (s.lands (.andn d a b g lat) (.s d) lat (x &&& ~~~y)))
    ∧ (s.IssuesS (.shl d a b g lat) → exec (.shl d a b g lat) s = .next (s.lands (.shl d a b g lat) (.s d) lat
        (BitVec.ofNat 64 (x.toNat * 2 ^ (y.toNat % 64)))))
    ∧ (s.IssuesS (.shr d a b g lat) → exec (.shr d a b g lat) s = .next (s.lands (.shr d a b g lat) (.s d) lat
        (BitVec.ofNat 64 (x.toNat / 2 ^ (y.toNat % 64)))))
    ∧ (s.IssuesS (.sar d a b g lat) → exec (.sar d a b g lat) s = .next (s.lands (.sar d a b g lat) (.s d) lat
        (BitVec.ofInt 64 (x.toInt / 2 ^ (y.toNat % 64)))))
    ∧ (s.IssuesS (.min d a b g lat) → exec (.min d a b g lat) s = .next (s.lands (.min d a b g lat) (.s d) lat
        (if x.toInt ≤ y.toInt then x else y)))
    ∧ (s.IssuesS (.max d a b g lat) → exec (.max d a b g lat) s = .next (s.lands (.max d a b g lat) (.s d) lat
        (if x.toInt ≤ y.toInt then y else x)))
    ∧ (s.IssuesS (.minu d a b g lat) → exec (.minu d a b g lat) s = .next (s.lands (.minu d a b g lat) (.s d) lat
        (if x.toNat ≤ y.toNat then x else y)))
    ∧ (s.IssuesS (.maxu d a b g lat) → exec (.maxu d a b g lat) s = .next (s.lands (.maxu d a b g lat) (.s d) lat
        (if x.toNat ≤ y.toNat then y else x)))

/-- R57: SAT; R64: MADI. -/
def Obligations.SaturatingArithmetic : Prop :=
  ∀ (s : State) (d a b : SReg) (imm : BitVec 32) (g : Bool) (lat : Fin 8),
    let x := (s.rs 1 a).toInt
    let y := (s.rs 2 b).toInt
    let k := (imm.signExtend 64).toInt
    let clamped (v : Int) : Word :=
      if 2 ^ 63 - 1 < v then 0x7FFFFFFFFFFFFFFF else if v < -2 ^ 63 then 0x8000000000000000 else BitVec.ofInt 64 v
    (s.satOn = true →
      (s.IssuesS (.add d a b g lat) →
        exec (.add d a b g lat) s = .next (s.lands (.add d a b g lat) (.s d) lat (clamped (x + y))))
      ∧ (s.IssuesS (.sub d a b g lat) →
        exec (.sub d a b g lat) s = .next (s.lands (.sub d a b g lat) (.s d) lat (clamped (x - y))))
      ∧ (s.IssuesS (.mul d a b g lat) →
        exec (.mul d a b g lat) s = .next (s.lands (.mul d a b g lat) (.s d) lat (clamped (x * y))))
      ∧ (s.IssuesS (.addi d a imm g lat) →
        exec (.addi d a imm g lat) s = .next (s.lands (.addi d a imm g lat) (.s d) lat (clamped (x + k))))
      ∧ (s.IssuesS (.muli d a imm g lat) →
        exec (.muli d a imm g lat) s = .next (s.lands (.muli d a imm g lat) (.s d) lat (clamped (x * k))))
      ∧ (s.IssuesS (.madi d a b imm g lat) →
        exec (.madi d a b imm g lat) s = .next (s.lands (.madi d a b imm g lat) (.s d) lat (clamped (x * k + y)))))
    ∧ (s.satOn = false → s.IssuesS (.madi d a b imm g lat) →
        exec (.madi d a b imm g lat) s = .next (s.lands (.madi d a b imm g lat) (.s d) lat
          (s.rs 1 a * imm.signExtend 64 + s.rs 2 b)))

/-- R58. -/
def Obligations.Division : Prop :=
  (∀ (s : State) (d a b : SReg) (g : Bool) (lat : Fin 8) (i : Instr) (q : Word),
    let x := s.rs 1 a
    let y := s.rs 2 b
    s.IssuesS i →
    ((i = .div d a b g lat ∧ q = if y = 0 then 0xFFFFFFFFFFFFFFFF else BitVec.ofInt 64 (x.toInt.tdiv y.toInt))
      ∨ (i = .divu d a b g lat ∧ q = if y = 0 then 0xFFFFFFFFFFFFFFFF else BitVec.ofNat 64 (x.toNat / y.toNat))
      ∨ (i = .rem d a b g lat ∧ q = if y = 0 then x else BitVec.ofInt 64 (x.toInt.tmod y.toInt))
      ∨ (i = .remu d a b g lat ∧ q = if y = 0 then x else BitVec.ofNat 64 (x.toNat % y.toNat))) →
    ((y ≠ 0 ∨ s.core.dzt = false) → exec i s = .next (s.lands i (.s d) lat q))
    ∧ (y = 0 → s.core.dzt = true → s.core.sup = false → s.core.arm = none →
        ∃ t, exec i s = .next t ∧ t.core.sup = true ∧ t.core.trapcause = 0x05 ∧ t.core.trapval = x
          ∧ t.core.trappcS = BitVec.ofNat 32 s.core.path.pcS
          ∧ t.core.flights = [] ∧ t.core.sreg = s.opened.core.landAll.sreg))
  ∧ (∀ (x y : Word), x.toInt = -2 ^ 63 → y.toInt = -1 →
      BitVec.ofInt 64 (x.toInt.tdiv y.toInt) = 0x8000000000000000 ∧ BitVec.ofInt 64 (x.toInt.tmod y.toInt) = 0)

/-- R59, R60. -/
def Obligations.ImmediateForms : Prop :=
  ∀ (s : State) (d a : SReg) (imm : BitVec 32) (sh : Fin 64) (g : Bool) (lat : Fin 8),
    let x := s.rs 1 a
    (s.IssuesS (.li d imm g lat) →
      exec (.li d imm g lat) s = .next (s.lands (.li d imm g lat) (.s d) lat (BitVec.ofInt 64 imm.toInt)))
    ∧ (s.satOn = false → s.IssuesS (.addi d a imm g lat) → exec (.addi d a imm g lat) s =
        .next (s.lands (.addi d a imm g lat) (.s d) lat (x + BitVec.ofInt 64 imm.toInt)))
    ∧ (s.satOn = false → s.IssuesS (.muli d a imm g lat) → exec (.muli d a imm g lat) s =
        .next (s.lands (.muli d a imm g lat) (.s d) lat (x * BitVec.ofInt 64 imm.toInt)))
    ∧ (s.IssuesS (.andi d a imm g lat) → exec (.andi d a imm g lat) s =
        .next (s.lands (.andi d a imm g lat) (.s d) lat (x &&& BitVec.ofInt 64 imm.toInt)))
    ∧ (s.IssuesS (.ori d a imm g lat) → exec (.ori d a imm g lat) s =
        .next (s.lands (.ori d a imm g lat) (.s d) lat (x ||| BitVec.ofNat 64 imm.toNat)))
    ∧ (s.IssuesS (.xori d a imm g lat) → exec (.xori d a imm g lat) s =
        .next (s.lands (.xori d a imm g lat) (.s d) lat (x ^^^ BitVec.ofNat 64 imm.toNat)))
    ∧ (s.IssuesS (.shli d a sh lat) → exec (.shli d a sh lat) s =
        .next (s.lands (.shli d a sh lat) (.s d) lat (BitVec.ofNat 64 (x.toNat * 2 ^ sh.val))))
    ∧ (s.IssuesS (.shri d a sh lat) → exec (.shri d a sh lat) s =
        .next (s.lands (.shri d a sh lat) (.s d) lat (BitVec.ofNat 64 (x.toNat / 2 ^ sh.val))))
    ∧ (s.IssuesS (.sari d a sh lat) → exec (.sari d a sh lat) s =
        .next (s.lands (.sari d a sh lat) (.s d) lat (BitVec.ofInt 64 (x.toInt / 2 ^ sh.val))))

/-- R61. -/
def Obligations.BitCounts : Prop :=
  ∀ (s : State) (d a : SReg) (g : Bool) (lat : Fin 8),
    let x := s.rs 1 a
    (s.IssuesS (.clz d a g lat) → ∃ n ≤ 64,
      exec (.clz d a g lat) s = .next (s.lands (.clz d a g lat) (.s d) lat (BitVec.ofNat 64 n))
      ∧ (∀ k, 64 - n ≤ k → x.getLsbD k = false) ∧ (n < 64 → x.getLsbD (63 - n) = true) ∧ (x = 0 → n = 64))
    ∧ (s.IssuesS (.ctz d a g lat) → ∃ n ≤ 64,
      exec (.ctz d a g lat) s = .next (s.lands (.ctz d a g lat) (.s d) lat (BitVec.ofNat 64 n))
      ∧ (∀ k < n, x.getLsbD k = false) ∧ (n < 64 → x.getLsbD n = true) ∧ (x = 0 → n = 64))
    ∧ (s.IssuesS (.popc d a g lat) →
      exec (.popc d a g lat) s = .next (s.lands (.popc d a g lat) (.s d) lat
        (BitVec.ofNat 64 ((List.range 64).countP fun k => x.getLsbD k))))

/-- R62, R63. -/
def Obligations.FieldsAndSelection : Prop :=
  (∀ (s : State) (d a : SReg) (imm : BitVec 32) (g : Bool) (lat : Fin 8),
    let x := s.rs 1 a
    let lsb := imm.toNat % 64
    let w := imm.toNat / 64 % 64 + 1
    let sgn := imm.getLsbD 12
    (s.IssuesS (.ext d a imm g lat) → ∃ v : Word,
      exec (.ext d a imm g lat) s = .next (s.lands (.ext d a imm g lat) (.s d) lat v)
      ∧ ∀ k < 64, v.getLsbD k = if k < w then x.getLsbD (lsb + k) else sgn && x.getLsbD (lsb + w - 1))
    ∧ (s.IssuesS (.ins d a imm g lat) → ∃ v : Word,
      exec (.ins d a imm g lat) s = .next (s.lands (.ins d a imm g lat) (.s d) lat v)
      ∧ ∀ k < 64, v.getLsbD k = if lsb ≤ k ∧ k < lsb + w then x.getLsbD (k - lsb) else (s.rs 3 d).getLsbD k)
    ∧ ((Instr.ext d a imm g lat).wf = true ↔ (imm.toNat / 2 ^ 13 = 0 ∧ lsb + w ≤ 64))
    ∧ ((Instr.ins d a imm g lat).wf = true ↔ (imm.toNat / 2 ^ 13 = 0 ∧ lsb + w ≤ 64 ∧ sgn = false)))
  ∧ (∀ (s : State) (d a b : SReg) (lat : Fin 8),
    (s.IssuesS (.sel d a b lat) → exec (.sel d a b lat) s =
      .next (s.lands (.sel d a b lat) (.s d) lat (if s.rp 3 1 = true then s.rs 1 a else s.rs 2 b)))
    ∧ s.rp 3 1 = if s.opened.core.inWindow (.p 1) = true then (Config.freeWord (s.draws + 3)).getLsbD 0
        else s.opened.core.getP 1)

/-- R65, R66, R67. -/
def Obligations.Predicates : Prop :=
  ∀ (s : State) (p : PReg) (a b : SReg) (fa fb : FReg) (imm : BitVec 32) (i j g : Bool) (x y : PReg) (lat : Fin 8),
    let bit (v : Prop) [Decidable v] : Word := if v then 1 else 0
    let u := s.rs 1 a
    let v := s.rs 2 b
    let k : Word := BitVec.ofInt 64 imm.toInt
    let f := Fmt.fp64.operand s.core.mods.ftz (s.rf 1 fa).toNat
    let h := Fmt.fp64.operand s.core.mods.ftz (s.rf 2 fb).toNat
    let pu : Bool := s.rp 1 x != i
    let pv : Bool := s.rp 2 y != j
    (∀ c : Fin 4, s.IssuesS (.cmp c p a b g lat) →
      exec (.cmp c p a b g lat) s = .next (s.lands (.cmp c p a b g lat) (.p p) lat
        (if c = 0 then bit (u = v) else if c = 1 then bit (u.toInt < v.toInt) else if c = 2 then bit (u.toNat < v.toNat)
          else bit (u &&& v ≠ 0))))
    ∧ (∀ c : Fin 4, s.IssuesS (.cmpi c p a imm g lat) →
      exec (.cmpi c p a imm g lat) s = .next (s.lands (.cmpi c p a imm g lat) (.p p) lat
        (if c = 0 then bit (u = k) else if c = 1 then bit (u.toInt < k.toInt) else if c = 2 then bit (u.toNat < k.toNat)
          else bit (u &&& k ≠ 0))))
    ∧ (∀ c : Fin 4, s.IssuesS (.fcmp c p fa fb g lat) →
      exec (.fcmp c p fa fb g lat) s = .next (s.lands (.fcmp c p fa fb g lat) (.p p) lat
        (if f = .nan ∨ h = .nan then bit (c = 3)
          else if c = 0 then bit (f.eqv h = true) else if c = 1 then bit (f.lt h = true)
          else if c = 2 then bit (f.lt h = true ∨ f.eqv h = true) else 0)))
    ∧ (∀ (n m : Bool) (e e' : Int), (FVal.fin n 0 e).eqv (.fin m 0 e') = true)
    ∧ (∀ c : Fin 4, s.IssuesS (.plog c p i x j y g lat) → c ≠ 3 →
      exec (.plog c p i x j y g lat) s = .next (s.lands (.plog c p i x j y g lat) (.p p) lat
        (if c = 0 then bit (pu = true ∧ pv = true) else if c = 1 then bit (pu = true ∨ pv = true)
          else bit (pu ≠ pv))))
    ∧ (Instr.plog 3 p i x j y g lat).wf = false
    ∧ (∀ c : Fin 4, (Instr.cmp c 0 a b g lat).wf = false ∧ (Instr.cmpi c 0 a imm g lat).wf = false
      ∧ (Instr.fcmp c 0 fa fb g lat).wf = false ∧ (Instr.plog c 0 i x j y g lat).wf = false)

/-- R68, R69, in terms of the exact values of the operands. -/
def Obligations.FloatingPointArithmetic : Prop :=
  ∀ (s : State) (d a b : FReg) (g : Bool) (lat : Fin 8),
    let m := s.core.mods
    let val (w : Word) : FVal := Fmt.fp64.operand m.ftz w.toNat
    let x := val (s.rf 1 a)
    let y := val (s.rf 2 b)
    let z := val (s.rf 3 d)
    let rounded (v : FVal) : Word := BitVec.ofNat 64 (roundTo .fp64 m v)
    let exact (v : FVal) : Word := BitVec.ofNat 64 (roundTo .fp64 {} v)
    (s.IssuesS (.fadd d a b g lat) →
      exec (.fadd d a b g lat) s = .next (s.lands (.fadd d a b g lat) (.f d) lat (rounded (x.add m.rm y))))
    ∧ (s.IssuesS (.fsub d a b g lat) →
      exec (.fsub d a b g lat) s = .next (s.lands (.fsub d a b g lat) (.f d) lat (rounded (x.add m.rm y.neg))))
    ∧ (s.IssuesS (.fmul d a b g lat) →
      exec (.fmul d a b g lat) s = .next (s.lands (.fmul d a b g lat) (.f d) lat (rounded (x.mul y))))
    ∧ (s.IssuesS (.ffma d a b g lat) →
      exec (.ffma d a b g lat) s = .next (s.lands (.ffma d a b g lat) (.f d) lat (rounded ((x.mul y).add m.rm z))))
    ∧ (s.IssuesS (.fdiv d a b g lat) →
      exec (.fdiv d a b g lat) s = .next (s.lands (.fdiv d a b g lat) (.f d) lat (rounded (x.div y))))
    ∧ (s.IssuesS (.fsqrt d a g lat) →
      exec (.fsqrt d a g lat) s = .next (s.lands (.fsqrt d a g lat) (.f d) lat (rounded x.sqrt)))
    ∧ (s.IssuesS (.fmin d a b g lat) →
      exec (.fmin d a b g lat) s = .next (s.lands (.fmin d a b g lat) (.f d) lat (exact (x.min y))))
    ∧ (s.IssuesS (.fmax d a b g lat) →
      exec (.fmax d a b g lat) s = .next (s.lands (.fmax d a b g lat) (.f d) lat (exact (x.max y))))
    ∧ (x = .nan ∨ y = .nan → exact (x.min y) = 0x7FF8000000000000 ∧ exact (x.max y) = 0x7FF8000000000000)

/-- R68, R122, R129, R131. -/
def Obligations.RoundingKeepsRepresentable : Prop :=
  (∀ (md : Mods) (p : Nat), p < 2 ^ 64 → Fmt.fp64.value p ≠ .nan →
    roundTo .fp64 md (Fmt.fp64.value p) =
      if md.ftz = true ∧ Fmt.fp64.subnormal p = true then p / 2 ^ 63 * 2 ^ 63 else p)
  ∧ (∀ (md : Mods) (v : FVal), v ≠ .nan → Fmt.fp64.value (roundTo .fp64 md v) ≠ .nan)
  ∧ (∀ md : Mods, roundTo .fp64 md .nan = 0x7FF8000000000000)

/-- R70, R71, R72, in terms of Round (R129 to R134) into the floating-point formats and of the values of patterns; the
rounding to integers is spelt out. -/
def Obligations.Conversions : Prop :=
  (∀ (s : State) (d a : SReg) (fd fa : FReg) (imm : BitVec 32) (g : Bool) (lat : Fin 8),
    let m := s.core.mods
    let x := s.rs 1 a
    let v : FVal := Fmt.fp64.operand m.ftz (s.rf 1 fa).toNat
    let fp (v : FVal) : Word := BitVec.ofNat 64 (roundTo .fp64 {} v)
    let narrowed (f : Fmt) : Word := BitVec.ofNat 64 (roundTo f m v)
    let widened (f : Fmt) : Word := fp (f.operand m.ftz (x.toNat % 2 ^ f.width))
    (s.IssuesS (.fcvtRint fd fa g lat) →
      exec (.fcvtRint fd fa g lat) s = .next (s.lands (.fcvtRint fd fa g lat) (.f fd) lat (fp (integral m.rm v))))
    ∧ (s.IssuesS (.fcvtRound32 fd fa g lat) → exec (.fcvtRound32 fd fa g lat) s =
        .next (s.lands (.fcvtRound32 fd fa g lat) (.f fd) lat (fp (Fmt.fp32.value (roundTo .fp32 m v)))))
    ∧ (s.IssuesS (.fcvtToint d fa g lat) → exec (.fcvtToint d fa g lat) s =
        .next (s.lands (.fcvtToint d fa g lat) (.s d) lat
          (BitVec.ofNat 64 (roundToInt 64 m (Fmt.fp64.value (s.rf 1 fa).toNat)))))
    ∧ (s.IssuesS (.fcvtTouint d fa g lat) → exec (.fcvtTouint d fa g lat) s =
        .next (s.lands (.fcvtTouint d fa g lat) (.s d) lat (toUnsigned m (Fmt.fp64.value (s.rf 1 fa).toNat))))
    ∧ (s.IssuesS (.fcvtFromint fd a g lat) → exec (.fcvtFromint fd a g lat) s =
        .next (s.lands (.fcvtFromint fd a g lat) (.f fd) lat
          (BitVec.ofNat 64 (roundTo .fp64 { rm := m.rm } (.ofInt x.toInt)))))
    ∧ (s.IssuesS (.fcvtFromuint fd a g lat) → exec (.fcvtFromuint fd a g lat) s =
        .next (s.lands (.fcvtFromuint fd a g lat) (.f fd) lat
          (BitVec.ofNat 64 (roundTo .fp64 { rm := m.rm } (.ofInt x.toNat)))))
    ∧ (s.IssuesS (.fcvtTofp32 d fa g lat) →
      exec (.fcvtTofp32 d fa g lat) s = .next (s.lands (.fcvtTofp32 d fa g lat) (.s d) lat (narrowed .fp32)))
    ∧ (s.IssuesS (.fcvtTofp16 d fa g lat) →
      exec (.fcvtTofp16 d fa g lat) s = .next (s.lands (.fcvtTofp16 d fa g lat) (.s d) lat (narrowed .fp16)))
    ∧ (s.IssuesS (.fcvtTobf16 d fa g lat) →
      exec (.fcvtTobf16 d fa g lat) s = .next (s.lands (.fcvtTobf16 d fa g lat) (.s d) lat (narrowed .bf16)))
    ∧ (s.IssuesS (.fcvtToe4m3 d fa g lat) →
      exec (.fcvtToe4m3 d fa g lat) s = .next (s.lands (.fcvtToe4m3 d fa g lat) (.s d) lat (narrowed .e4m3)))
    ∧ (s.IssuesS (.fcvtToe5m2 d fa g lat) →
      exec (.fcvtToe5m2 d fa g lat) s = .next (s.lands (.fcvtToe5m2 d fa g lat) (.s d) lat (narrowed .e5m2)))
    ∧ (s.IssuesS (.fcvtTotap8 d fa g lat) →
      exec (.fcvtTotap8 d fa g lat) s = .next (s.lands (.fcvtTotap8 d fa g lat) (.s d) lat (narrowed .tap8)))
    ∧ (s.IssuesS (.fcvtTotap6 d fa g lat) →
      exec (.fcvtTotap6 d fa g lat) s = .next (s.lands (.fcvtTotap6 d fa g lat) (.s d) lat (narrowed .tap6)))
    ∧ (s.IssuesS (.fcvtFromfp32 fd a g lat) →
      exec (.fcvtFromfp32 fd a g lat) s = .next (s.lands (.fcvtFromfp32 fd a g lat) (.f fd) lat (widened .fp32)))
    ∧ (s.IssuesS (.fcvtFromfp16 fd a g lat) →
      exec (.fcvtFromfp16 fd a g lat) s = .next (s.lands (.fcvtFromfp16 fd a g lat) (.f fd) lat (widened .fp16)))
    ∧ (s.IssuesS (.fcvtFrombf16 fd a g lat) →
      exec (.fcvtFrombf16 fd a g lat) s = .next (s.lands (.fcvtFrombf16 fd a g lat) (.f fd) lat (widened .bf16)))
    ∧ (s.IssuesS (.fcvtFrome4m3 fd a g lat) →
      exec (.fcvtFrome4m3 fd a g lat) s = .next (s.lands (.fcvtFrome4m3 fd a g lat) (.f fd) lat (widened .e4m3)))
    ∧ (s.IssuesS (.fcvtFrome5m2 fd a g lat) →
      exec (.fcvtFrome5m2 fd a g lat) s = .next (s.lands (.fcvtFrome5m2 fd a g lat) (.f fd) lat (widened .e5m2)))
    ∧ (s.IssuesS (.fcvtFromtap8 fd a g lat) →
      exec (.fcvtFromtap8 fd a g lat) s = .next (s.lands (.fcvtFromtap8 fd a g lat) (.f fd) lat (widened .tap8)))
    ∧ (s.IssuesS (.fcvtFromtap6 fd a g lat) →
      exec (.fcvtFromtap6 fd a g lat) s = .next (s.lands (.fcvtFromtap6 fd a g lat) (.f fd) lat (widened .tap6)))
    ∧ (s.IssuesS (.fmvi fd imm g lat) →
      exec (.fmvi fd imm g lat) s = .next (s.lands (.fmvi fd imm g lat) (.f fd) lat (fp (Fmt.fp32.value imm.toNat))))
    ∧ (s.IssuesS (.fmvfToS d fa g lat) →
      exec (.fmvfToS d fa g lat) s = .next (s.lands (.fmvfToS d fa g lat) (.s d) lat (s.rf 1 fa)))
    ∧ (s.IssuesS (.fmvfToF fd a g lat) →
      exec (.fmvfToF fd a g lat) s = .next (s.lands (.fmvfToF fd a g lat) (.f fd) lat x)))
  ∧ (∀ (md : Mods) (n : Bool) (m : Nat) (e : Int), ∃ r : Nat,
    let i : Int := if n then -(r : Int) else r
    let signed : Word := BitVec.ofNat 64 (roundToInt 64 md (.fin n m e))
    let unsigned : Word := toUnsigned md (.fin n m e)
    let p := 2 ^ (-e).toNat
    integral md.rm (.fin n m e) = .fin n r 0
    ∧ (0 ≤ e → r = m * 2 ^ e.toNat)
    ∧ (e < 0 → match md.rm with
      | .rne => 2 * (r * p) ≤ 2 * m + p ∧ 2 * m ≤ 2 * (r * p) + p
        ∧ (2 * (r * p) = 2 * m + p ∨ 2 * m = 2 * (r * p) + p → r % 2 = 0)
      | .rna => 2 * (r * p) ≤ 2 * m + p ∧ 2 * m < 2 * (r * p) + p
      | .rtz => r * p ≤ m ∧ m < r * p + p
      | .rdn => if n then m ≤ r * p ∧ r * p < m + p else r * p ≤ m ∧ m < r * p + p
      | .rup => if n then r * p ≤ m ∧ m < r * p + p else m ≤ r * p ∧ r * p < m + p)
    ∧ (-2 ^ 63 ≤ i → i < 2 ^ 63 → signed.toInt = i)
    ∧ (i < -2 ^ 63 → signed = 0x8000000000000000)
    ∧ (2 ^ 63 ≤ i → signed = if md.sat then 0x7FFFFFFFFFFFFFFF else 0x8000000000000000)
    ∧ (0 ≤ i → i < 2 ^ 64 → (unsigned.toNat : Int) = i)
    ∧ (i < 0 → unsigned = if md.sat then 0 else 0x8000000000000000)
    ∧ (2 ^ 64 ≤ i → unsigned = if md.sat then 0xFFFFFFFFFFFFFFFF else 0x8000000000000000))
  ∧ (∀ (md : Mods) (n : Bool),
    integral md.rm .nan = .nan ∧ integral md.rm (.inf n) = .inf n
    ∧ BitVec.ofNat 64 (roundToInt 64 md .nan) = (if md.sat then 0 else 0x8000000000000000 : Word)
    ∧ BitVec.ofNat 64 (roundToInt 64 md (.inf n))
      = (if md.sat && !n then 0x7FFFFFFFFFFFFFFF else 0x8000000000000000 : Word)
    ∧ toUnsigned md .nan = (if md.sat then 0 else 0x8000000000000000)
    ∧ toUnsigned md (.inf n) = (if md.sat then (if n then 0 else 0xFFFFFFFFFFFFFFFF) else 0x8000000000000000))

/-- R74 to R80. A taken transfer leaves S at its target with the outcome recorded, one not taken at the next word. The model's own: only a taken
transfer checks its target (log 8), and a target is taken modulo 2^64 (log 95). -/
def Obligations.BranchesTakenAndNot : Prop :=
  ∀ (s : State) (off : Fin 4096) (o2 : Fin 2048) (n g : Bool) (p : PReg) (a d : SReg) (imm : BitVec 32) (lat : Fin 8),
    let pc := s.opened.pcS
    let leap (go : Going) (i : Instr) (tgt : Option Word) (f : Core → Core) : Prop :=
      exec i s = .next (match tgt with
        | none => ((s.opened.setCore f).finishS (words i)).setCore (·.setPath (·.record go 0 pc false))
        | some t =>
          if s.opened.badTarget t = true then s.opened.syncTrap .s 0x03 t
          else ((s.opened.setCore f).finishS (words i)).setCore
            (·.setPath fun q => { q.record go t.toNat pc true with pcS := t.toNat }))
    let way : Going := if d = 0 then .jump else .call
    let v := s.rs 1 a - 1
    (s.IssuesS (.br off n p) → s.opened.boqFull = false →
      leap .jump (.br off n p) (if (s.rp 1 p != n) = true
        then some (BitVec.ofInt 64 (pc + 4 * (BitVec.ofNat 12 off.val).toInt)) else none) id)
    ∧ (s.IssuesS (.dbrp a o2 lat) → s.opened.boqFull = false →
      leap .jump (.dbrp a o2 lat) (if 0 < v.toInt then some (BitVec.ofInt 64 (pc + 4 * (BitVec.ofNat 11 o2.val).toInt)) else none)
        (·.land (.s a) v (latClass lat)))
    ∧ (s.IssuesS (.call d a imm g lat) → s.boqFull = false →
      leap way (.call d a imm g lat)
        (some (if a = 0 then BitVec.ofInt 64 (pc + 4 * imm.toInt) else s.rs 1 a + BitVec.ofInt 64 (4 * imm.toInt)))
        (·.land (.s d) (BitVec.ofNat 64 (pc + 8)) (latClass lat)))
    ∧ (s.SkipsS (.call d a imm g lat) → s.boqFull = false → leap way (.call d a imm g lat) none id)
    ∧ (s.IssuesS (.ret a g) → s.boqFull = false → leap .ret (.ret a g) (some (s.rs 1 a)) id)
    ∧ (s.SkipsS (.ret a g) → s.boqFull = false → leap .ret (.ret a g) none id)
    ∧ (s.IssuesS (.nop g) → exec (.nop g) s = .next (s.opened.finishS 1))
    ∧ (∀ t, s.opened.badTarget t = true ↔ ((s.arena s.cur).2 < t.toNat + 4 ∨ t.toNat % 4 ≠ 0))
    ∧ (∀ (q : Path) (go : Going) (tgt xfer : Nat) (tkn : Bool) (h : Head), h ≠ .s → q.replay = none →
      (∀ b ∈ q.boq, b.pass = .first) → (∀ k, q.used k ≤ q.boq.length) →
      let r := q.record go tgt xfer tkn
      r.boq.drop (r.used h) = q.boq.drop (q.used h) ++ [⟨if tkn then tgt else 0, xfer, tkn, .first⟩] ∧ r.replay = none)

/-- R76, R77, R101. The model's own: which loop a repeated or inner BRP repeats and what releases the trailing heads (log 14), and that only a
taken BRP checks its target (log 8). -/
def Obligations.PrivateBranch : Prop :=
  (∀ (s : State) (off : Fin 4096) (n : Bool) (p : PReg), s.IssuesS (.brp off n p) →
    let pc := s.opened.pcS
    let tgt : Word := BitVec.ofInt 64 (pc + 4 * (BitVec.ofNat 12 off.val).toInt)
    ((s.rp 1 p != n) = true → s.opened.badTarget tgt = false → ∃ t, exec (.brp off n p) s = .next t
      ∧ t.core.path.pcS = tgt.toNat
      ∧ t.core.path.replay = some (match s.core.path.replay with
        | none => ⟨pc, tgt.toNat, 0⟩
        | some l => if l.depth = 0 then { l with start := min l.start tgt.toNat } else l)
      ∧ t.core.path.boq = s.core.path.boq
      ∧ (∀ h, h ≠ .s → t.core.path.pc h = s.core.path.pc h ∧ t.core.path.used h = s.core.path.used h))
    ∧ ((s.rp 1 p != n) = true → s.opened.badTarget tgt = true →
        exec (.brp off n p) s = .next (s.opened.syncTrap .s 0x03 tgt))
    ∧ ((s.rp 1 p != n) = false → ∃ t, exec (.brp off n p) s = .next t
      ∧ t.core.path.pcS = pc + 4 ∧ t.core.path.boq = s.core.path.boq.map (·.release pc)
      ∧ t.core.path.replay = match s.core.path.replay with
        | some l => if l.brp = pc ∧ l.depth = 0 then none else some l
        | none => none))
  ∧ (∀ (off : Fin 4096) (n : Bool) (p : PReg), (Instr.brp off n p).wf = true ↔ (BitVec.ofNat 12 off.val).toInt < 0)

/-- R82, in either mode (in supervisor mode the entry is one of the supervisor spill memory, R111). -/
def Obligations.SpillMemory : Prop :=
  ∀ (s : State) (d : SReg) (cls g : Bool) (slot : Fin 512) (lat : Fin 8),
    let r : RegId := if cls then .f (Fin.ofNat 16 d.val) else .s d
    (s.IssuesS (.spst d cls slot g) → ∃ t, exec (.spst d cls slot g) s = .next t
      ∧ t.core.getSpill slot.val = s.opened.readReg 1 r
      ∧ t.core.sup = s.core.sup ∧ t.mem = s.mem ∧ t.me.store = s.me.store
      ∧ t = (s.opened.setCore (·.setSpill slot.val (s.opened.readReg 1 r))).finishS 1)
    ∧ (s.IssuesS (.spld d cls slot g lat) →
      exec (.spld d cls slot g lat) s = .next (s.lands (.spld d cls slot g lat) r lat (s.core.getSpill slot.val)))
    ∧ ((Instr.spld d cls slot g lat).wf = true → cls = true → d.val < 16)

/-- R83, R84, R88, R109; the journal's bound check is R400's and the uncorrectable word R335's. That LDT sees the task's journalled
updates of tile store is log 84. -/
def Obligations.TileStoreAccess : Prop :=
  (∀ (s : State) (d a b : SReg) (g : Bool) (lat : Fin 8),
    let at' := s.rs 1 a + s.rs 2 b
    let good : Prop := at'.toNat < 524288 ∧ at'.toNat % 8 = 0
    (s.IssuesS (.ldt d a b g lat) →
      ((s.opened.acquirePending = true ∨ s.opened.core.windrowEmpty at'.toNat = true) → exec (.ldt d a b g lat) s = .next s)
      ∧ (s.opened.acquirePending = false → s.opened.core.windrowEmpty at'.toNat = false →
        (good → exec (.ldt d a b g lat) s = .next
          ((s.opened.setCore fun c => { (c.land (.s d) 0 (latClass lat)).awaitBank d with
            bank := some ⟨at'.toNat, false, 0, 0⟩ }).finishS 1))
        ∧ (¬ good → exec (.ldt d a b g lat) s = .next (s.opened.syncTrap .s 0x06 at'))))
    ∧ (s.IssuesS (.stt d a b g) →
      ((s.opened.acquirePending = true ∨ s.opened.storeBlocked = true) → exec (.stt d a b g) s = .next s)
      ∧ (s.opened.acquirePending = false → s.opened.storeBlocked = false →
        (good → s.me.pkt.inJournal at'.toNat = false → exec (.stt d a b g) s = .next
          ((s.opened.setCore fun c => { c with bank := some ⟨at'.toNat, true, s.rs 3 d, 0⟩ }).finishS 1))
        ∧ ((¬ good ∨ s.me.pkt.inJournal at'.toNat = true) →
          exec (.stt d a b g) s = .next (s.opened.syncTrap .s 0x06 at'))))
    ∧ s.rs 3 0 = 0)
  ∧ (∀ (s : State) (q : BankReq) (conflict : Bool), s.core.bank = some q →
    (conflict = true → q.refused < 2 → ∃ t, exec (.tileStoreBankGrant conflict) s = .next t
      ∧ t.core.bank = some { q with refused := q.refused + 1 } ∧ t.me.store = s.me.store ∧ t.mem = s.mem)
    ∧ ((conflict = true → 2 ≤ q.refused) → ∃ t, exec (.tileStoreBankGrant conflict) s = .next t
      ∧ t.core.bank = none ∧ t.mem = s.mem ∧ t.core.sreg = s.core.sreg ∧ t.core.path = s.core.path
      ∧ (q.store = true → readLE t.me.store q.addr 8 = q.data.toNat
        ∧ (∀ k, k < q.addr ∨ q.addr + 8 ≤ k → getByte t.me.store k = getByte s.me.store k)
        ∧ t.core.flights = s.core.flights ∧ t.core.pend = s.core.pend)
      ∧ (q.store = false → t.me.store = s.me.store
        ∧ (let bad := s.me.badWords.contains q.addr
           t.core.flights = (s.core.flights.map fun f => if f.wait = true then { f with
               val := if bad = true ∨ s.me.tileUnread = true then 0 else BitVec.ofNat 64 (readLE s.me.tileView q.addr 8)
               wait := false } else f)
           ∧ (s.me.tileUnread = true → (t.wounds.any fun w => w.age == s.me.age) = true)
           ∧ t.core.pend = s.core.pend ++ if bad = true then [⟨0x12, 0, BitVec.ofNat 64 q.addr⟩] else []))))

/-- R85 to R88, R217. That a queue's 64 take in the commands in execution is the model's reading (log 80). -/
def Obligations.EngineFifos : Prop :=
  (∀ (s : State) (d a : SReg) (fifo : Fin 32) (g : Bool) (lat : Fin 8),
    (s.IssuesS (.popf d fifo g lat) →
      (∀ e rest, s.opened.acquirePending = false → s.opened.core.fifo fifo.val = e :: rest →
        exec (.popf d fifo g lat) s =
          .next ((s.opened.setCore fun c => (c.setFifo fifo.val rest).land (.s d) e (latClass lat)).finishS 1))
      ∧ ((s.opened.acquirePending = true ∨ s.opened.core.fifo fifo.val = []) → exec (.popf d fifo g lat) s = .next s))
    ∧ (s.IssuesS (.pushf a fifo g) →
      (s.opened.acquirePending = false → s.opened.me.pushWaits fifo.val = false →
        exec (.pushf a fifo g) s = .next ((s.opened.setMe (·.push fifo.val (s.rs 1 a))).finishS 1))
      ∧ ((s.opened.acquirePending = true ∨ s.opened.me.pushWaits fifo.val = true) → exec (.pushf a fifo g) s = .next s)))
  ∧ (∀ c : Core, c.fifo 3 = c.chf ∧ c.fifo 4 = c.sts ∧ (∀ k : Fin 4, c.fifo (8 + k.val) = c.xi[k])
    ∧ ∀ l, (c.setFifo 3 l).chf = l ∧ (c.setFifo 4 l).sts = l ∧ ∀ k : Fin 4, (c.setFifo (8 + k.val) l).xi = c.xi.set k l)
  ∧ (∀ (l : Slot) (v : Word),
    (∀ k : Fin 4, l.push (12 + k.val) v = l.setCore fun c => { c with xo := c.xo.set k (c.xo[k] ++ [v]) })
    ∧ (∀ k, k < 3 → (l.assembly k).length < 15 → l.push k v = l.setAssembly k (l.assembly k ++ [v]))
    ∧ (∀ k, k < 3 → (l.assembly k).length = 15 →
      let ws := recordOf (l.assembly k ++ [v])
      (k = 0 → l.push k v = { l with
        eng := { l.eng with queue := l.eng.queue ++ [queuedCmd ws l.core.seqM 0 none] }
        core := { l.core with
          asmM := []
          seqM := l.core.seqM + 1 } })
      ∧ (k = 1 → l.push k v = { l with
        queueA := l.queueA ++ [queuedCmd ws l.core.seqA 0 (some (kindEng (ws[0].toNat % 256)))]
        core := { l.core with
          asmA := []
          seqA := l.core.seqA + 1 } })
      ∧ (k = 2 → l.push k v = { l with
        queueE := l.queueE ++ [queuedCmd ws l.core.seqE 0 (some 2)]
        core := { l.core with
          asmE := []
          seqE := l.core.seqE + 1 } })))
  ∧ (∀ l : Slot, (∀ k : Fin 4, l.pushWaits (12 + k.val) = true ↔ 16 ≤ (l.core.xo[k]).length)
    ∧ (l.pushWaits 0 = true ↔ l.core.asmM.length = 15 ∧ 64 ≤ l.eng.queue.length)
    ∧ (l.pushWaits 1 = true ↔ l.core.asmA.length = 15
      ∧ 64 ≤ l.queueA.length + l.array.toList.length + l.chain.cmd.toList.length)
    ∧ (l.pushWaits 2 = true ↔ l.core.asmE.length = 15 ∧ 64 ≤ l.queueE.length + (l.channels.filterMap (·.cmd)).length))

/-- R89, R90, R112, R115, R117. The model's own: a write of `trapcause` keeps the bits of R115, and `slipwin` takes its low nine bits, clamped
(log 7). -/
def Obligations.SystemRegisters : Prop :=
  ∀ (s : State) (d : SReg) (sys : Fin 1024) (g : Bool) (lat : Fin 8),
    let v := s.rs 1 d
    let user : Bool := sys.val ≤ 4 || sys.val == 13 || sys.val == 14 || sys.val == 15
    (s.IssuesS (.sysr d sys g lat) →
      ((s.core.sup = true ∨ user = true) →
        exec (.sysr d sys g lat) s = .next (s.lands (.sysr d sys g lat) (.s d) lat (s.opened.sysReg sys.val)))
      ∧ (s.core.sup = false → user = false →
        exec (.sysr d sys g lat) s = .next (s.opened.syncTrap .s 0x04 (BitVec.ofNat 64 sys.val))))
    ∧ s.sysReg 0 = BitVec.ofNat 64 s.stc ∧ s.sysReg 3 = s.core.age ∧ s.sysReg 14 = s.core.deadline
    ∧ s.sysReg 15 = s.core.tstatus
    ∧ (s.IssuesS (.sysw d sys g) →
      (s.core.sup = true → exec (.sysw d sys g) s = .next ((s.opened.setCore (·.writeSys sys.val v)).finishS 1))
      ∧ (s.core.sup = false →
        exec (.sysw d sys g) s = .next (s.opened.syncTrap .s 0x04 (BitVec.ofNat 64 sys.val))))
    ∧ (∀ c : Core, (c.writeSys 6 v).trapval = v ∧ (c.writeSys 14 v).deadline = v
        ∧ (c.writeSys 8 v).trappcM = v.truncate 32 ∧ (c.writeSys 9 v).trappcA = v.truncate 32
        ∧ (c.writeSys 10 v).trappcY = v.truncate 32 ∧ (c.writeSys 5 v).trapcause = v &&& 0x1F0FFF)
    ∧ (s.IssuesS (.syswTrappcS d g) →
      (s.core.sup = true → ∃ t, exec (.syswTrappcS d g) s = .next t
        ∧ t.core.trappcS = v.truncate 32 ∧ t.core.trappcM = v.truncate 32 ∧ t.core.trappcA = v.truncate 32
        ∧ t.core.trappcY = v.truncate 32 ∧ t.core.user.pcS = v.toNat % 2 ^ 32 ∧ t.core.user.boq = [] ∧ t.core.user.lagM = 0 ∧ t.core.user.lagA = 0
        ∧ t.core.user.lagY = 0)
      ∧ (s.core.sup = false → exec (.syswTrappcS d g) s = .next (s.opened.syncTrap .s 0x04 7)))
    ∧ (s.IssuesS (.syswSlipwin d g) → ∃ t, exec (.syswSlipwin d g) s = .next t
        ∧ t.core.slipwin.toNat = max 1 (min 256 (v.toNat % 512)) ∧ t.core.dzt = s.core.dzt)
    ∧ (s.IssuesS (.syswTstatus d g) → ∃ t, exec (.syswTstatus d g) s = .next t
        ∧ t.core.dzt = v.getLsbD 7 ∧ t.core.commit = s.core.commit ∧ t.core.jnl = s.core.jnl
        ∧ t.core.diagen = s.core.diagen ∧ t.core.sup = s.core.sup ∧ t.core.pend = s.core.pend)

/-- R111, R114, R115: trap entry, where no prefix is issuing with the trapping word. That the supervisor path starts empty, with a branch-outcome
queue of its own (firm), is the model's (log 15). -/
def Obligations.TakingATrap : Prop :=
  ∀ (s : State) (h : Head) (cause : Nat) (v : Word) (sw : Nat), s.core.sup = false → s.core.arm = none →
    let t := s.syncTrap h cause v sw
    let p := s.core.user
    t.core.sup = true ∧ t.core.trapval = v
    ∧ t.core.trapcause = BitVec.ofNat 64 (sw % 32 * 2 ^ 16 + headCode h * 2 ^ 8 + cause % 256)
    ∧ t.core.trappcS = BitVec.ofNat 32 (if h = .s then p.pcS else s.nextS s.cur)
    ∧ t.core.trappcM = BitVec.ofNat 32 (p.place .m) ∧ t.core.trappcA = BitVec.ofNat 32 (p.place .a)
    ∧ t.core.trappcY = BitVec.ofNat 32 (p.place .y)
    ∧ t.core.firm = {} ∧ t.core.user = p ∧ t.core.flights = [] ∧ t.core.bank = none
    ∧ (let u := s.grantBank s.cur
      t.core.sreg = u.core.landAll.sreg ∧ t.core.supBank = u.core.landAll.supBank ∧ t.core.freg = u.core.landAll.freg
      ∧ t.core.preg = u.core.landAll.preg ∧ t.me.store = u.me.store ∧ t.me.badWords = u.me.badWords)
    ∧ t.core.asmM = s.core.asmM ∧ t.core.asmA = s.core.asmA ∧ t.core.asmE = s.core.asmE
    ∧ t.me.eng = s.me.eng ∧ t.me.queueA = s.me.queueA ∧ t.me.queueE = s.me.queueE ∧ t.mem = s.mem
    ∧ t.core.ereg = s.core.ereg ∧ t.core.hreg = s.core.hreg ∧ t.core.bdreg = s.core.bdreg
    ∧ t.core.spill = s.core.spill ∧ t.core.xi = s.core.xi ∧ t.core.xo = s.core.xo

/-- R118. -/
def Obligations.DoubleTrap : Prop :=
  ∀ (s : State) (h : Head) (cause : Nat) (v : Word) (sw : Nat) (k : Task), s.core.sup = true → s.me.task = some k →
    s.dies.length = 4 → s.cur < 4096 →
    let t := s.syncTrap h cause v sw
    t.me.stage = .free ∧ t.me.task = none
    ∧ (t.die (dieOf (nodeOf s.cur))).alerts = (s.die (dieOf (nodeOf s.cur))).alerts ++ [(s.cur, cause)]

/-- R91, R92, R117. -/
def Obligations.SoftwareTrapAndReturn : Prop :=
  ∀ (s : State) (code : Fin 32) (a : SReg) (g : Bool),
    (s.IssuesS (.trap code a g) → s.core.sup = false → ∃ t, exec (.trap code a g) s = .next t
      ∧ t.core.sup = true ∧ t.core.trapval = s.rs 1 a
      ∧ t.core.trapcause = BitVec.ofNat 64 (code.val * 2 ^ 16 + 0x08)
      ∧ t.core.trappcS = BitVec.ofNat 32 (s.core.path.pcS + 4))
    ∧ (s.IssuesS (.tret g) → s.core.sup = true → ∃ t, exec (.tret g) s = .next t
      ∧ t.core.sup = false ∧ t.core.user.pcS = s.core.user.pcS ∧ t.core.user.place .m = s.core.trappcM.toNat
      ∧ t.core.user.place .a = s.core.trappcA.toNat ∧ t.core.user.place .y = s.core.trappcY.toNat
      ∧ t.me.gateHeld = s.gateDue s.cur ∧ t.mem = s.mem)
    ∧ (s.IssuesS (.tret g) → s.core.sup = false →
      ∃ w, exec (.tret g) s = .next (s.opened.syncTrap .s 0x04 (BitVec.ofNat 64 w))
        ∧ (∀ w', s.fetch s.cur s.core.path.pcS = .word w' → w = w'))

/-- R25 to R29, R35. The model's own: a unit stands in the slip window at its target (log 16, log 65), and DIAG under the enable only goes
by (log 18). -/
def Obligations.PrefixAndDiag : Prop :=
  (∀ (s : State) (ftz sat : Bool) (rm tag : Fin 8) (dist : Nat) (i : Instr) (r u f : Bool),
    let h : Head := if tag = 0 then .s else if tag = 1 then .m else .a
    let pc := s.core.path.pc h
    s.scan tag.val ((s.arena s.cur).2 / 4) (pc + 4) 1 = .target dist i → accepts i = some (r, u, f) →
    ((rm ≠ 0 → r = true) ∧ (sat = true → u = true) ∧ (ftz = true → f = true) → h = .s → s.core.slipOk 1 = true →
      ∃ t, exec (.pfx ftz sat rm tag) s = .next t ∧ t.core.path.pfx = some ⟨rm.val, sat, ftz, pc, pc + 4 * dist⟩
        ∧ t.core.path.pcS = pc + 4 ∧ t.core.arm = s.core.arm ∧ t.core.flights = s.core.flights ∧ t.core.cycle = s.core.cycle)
    ∧ ((rm ≠ 0 → r = true) ∧ (sat = true → u = true) ∧ (ftz = true → f = true) → h = .s → s.core.slipOk 1 = false →
      exec (.pfx ftz sat rm tag) s = .next s)
    ∧ ((rm ≠ 0 → r = true) ∧ (sat = true → u = true) ∧ (ftz = true → f = true) → h ≠ .s → dist < s.core.path.lag h →
      ∃ t, exec (.pfx ftz sat rm tag) s = .next t ∧ t.core.arm = some ⟨h, rm.val, sat, ftz, pc, dist⟩
        ∧ t.core.path.pc h = pc + 4 * dist ∧ t.core.path.pcS = s.core.path.pcS)
    ∧ ((rm ≠ 0 → r = true) ∧ (sat = true → u = true) ∧ (ftz = true → f = true) → h ≠ .s → s.core.path.lag h ≤ dist →
      exec (.pfx ftz sat rm tag) s = .next s)
    ∧ (¬ ((rm ≠ 0 → r = true) ∧ (sat = true → u = true) ∧ (ftz = true → f = true)) →
      ∃ w, exec (.pfx ftz sat rm tag) s = .next (s.illegal h w 0)
        ∧ ∀ w', s.fetch s.cur pc = .word w' → w = w'))
  ∧ (∀ (s : State) (ftz sat : Bool) (rm tag : Fin 8) (w off : Nat),
    let h : Head := if tag = 0 then .s else if tag = 1 then .m else .a
    s.scan tag.val ((s.arena s.cur).2 / 4) (s.core.path.pc h + 4) 1 = .orphan w off →
    exec (.pfx ftz sat rm tag) s = .next (s.syncTrap h 0x02 (BitVec.ofNat 64 (w % 2 ^ 32 + off * 2 ^ 32))))
  ∧ (∀ (c : Core) (q : Prefix), c.path.pfx = some q →
    c.mods = if q.goal = c.path.pcS then ⟨RMode.ofCode q.rm, q.sat, q.ftz⟩ else {})
  ∧ (∀ (s : State) (q : Prefix), s.core.user.pfx = some q → s.nextS s.cur = q.addr)
  ∧ (∀ (s : State) (g : Bool), s.IssuesX .y (.diag g) →
    (s.core.diagen = true → exec (.diag g) s = .next (s.finishX .y 1))
    ∧ (s.core.diagen = false → ∃ w, exec (.diag g) s = .next (s.illegal .y w 0)))

/-- R22. CALL and RET record that they were not taken (R74); DIAG traps whatever its guard (R35); S goes past a TEND or TYLD with Y
(R247). -/
def Obligations.GuardedOff : Prop :=
  (∀ (s : State) (i : Instr), i.head? = some .s → i.guard = true →
    (∀ d a imm g lat, i ≠ .call d a imm g lat) → (∀ a g, i ≠ .ret a g) →
    s.SkipsS i → exec i s = .next (s.opened.finishS (words i)))
  ∧ (∀ (s : State) (i : Instr) (h : Head), i.head? = some h → h ≠ .s → i.guard = true → (∀ g, i ≠ .diag g) →
    (∀ a g, i ≠ .tend a g) → (∀ g, i ≠ .tyld g) →
    s.SkipsX h i → exec i s = .next (s.finishX h (words i)))

/-- R52, R105. A read inside the window is Config's free value, of which nothing is known. -/
def Obligations.LatencyWindow : Prop :=
  (∀ (s : State) (k : Nat) (r : RegId), s.readReg k r =
    if s.core.inWindow r = true then Config.freeWord (s.draws + k) else s.core.getReg r)
  ∧ (∀ (c : Core) (r : RegId) (v : Word) (cls : Nat), r.wired = false →
      (c.land r v cls).inWindow r = true ∧ (c.land r v cls).unlanded r = true
      ∧ (c.land r v cls).getReg r = c.getReg r)
  ∧ (∀ (c : Core) (r : RegId), (∀ f ∈ c.flights, f.reg = r → f.start + f.cls ≤ c.cycle) → c.closeWindows.inWindow r = false)
  ∧ (∀ (c : Core) (f : Flight), c.flights = [f] → f.landed = false → f.reg.wired = false → f.start + f.cls ≤ c.cycle →
      (∀ n, f.reg = .p n → f.val = 0 ∨ f.val = 1) → c.closeWindows.getReg f.reg = f.val)
  ∧ (∀ (s : State) (k : Nat) (f : Flight), s.core.flights[k]? = some f → f.landed = false → f.wait = false →
      ∃ t, exec (.resultLand k) s = .next t ∧ t.core.sreg = (s.core.setReg f.reg f.val).sreg
        ∧ t.core.freg = (s.core.setReg f.reg f.val).freg ∧ t.core.preg = (s.core.setReg f.reg f.val).preg
        ∧ t.core.supBank = (s.core.setReg f.reg f.val).supBank
        ∧ t.core.flights[k]? = some { f with landed := true } ∧ t.mem = s.mem)
  ∧ (∀ (s : State) (k : Nat) (f : Flight), s.core.flights[k]? = some f → f.landed = true →
      ∃ t, exec (.resultLand k) s = .next t ∧ t.core = s.core ∧ t.mem = s.mem)
  ∧ (∀ c : Core, let d : Core := { c with flights := c.flights.filter fun f => !f.landed }
      c.closeWindows.sreg = d.closeWindows.sreg ∧ c.closeWindows.supBank = d.closeWindows.supBank
      ∧ c.closeWindows.freg = d.closeWindows.freg ∧ c.closeWindows.preg = d.closeWindows.preg
      ∧ c.landAll.sreg = d.landAll.sreg ∧ c.landAll.supBank = d.landAll.supBank
      ∧ c.landAll.freg = d.landAll.freg ∧ c.landAll.preg = d.landAll.preg)

/-- The frame of the instructions with a register result. The trap of a division under DZT is left out by its hypothesis. -/
def Obligations.ResultFrame : Prop :=
  ∀ (s t : State) (i : Instr), i.resultOnly = true → (i.divides = true → s.core.dzt = false) → exec i s = .next t →
    t = s ∨
    (t.mem = s.mem ∧ t.me.store = s.me.store ∧ t.me.eng = s.me.eng ∧ t.me.queueA = s.me.queueA ∧ t.me.queueE = s.me.queueE
    ∧ t.records = s.records ∧ t.barriers = s.barriers ∧ t.locks = s.locks
    ∧ t.core.sreg = s.opened.core.sreg ∧ t.core.supBank = s.opened.core.supBank ∧ t.core.freg = s.opened.core.freg
    ∧ t.core.preg = s.opened.core.preg
    ∧ (∀ f ∈ t.core.flights, f ∈ s.opened.core.flights ∨ some f.reg = i.dest)
    ∧ SameSpecial s.core t.core ∧ t.core.user.boq = s.core.user.boq ∧ t.core.firm.boq = s.core.firm.boq)

/-- R164. What patches, links and rounding bits write is stated by RecordEdits. That a word reads its template with the journal applied, and
restarts its task as R335 says where that cannot be read, is the model's reading (log 84). -/
def Obligations.StreamWordsQueueTheirCommands : Prop :=
  ∀ (s : State) (d : HReg) (a b : SReg) (hb : HReg) (imm : BitVec 32) (g : Bool),
    let at' := s.core.getS a
    let x := s.core.getS b
    let link := s.core.hreg[hb]
    let good : Prop := at'.toNat % 64 = 0 ∧ at'.toNat + 128 ≤ 524288
    let queues (i : Instr) (edit : Vector Word 16 → Vector Word 16) : Prop := s.IssuesX .m i →
      (good → s.me.eng.queue.length < 64 → s.me.tileUnread = true → s.core.sup = false →
        exec i s = .next (s.restartUnread s.cur))
      ∧ (good → s.me.eng.queue.length < 64 → s.me.tileUnread = false → ∃ t, exec i s = .next t
        ∧ t.me.eng.queue = s.me.eng.queue ++ [queuedCmd (edit (s.me.recordAt at'.toNat)) s.core.seqM 1 none]
        ∧ t.core.seqM = s.core.seqM + 1 ∧ t.core.hreg = s.core.hreg.set d (BitVec.ofNat 32 (2 ^ 31 + s.core.seqM.toNat))
        ∧ t.mem = s.mem ∧ t.me.store = s.me.store)
      ∧ (¬ good → exec i s = .next (s.syncTrap .m 0x06 at'))
      ∧ (good → 64 ≤ s.me.eng.queue.length → exec i s = .next s)
    queues (.saff d a b g) (fun v => applyPatch x (setKind 0x01 v))
    ∧ queues (.saffw d a b g) (fun v => applyPatch x (setKind 0x02 v))
    ∧ queues (.sind d a hb g) (fun v => applyLink link (setKind 0x03 v))
    ∧ queues (.sindw d a hb g) (fun v => applyLink link (setKind 0x04 v))
    ∧ queues (.srec d a b g) (fun v => applyPatch x (setKind 0x05 v))
    ∧ queues (.sfill d a b imm g) (fun v => setAux0 (BitVec.ofNat 64 imm.toNat) (applyPatch x (setKind 0x06 v)))
    ∧ queues (.smc d a b g) (fun v => applyPatch x (setKind 0x07 v))
    ∧ queues (.sgrow d a hb g) (fun v => applyLink link (setKind 0x08 v))
    ∧ queues (.sred d a b g) (fun v => applyMods s.core.arm (applyPatch x (setKind 0x09 v)))
    ∧ queues (.satm d a b g) (fun v => applyMods s.core.arm (applyPatch x (setKind 0x0A v)))
    ∧ queues (.scpy d a b g) (fun v => applyPatch x (setKind 0x0B v))
    ∧ queues (.sbar d a b g) (fun v => applyPatch x (setKind 0x0C v))
    ∧ queues (.stap d a hb g) (fun v => applyLink link (setKind 0x0D v))
    ∧ queues (.sfilt d a b g) (fun v => applyPatch x (setKind 0x0E v))
    ∧ queues (.smeta d a b g) (fun v => applyPatch x (setKind 0x0F v))
    ∧ queues (.stok d a b imm g) (fun v => setAux1 (BitVec.ofNat 64 imm.toNat) (setAux0 x (setKind 0x10 v)))
    ∧ queues (.sdesc d a b g) (fun v => applyPatch x v)

/-- R164, word by word. -/
def Obligations.RecordEdits : Prop :=
  ∀ (v : Vector Word 16) (x : Word) (h : BitVec 32) (k : Nat), k < 256 →
    ((setKind k v)[0].toNat = v[0].toNat / 256 * 256 + k ∧ ∀ j : Fin 16, j ≠ 0 → (setKind k v)[j] = v[j])
    ∧ ((applyLink h v)[12].toNat = (if h.getLsbD 31 = true then 2 ^ 16 else 0) + h.toNat % 2 ^ 16
        ∧ (applyLink h v)[1].toNat / 4 ^ 11 % 4 = 2)
    ∧ (let p := v[0].toNat / 2 ^ 24 % 256
       let u := applyPatch x v
       (13 < p → u = v)
       ∧ (p ≤ 13 → u[1].toNat / 4 ^ p % 4 = 2 ∧ ∀ q, q ≤ 13 → q ≠ p → u[1].toNat / 4 ^ q % 4 = v[1].toNat / 4 ^ q % 4)
       ∧ (p = 0 → u[2].toNat = v[2].toNat / 2 ^ 32 * 2 ^ 32 + x.toNat % 2 ^ 32)
       ∧ (p = 1 → u[2].toNat = v[2].toNat % 2 ^ 32 + x.toNat % 2 ^ 32 * 2 ^ 32)
       ∧ (p = 2 → u[3] = x)
       ∧ (p = 3 → u[4].toNat = v[4].toNat / 2 ^ 48 * 2 ^ 48 + x.toNat % 2 ^ 48)
       ∧ (p = 4 → u[5].toNat = v[5].toNat / 2 ^ 48 * 2 ^ 48 + x.toNat % 2 ^ 48)
       ∧ (p = 5 → u[6].toNat = v[6].toNat / 2 ^ 32 * 2 ^ 32 + x.toNat % 2 ^ 32)
       ∧ (p = 6 → u[7].toNat = v[7].toNat / 2 ^ 32 * 2 ^ 32 + x.toNat % 2 ^ 32)
       ∧ (p = 7 → u[8].toNat = v[8].toNat / 2 ^ 32 * 2 ^ 32 + x.toNat % 2 ^ 32)
       ∧ (p = 8 → u[9].toNat = v[9].toNat / 2 ^ 32 * 2 ^ 32 + x.toNat % 2 ^ 32)
       ∧ (p = 9 → u[10] = v[10])
       ∧ (p = 10 → u[11] = x) ∧ (p = 11 → u[12] = x) ∧ (p = 12 → u[13] = x) ∧ (p = 13 → u[14] = x))
    ∧ (∀ rm sat ftz dist addr, rm < 8 → (applyMods (some ⟨.m, rm, sat, ftz, addr, dist⟩) v)[10].toNat / 2 ^ 24 % 32
        = (if ftz = true then 16 else 0) + (if sat = true then 8 else 0) + rm)
    ∧ (applyMods none v)[10].toNat / 2 ^ 24 % 32 = 0
    ∧ (∀ (seq : BitVec 16) (head : Nat), (queuedCmd v seq head none).w 0 = v[0].toNat % 2 ^ 48 + seq.toNat * 2 ^ 48
        ∧ (queuedCmd v seq head none).w 15 = seq.toNat * 2 ^ 46 ∧ (queuedCmd v seq head none).seq = seq.toNat
        ∧ ∀ j : Fin 16, j ≠ 0 → j ≠ 15 → (queuedCmd v seq head none).raw[j] = v[j])

/-- R178, R179. -/
def Obligations.Windrows : Prop :=
  (∀ (s : State) (d : Sys2Proof.Windrow) (a : SReg) (cnt : Fin 256) (sz : Fin 2048) (g : Bool),
    s.IssuesX .m (.swinDecl d a cnt sz g) →
    let base := s.core.getS a
    let area := 64 * sz.val * (cnt.val + 1)
    let good : Prop := base.toNat % 64 = 0 ∧ base.toNat + area ≤ 524288
      ∧ ∀ e ∈ s.core.windrows, e.1 ≠ d.val →
        base.toNat + area ≤ e.2.base ∨ e.2.base + e.2.size * e.2.count ≤ base.toNat
    (good → s.me.windrowNamed d.val = false → ∃ t, exec (.swinDecl d a cnt sz g) s = .next t
      ∧ t.core.windrow d.val = some ⟨base.toNat, 64 * sz.val, cnt.val + 1, cnt.val + 1, 0, 0, 0, 0, 0⟩
      ∧ ∀ k, k ≠ d.val → t.core.windrow k = s.core.windrow k)
    ∧ (good → s.me.windrowNamed d.val = true → exec (.swinDecl d a cnt sz g) s = .next s)
    ∧ (¬ good → exec (.swinDecl d a cnt sz g) s = .next (s.syncTrap .m 0x06 base)))
  ∧ (∀ (s : State) (d : Sys2Proof.Windrow) (cnt : Fin 256) (g : Bool),
    let n := cnt.val + 1
    (s.IssuesX .m (.swinTake d cnt g) →
      (∀ w, s.core.windrow d.val = some w → n ≤ w.filled → ∃ t, exec (.swinTake d cnt g) s = .next t
        ∧ t.core.windrow d.val = some { w with filled := w.filled - n, free := w.free + n, rp := (w.rp + n) % w.count }
        ∧ ∀ k, k ≠ d.val → t.core.windrow k = s.core.windrow k)
      ∧ (∀ w, s.core.windrow d.val = some w → w.filled < n → exec (.swinTake d cnt g) s = .next s)
      ∧ (s.core.windrow d.val = none →
        exec (.swinTake d cnt g) s = .next (s.syncTrap .m 0x06 (BitVec.ofNat 64 d.val))))
    ∧ (s.IssuesX .m (.swinGive d cnt g) →
      (∀ w, s.core.windrow d.val = some w → n ≤ w.free → ∃ t, exec (.swinGive d cnt g) s = .next t
        ∧ t.core.windrow d.val = some { w with free := w.free - n, filled := w.filled + n, wp := (w.wp + n) % w.count }
        ∧ ∀ k, k ≠ d.val → t.core.windrow k = s.core.windrow k)
      ∧ (∀ w, s.core.windrow d.val = some w → w.free < n → exec (.swinGive d cnt g) s = .next s)
      ∧ (s.core.windrow d.val = none →
        exec (.swinGive d cnt g) s = .next (s.syncTrap .m 0x06 (BitVec.ofNat 64 d.val)))))

/-- R180, R181. That the answer about a windrow that is not declared keeps its TYPE and its id, 2^62 + w * 2^58, is the model's choice (log 100). -/
def Obligations.ClosingAndQuerying : Prop :=
  (∀ (s : State) (d : HReg) (w : Sys2Proof.Windrow) (g : Bool),
    let h := s.core.hreg[d]
    let ord := h.toNat % 2 ^ 16
    let unknown : Word := BitVec.ofNat 64 (ord * 2 ^ 46 + 7 * 2 ^ 32)
    let mark (c : Cmd) : Cmd := if c.seq = ord then { c with closing := true } else c
    let posts (v : Word) : State := (s.setCore fun c => { c with sts := c.sts ++ [v] }).finishX .m 1
    (s.IssuesX .m (.sclose d g) →
      (h.getLsbD 31 = false → exec (.sclose d g) s = .next (s.finishX .m 1))
      ∧ (h.getLsbD 31 = true → exec (.sclose d g) s = .next ((s.setMe fun l => { l with eng := { l.eng with
        queue := l.eng.queue.map mark
        flying := l.eng.flying.map mark } }).finishX .m 1)))
    ∧ (s.IssuesX .m (.sqryCommand d g) →
      (s.core.sts.length < 32 →
        (h.getLsbD 31 = false → exec (.sqryCommand d g) s = .next (posts unknown))
        ∧ (h.getLsbD 31 = true →
          (∀ c, ((s.me.eng.queue ++ s.me.eng.flying).find? fun c => c.seq == ord) = some c →
            exec (.sqryCommand d g) s = .next (posts c.status))
          ∧ (((s.me.eng.queue ++ s.me.eng.flying).find? fun c => c.seq == ord) = none →
            (∀ k v, (s.me.eng.retired.find? fun x => x.1 == ord) = some (k, v) → exec (.sqryCommand d g) s = .next (posts v))
            ∧ ((s.me.eng.retired.find? fun x => x.1 == ord) = none → exec (.sqryCommand d g) s = .next (posts unknown)))))
      ∧ (32 ≤ s.core.sts.length → exec (.sqryCommand d g) s = .next s))
    ∧ (s.IssuesX .m (.sqryWindrow w g) →
      (s.core.sts.length < 32 →
        exec (.sqryWindrow w g) s = .next (posts (windrowStatus w.val (s.core.windrow w.val))))
      ∧ (32 ≤ s.core.sts.length → exec (.sqryWindrow w g) s = .next s)))
  ∧ (∀ (w : Sys2Proof.Windrow) (x : Sys2Proof.Machine.Windrow), x.free < 512 → x.filled < 512 → x.rp < 256 → x.wp < 256 →
      (windrowStatus w.val (some x)).toNat = 2 ^ 62 + w.val * 2 ^ 58 + x.free * 2 ^ 49 + x.filled * 2 ^ 40 + x.rp * 2 ^ 32
        + x.wp * 2 ^ 24
      ∧ (windrowStatus w.val none).toNat = 2 ^ 62 + w.val * 2 ^ 58)

/-- R217 to R219: the record is that of its fields; the checks are those of R218 and R219. That a queue's 64 take in the commands in
execution is the model's reading (log 80), and so is the restart of the task of an ENCF whose journal cannot be read (log 84). -/
def Obligations.EngineWordsQueueTheirCommands : Prop :=
  ∀ (s : State) (a b : SReg) (imm : BitVec 32) (k g : Bool) (ch : Fin 4),
    let x := s.core.getS a
    let masks := s.core.getS b
    let tile : Option (Nat × Word) := if x.toNat % 64 = 0 ∧ x.toNat + 128 ≤ 524288 then none else some (0x06, x)
    let w0 := s.word s.cur x.toNat
    let w1 := s.word s.cur (x.toNat + 8)
    let loadA := s.me.queueA.length + s.me.array.toList.length + s.me.chain.cmd.toList.length
    let loadE := s.me.queueE.length + (s.me.channels.filterMap (·.cmd)).length
    let queuesA (i : Instr) (kind : Nat) (check : Option (Nat × Word)) (fields : List (Nat × Word)) : Prop :=
      s.IssuesX .a i →
      (check = none → loadA < 64 → ∃ t, exec i s = .next t
        ∧ t.me.queueA = s.me.queueA ++ [queuedCmd (engineRecord kind masks fields) s.core.seqA 2 (some (kindEng kind))]
        ∧ t.core.seqA = s.core.seqA + 1 ∧ t.me.queueE = s.me.queueE ∧ t.mem = s.mem ∧ t.me.store = s.me.store)
      ∧ (∀ c v, check = some (c, v) → exec i s = .next (s.syncTrap .a c v))
      ∧ (check = none → 64 ≤ loadA → exec i s = .next s)
    let queuesE (i : Instr) (kind : Nat) (check : Option (Nat × Word)) (fields : List (Nat × Word)) : Prop :=
      s.IssuesX .a i →
      (check = none → loadE < 64 → kind = 0x81 → s.me.tileUnread = true → s.core.sup = false →
        exec i s = .next (s.restartUnread s.cur))
      ∧ (check = none → loadE < 64 → (kind = 0x81 → s.me.tileUnread = false) → ∃ t, exec i s = .next t
        ∧ t.me.queueE = s.me.queueE ++ [queuedCmd (engineRecord kind masks fields) s.core.seqE 2 (some 2)]
        ∧ t.core.seqE = s.core.seqE + 1 ∧ t.me.queueA = s.me.queueA ∧ t.mem = s.mem ∧ t.me.store = s.me.store)
      ∧ (∀ c v, check = some (c, v) → exec i s = .next (s.syncTrap .a c v))
      ∧ (check = none → 64 ≤ loadE → exec i s = .next s)
    let o := x.toNat + imm.toNat
    queuesA (.acfg a b imm g) 0x40
      (if o % 16 ≠ 0 then some (0x06, BitVec.ofNat 64 o)
        else if s.core.arenabound.toNat < o + 16 then some (0x03, BitVec.ofNat 64 o)
        else (s.blockFault s.cur o).map fun c => (0x07, BitVec.ofNat 64 (c % 256 + o % 2 ^ 32 * 2 ^ 32)))
      [(10, BitVec.ofNat 64 o)]
    ∧ queuesA (.arun b g) 0x41 none []
    ∧ queuesA (.adrn b g) 0x42 none []
    ∧ queuesA (.aqui k b g) 0x43 none [(10, if k = true then 1 else 0)]
    ∧ queuesA (.amrk a b g) 0x44 (if x.toNat < 2 ^ 48 then none else some (0x06, x)) [(10, x)]
    ∧ queuesA (.aprt a b g) 0x45 (if x.toNat < 128 then none else some (0x06, x)) [(10, x)]
    ∧ queuesA (.chord a b imm g) 0x48
      (if x.toNat % 16 ≠ 0 then some (0x06, x)
        else if s.core.arenabound.toNat < x.toNat + 16 * (imm.toNat % 64) then some (0x03, x) else none)
      [(10, x), (11, BitVec.ofNat 64 imm.toNat)]
    ∧ queuesA (.chrun a b g) 0x49
      (if x.toNat < 2 ^ 17 ∧ x.toNat / 2 ^ 13 % 8 = 0 ∧ x.toNat / 2 ^ 5 % 8 = 0 then none else some (0x06, x))
      [(5, bondDim s.core 0), (6, bondDim s.core 1), (7, bondDim s.core 2), (8, bondDim s.core 3), (10, runAux s.core a)]
    ∧ queuesA (.chsv a b g) 0x4A tile [(10, x)]
    ∧ queuesA (.chld a b g) 0x4B tile [(10, x)]
    ∧ queuesE (.enco ch a b g) 0x80 tile [(10, BitVec.ofNat 64 ch.val), (11, x)]
    ∧ queuesE (.encf ch a b g) 0x81 tile
      ((if w0 = 0 then [] else [(2, w0)]) ++ (if w1.getLsbD 63 = true then [(12, w1)] else [])
        ++ [(10, BitVec.ofNat 64 ch.val), (11, x)])
    ∧ queuesE (.encc ch b g) 0x82 none [(10, BitVec.ofNat 64 ch.val)]

/-- R229, with the trap of R218 for a value outside its range and the copy that a CHRUN takes (R219). -/
def Obligations.BondRegisters : Prop :=
  (∀ (s : State) (d : BdReg) (a : SReg) (g : Bool), s.IssuesX .a (.chbd d a g) →
    let v := s.core.getS a
    (1 ≤ v.toNat → v.toNat ≤ 1024 → ∃ t, exec (.chbd d a g) s = .next t
      ∧ (t.core.bdreg[d]).toNat = v.toNat % 2 ^ 11 ∧ (∀ e : BdReg, e ≠ d → t.core.bdreg[e] = s.core.bdreg[e])
      ∧ t.me.queueA = s.me.queueA ∧ t.core.sreg = s.core.sreg ∧ t.mem = s.mem)
    ∧ ((v.toNat < 1 ∨ 1024 < v.toNat) → exec (.chbd d a g) s = .next (s.syncTrap .a 0x06 v)))
  ∧ (∀ f : Fields, f.ls = 0 → f.tag = 2 → f.op = 0x88 → 8 ≤ f.d → ∃ e, decodeFields f = .error e)
  ∧ (∀ (c : Core) (k : Fin 4), (∀ j : BdReg, (c.bdreg[j]).toNat ≤ 1024) →
      (bondDim c k).toNat = (c.bdreg[2 * k.val]'(by omega)).toNat + (c.bdreg[2 * k.val + 1]'(by omega)).toNat * 2 ^ 16)

/-- R239, R240. That a change which would come ahead of one already made in the ac takes place in the next is the model's reading
(log 122). -/
def Obligations.CountedEvents : Prop :=
  (∀ (s : State) (d : EvReg) (a : SReg) (g : Bool),
    let n := if a = 0 then 1 else (s.core.getS a).toNat % 2 ^ 16
    let m := if a = 0 then 0 else (s.core.getS a).toNat % 2 ^ 16
    (s.IssuesX .y (.evsig d a g) → s.core.countedNow (s.acStart s.cur) (2 ^ d.val) = true → exec (.evsig d a g) s = .next s)
    ∧ (s.IssuesX .y (.evsig d a g) → s.core.countedNow (s.acStart s.cur) (2 ^ d.val) = false → ∃ t, exec (.evsig d a g) s = .next t
      ∧ (t.core.ereg[d]).toNat = min 0xFFFF ((s.core.ereg[d]).toNat + n)
      ∧ ∀ e : EvReg, e ≠ d → t.core.ereg[e] = s.core.ereg[e])
    ∧ (s.IssuesX .y (.evclr d a g) → s.core.takenNow (s.acStart s.cur) d.val = true → exec (.evclr d a g) s = .next s)
    ∧ (s.IssuesX .y (.evclr d a g) → s.core.takenNow (s.acStart s.cur) d.val = false → ∃ t, exec (.evclr d a g) s = .next t
      ∧ (t.core.ereg[d]).toNat = m ∧ ∀ e : EvReg, e ≠ d → t.core.ereg[e] = s.core.ereg[e])
    ∧ (s.IssuesX .y (.evwait d a g) →
      (n = 0 → exec (.evwait d a g) s = .next (s.finishX .y 1))
      ∧ (n ≠ 0 → s.core.takenNow (s.acStart s.cur) d.val = true → exec (.evwait d a g) s = .next s)
      ∧ (n ≠ 0 → s.core.takenNow (s.acStart s.cur) d.val = false → ∃ t, exec (.evwait d a g) s = .next t ∧ t.core.ywait = some (.event d n) ∧ t.core.ereg = s.core.ereg
        ∧ t.core.path = s.core.path)))
  ∧ (∀ (s : State) (e : EvReg) (n : Nat), s.core.ywait = some (.event e n) → s.yReady = true →
    n ≤ (s.core.ereg[e]).toNat → ∃ t, exec .evwaitComplete s = .next t ∧ t.core.ywait = none
      ∧ t.core.takenNow (s.acStart s.cur) e.val = true
      ∧ (t.core.ereg[e]).toNat = (s.core.ereg[e]).toNat - n ∧ (∀ k : EvReg, k ≠ e → t.core.ereg[k] = s.core.ereg[k])
      ∧ t.core.path = s.core.path.passX .y 1)
  ∧ (∀ (s : State) (e : EvReg) (n : Nat), s.core.ywait = some (.event e n) → (s.core.ereg[e]).toNat < n →
    exec .evwaitComplete s = .next s)

/-- R241 to R245, R254, R257. That a waiter and a query see the arrivals of an ac only after it, and
that a BARI between them changes nothing of this, is the model's reading (log 103). -/
def Obligations.Barriers : Prop :=
  (∀ (s : State) (imm : BitVec 32) (g : Bool), s.IssuesX .y (.bari imm g) →
    let scope := imm.toNat / 2 ^ 29
    let bid := imm.toNat / 2 ^ 16 % 64
    let place := scopePlace scope (nodeOf s.cur)
    (bid < s.me.decl.granted scope → ∃ t, exec (.bari imm g) s = .next t
      ∧ t.barrier s.me.epoch scope place bid =
        (s.barrier s.me.epoch scope place bid).setCount (imm.toNat % 2 ^ 16))
    ∧ (s.me.decl.granted scope ≤ bid →
      exec (.bari imm g) s = .next (s.syncTrap .y 0x06 (BitVec.ofNat 64 imm.toNat))))
  ∧ (∀ (s : State) (a b : SReg) (k g : Bool),
    let ref := s.core.getS a
    let n := if b = 0 then 1 else (s.core.getS b).toNat % 2 ^ 16
    (s.IssuesX .y (.bara a b g) → s.refOk ref = true → n ≠ 0 → ∃ t, exec (.bara a b g) s = .next t
      ∧ (s.core.jnl = false → t.arrivals = s.arrivals ++
        [⟨s.me.epoch, refScope ref, scopePlace (refScope ref) (nodeOf s.cur), refBid ref, n⟩])
      ∧ (s.core.jnl = true → t.arrivals = s.arrivals ∧ t.me.deferred = s.me.deferred ++ [.arrive ref n]))
    ∧ (s.IssuesX .y (.bara a b g) → s.refOk ref = false → exec (.bara a b g) s = .next (s.syncTrap .y 0x06 ref))
    ∧ (s.IssuesX .y (.barq a g) → s.refOk ref = true → s.core.sts.length < 32 →
      ∃ t, exec (.barq a g) s = .next t ∧ t.core.sts = s.core.sts ++ [barrierAnswer ((s.refBarrier s.cur ref).seen (s.refAc s.cur ref))])
    ∧ (s.IssuesX .y (.barq a g) → s.refOk ref = false → exec (.barq a g) s = .next (s.syncTrap .y 0x06 ref))
    ∧ (s.IssuesX .y (.barw k a b g) → s.refOk ref = true → ∃ t, exec (.barw k a b g) s = .next t
      ∧ t.core.ywait = some (.barrier ref ((s.core.getS b).toNat % 2 ^ 16) k) ∧ t.core.path = s.core.path)
    ∧ (s.IssuesX .y (.barw k a b g) → s.refOk ref = false → exec (.barw k a b g) s = .next (s.syncTrap .y 0x06 ref)))
  ∧ (∀ (s : State) (ref : Word) (q : Nat) (chk : Bool), s.core.ywait = some (.barrier ref q chk) → s.yReady = true →
    let b := (s.refBarrier s.cur ref).seen (s.refAc s.cur ref)
    let d := (b.phase + 2 ^ 16 - q % 2 ^ 16) % 2 ^ 16
    (b.poison = true ∨ (1 ≤ d ∧ d ≤ 32767)) → (chk = true → s.core.sts.length < 32) →
    ∃ t, exec .barwComplete s = .next t ∧ t.core.ywait = none
      ∧ t.core.sts = s.core.sts ++ (if chk = true then [barrierAnswer b] else []))
  ∧ (∀ (s : State) (k : Nat) (x : Arrival), s.arrivals[k]? = some x →
    let b := s.barrier x.epoch x.scope x.place x.bid
    ∃ t, exec (.barrierArrival k) s = .next t ∧ t.arrivals = ldel k s.arrivals
      ∧ t.barrier x.epoch x.scope x.place x.bid = b.arriveIn (s.barrierAc x.scope x.place) x.weight)
  ∧ (∀ (b : Barrier) (n : Nat), (b.setCount n).count = n ∧ (b.setCount n).poison = false
    ∧ (b.setCount n).arrived = ({ b with count := n } : Barrier).complete.arrived
    ∧ (b.setCount n).phase = ({ b with count := n } : Barrier).complete.phase)
  ∧ (∀ (b : Barrier) (n m now : Nat), (∀ x, b.undo = some x → x.1 ≠ now) → b.spoilt ≠ some now →
    (((b.arriveIn now n).setCount m).poisoned now).phase = (b.setCount m).phase
    ∧ (((b.arriveIn now n).setCount m).poisoned now).arrived = (b.setCount m).arrived
    ∧ (((b.poisoned now).setCount m).arriveIn now n).phase = (b.setCount m).phase
    ∧ (((b.poisoned now).setCount m).arriveIn now n).arrived = (b.setCount m).arrived)
  ∧ (∀ (b : Barrier) (n now : Nat), (∀ x, b.undo = some x → x.1 ≠ now) → b.spoilt ≠ some now →
    b.seen now = b ∧ (b.arriveIn now n).phase = (b.arrive n).phase ∧ (b.arriveIn now n).arrived = (b.arrive n).arrived
    ∧ ((b.arriveIn now n).seen now).phase = b.phase ∧ ((b.arriveIn now n).seen now).arrived = b.arrived
    ∧ (∀ later, later ≠ now → (b.arriveIn now n).seen later = b.arriveIn now n)
    ∧ (b.arriveIn now n).poisoned now = { b with poison := true, undo := none, spoilt := some now })
  ∧ (∀ (b : Barrier) (n : Nat), (b.poison = true → b.arrive n = b)
    ∧ (b.poison = false → 0 < b.count → (b.arrive n).arrived < b.count
      ∧ (b.arrive n).arrived + (b.arrived + n) / b.count * b.count = b.arrived + n
      ∧ (b.arrive n).phase = (b.phase + (b.arrived + n) / b.count) % 2 ^ 16))

/-- R246. The model keeps one order of all accesses, so a fence has nothing further to wait for (spec/12). -/
def Obligations.FencesComplete : Prop :=
  ∀ (s : State) (scope : Fin 8) (g : Bool), s.core.bank = none →
    (s.IssuesX .y (.fence scope g) → exec (.fence scope g) s = .next (s.finishX .y 1))
    ∧ (s.IssuesX .y (.acq scope g) → exec (.acq scope g) s = .next (s.finishX .y 1))
    ∧ (s.IssuesX .y (.rel scope g) → exec (.rel scope g) s = .next (s.finishX .y 1))

/-- R250, R251, R254, R357. The answer of another package's queue is a free value (log 43); that a task restarts whose journal hides the packet
and cannot be read is the model's reading (log 84). -/
def Obligations.EnqueuePackets : Prop :=
  (∀ (s : State) (k : Bool) (a b : SReg) (g : Bool),
    let o := s.core.getS a
    let dest := s.core.getS b
    let inShare : Prop := o.toNat % 64 = 0 ∧ o.toNat + 64 ≤ 524288
    (s.IssuesX .y (.tenq k a b g) →
      (inShare → destOk dest = true → s.core.jnl = false →
        exec (.tenq k a b g) s = .next (s.setCore fun c => { c with ywait := some (.enqueue o.toNat dest k false) }))
      ∧ (inShare → destOk dest = true → s.core.jnl = true → s.me.tileUnread = true → s.core.sup = false →
        exec (.tenq k a b g) s = .next (s.restartUnread s.cur))
      ∧ (inShare → destOk dest = true → s.core.jnl = true → s.me.tileUnread = false →
        exec (.tenq k a b g) s = .next ((s.setMe (·.deferPacket o.toNat dest k false)).finishX .y 1))
      ∧ (¬ inShare → exec (.tenq k a b g) s = .next (s.syncTrap .y 0x06 o))
      ∧ (inShare → destOk dest = false → exec (.tenq k a b g) s = .next (s.syncTrap .y 0x06 dest)))
    ∧ (s.IssuesX .y (.tspwn k a g) →
      (inShare → s.core.jnl = false → ∃ t, exec (.tspwn k a g) s = .next t
        ∧ t.enqs = s.enqs ++ [⟨s.me.packet o.toNat, 0, some (dieOf (nodeOf s.cur)), false,
          if k = true then some (s.me.age, s.core.acks) else none⟩]
        ∧ t.core.acks = s.core.acks + (if k = true then 1 else 0) ∧ t.core.path = s.core.path.passX .y 1 ∧ t.mem = s.mem)
      ∧ (inShare → s.core.jnl = true → s.me.tileUnread = true → s.core.sup = false →
        exec (.tspwn k a g) s = .next (s.restartUnread s.cur))
      ∧ (inShare → s.core.jnl = true → s.me.tileUnread = false →
        exec (.tspwn k a g) s = .next ((s.setMe (·.deferPacket o.toNat 0 k true)).finishX .y 1))
      ∧ (¬ inShare → exec (.tspwn k a g) s = .next (s.syncTrap .y 0x06 o))))
  ∧ (∀ (l : Slot) (o : Nat) (dest : Word) (k spawn : Bool),
    (l.deferPacket o dest k spawn).deferred
      = l.deferred ++ [.enqueue (l.packet o) dest (if k = true then some l.core.acks else none) spawn]
    ∧ (l.deferPacket o dest k spawn).core.acks = l.core.acks + (if k = true then 1 else 0)
    ∧ (l.packet o).length = 8
    ∧ ∀ j : Fin 8, (l.packet o)[j.val]? = some (BitVec.ofNat 64 (l.viewLE (o + 8 * j.val) 8)))
  ∧ (∀ (s : State) (o : Nat) (dest : Word) (ack reserved : Bool), s.yReady = true →
    s.core.ywait = some (.enqueue o dest ack reserved) →
    let own : Bool := destOwn dest || destPkg dest == s.pkgId
    let room : Prop := ack = true → s.core.sts.length < 32
    let packet : Enq := ⟨s.me.packet o, destQueue dest, none, false, none⟩
    let asks : Nat := if own = true then s.queueAnswer (destQueue dest) false
      else if s.reaches (destPkg dest) = true ∧ s.stationsUp s.cur = true then Config.freeNat s.draws % 3 else 3
    let ends (t : State) (answer : Nat) : Prop := t.core.ywait = none ∧ t.core.path = s.core.path.passX .y 1
      ∧ t.core.sts = s.core.sts ++ (if ack = true then [ackAnswer answer s.core.acks] else [])
      ∧ t.core.acks = s.core.acks + (if ack = true then 1 else 0)
    let packets (t : State) : List Enq := (aget ({} : EnqQueue) (destQueue dest) t.enqQueues).packets
    (reserved = false →
      (asks = 0 → ∃ t, exec .tenqPlaced s = .next t ∧ t.core.ywait = some (.enqueue o dest ack true)
        ∧ t.core.path = s.core.path ∧ t.enqQueues = s.enqQueues)
      ∧ (asks ≠ 0 → room → ∃ t, exec .tenqPlaced s = .next t ∧ ends t asks ∧ t.enqQueues = s.enqQueues ∧ t.sent = s.sent)
      ∧ (asks ≠ 0 → ¬ room → exec .tenqPlaced s = .next s))
    ∧ (reserved = true →
      (own = true → room → ∃ t, exec .tenqPlaced s = .next t ∧ ends t 0 ∧ packets t = packets s ++ [packet] ∧ t.sent = s.sent)
      ∧ (own = false → s.reaches (destPkg dest) = true → s.stationsUp s.cur = true → room → ∃ t, exec .tenqPlaced s = .next t ∧ ends t 0
        ∧ t.sent = s.sent ++ [.packet (destPkg dest) packet] ∧ t.enqQueues = s.enqQueues)
      ∧ (own = false → ¬ (s.reaches (destPkg dest) = true ∧ s.stationsUp s.cur = true) → room → ∃ t, exec .tenqPlaced s = .next t ∧ ends t 3
        ∧ t.sent = s.sent ∧ t.enqQueues = s.enqQueues)
      ∧ (¬ room → exec .tenqPlaced s = .next s)))

/-- R237, R252, R253. -/
def Obligations.PollsAndProbes : Prop :=
  ∀ (s : State) (a b : SReg) (g : Bool),
    let posts (n : Nat) : State := (s.setCore fun c => { c with sts := c.sts ++ [BitVec.ofNat 64 n] }).finishX .y 1
    let left := if s.core.deadline.toNat ≤ s.stc then 0 else min (s.core.deadline.toNat - s.stc) 0xFFFFFFFF
    let task : Nat := 3 * 2 ^ 62 + 2 * 2 ^ 58 + (if s.me.preq.isSome = true then 2 ^ 57 else 0)
      + (if s.core.deadline.toNat ≤ s.stc then 2 ^ 56 else 0) + s.core.restarts.toNat * 2 ^ 32 + left
    let d := dieOf (nodeOf s.cur)
    let die : Nat := 3 * 2 ^ 62 + 3 * 2 ^ 58 + s.freeSlots (dieNodes d) % 2 ^ 16 * 2 ^ 32
      + min ((s.die d).queues.map (·.length)).sum 0xFFFF * 2 ^ 16 + s.freeSlots [nodeOf s.cur]
    let set := (s.core.getS a).toNat
    let k := (s.core.getS b).toNat
    (s.IssuesX .y (.tpollTask g) →
      (s.core.sts.length < 32 → exec (.tpollTask g) s = .next (posts task))
      ∧ (32 ≤ s.core.sts.length → exec (.tpollTask g) s = .next s))
    ∧ (s.IssuesX .y (.tpollDie g) →
      (s.core.sts.length < 32 → exec (.tpollDie g) s = .next (posts die))
      ∧ (32 ≤ s.core.sts.length → exec (.tpollDie g) s = .next s))
    ∧ (s.IssuesX .y (.lkprb a b g) →
      (∀ n, s.me.decl.setCount set = some n → k < n →
        (s.core.sts.length < 32 → exec (.lkprb a b g) s = .next (posts (3 * 2 ^ 62 + 2 ^ 58 + set * 2 ^ 55
          + (if (s.probe s.cur set k).1 = true then 2 ^ 54 else 0) + (if (s.probe s.cur set k).2 = true then 2 ^ 53 else 0)
          + k % 2 ^ 32)))
        ∧ (32 ≤ s.core.sts.length → exec (.lkprb a b g) s = .next s))
      ∧ (s.me.decl.setCount set = none → exec (.lkprb a b g) s = .next (s.syncTrap .y 0x06 (s.core.getS a)))
      ∧ (∀ n, s.me.decl.setCount set = some n → n ≤ k →
        exec (.lkprb a b g) s = .next (s.syncTrap .y 0x06 (s.core.getS b))))
    ∧ (∀ t r p, (s.me.decl.sets[set]?).getD none = some t → ((s.me.regions[t.region]?).getD {}).byteAt false (t.first k) = r →
      (∀ l x c, r = .at [p] → s.lockAt p t.log2g = some l → l.holder = some (x, c) →
        s.probe s.cur set k = (x == s.me.age, x != s.me.age))
      ∧ (r = .at [p] → (s.lockAt p t.log2g = none ∨ ∃ l, s.lockAt p t.log2g = some l ∧ l.holder = none) →
        s.probe s.cur set k = (false, false))
      ∧ ((∀ q, r ≠ .at [q]) → s.probe s.cur set k = (false, false)))

/-- R255, R256. -/
def Obligations.StampAndDeadline : Prop :=
  (∀ (s : State) (k : Bool) (a : SReg) (g : Bool), s.IssuesX .y (.stamp k a g) →
    let t := s.core.getS a
    (s.stc < t.toNat → ∃ u, exec (.stamp k a g) s = .next u ∧ u.core.ywait = some (.stamp t.toNat k)
      ∧ u.core.path = s.core.path)
    ∧ (t.toNat ≤ s.stc → ∃ u, exec (.stamp k a g) s = .next u ∧ u.core.path = s.core.path.passX .y 1
      ∧ u.core.pend = s.core.pend ++
        (if k = true ∧ t.toNat < s.stc ∧ s.core.restamp = false then [⟨0x0A, 3, t⟩] else [])))
  ∧ (∀ (s : State) (t : Nat) (k : Bool), s.core.ywait = some (.stamp t k) → s.yReady = true → t ≤ s.stc →
    ∃ u, exec .stampComplete s = .next u ∧ u.core.ywait = none ∧ u.core.path = s.core.path.passX .y 1
      ∧ u.core.pend = s.core.pend)
  ∧ (∀ (s : State) (a : SReg) (imm : BitVec 32) (g : Bool), s.IssuesX .y (.dln a imm g) →
    let base : Int := if a = 0 then s.stc else (s.core.getS a).toNat
    let v : Nat := (max 0 (min (2 ^ 64 - 1) (base + imm.toInt))).toNat
    ∃ u, exec (.dln a imm g) s = .next u ∧ u.core.deadline.toNat = min s.core.deadline.toNat v
      ∧ u.core.pend = s.core.pend ++ (if v ≤ s.stc then [⟨0x10, 7, u.core.deadline⟩] else []))

/-- R158, R159. The other checks are those of `State.rejects`, in the order of R159. -/
def Obligations.CommandsLeaveTheStreamQueue : Prop :=
  (∀ (s : State) (c : Cmd) (rest : List Cmd), s.me.eng.queue = c :: rest → s.me.stage = .running →
    s.me.eng.flying.length < 256 → c.reported = false →
    let u := s.setEng s.cur fun e => { e with queue := rest }
    ∃ t, exec .streamDequeue s = .next t ∧ t.me.eng.queue = rest
      ∧ (u.rejects s.cur c = none → t.me.eng.flying = s.me.eng.flying ++ [u.launched s.cur c] ∧ t.mem = s.mem
          ∧ (u.launched s.cur c).raw = c.raw ∧ (u.launched s.cur c).seq = c.seq ∧ (u.launched s.cur c).st = .waiting
          ∧ (u.launched s.cur c).cursor = c.cursorW % 2 ^ 48)
      ∧ (∀ r, u.rejects s.cur c = some r → (c.trapf = true ∨ s.core.sts.length < 32) →
          ∃ x, t.me.eng.failed = x :: s.me.eng.failed ∧ x.seq = c.seq ∧ x.st = .faulted ∧ x.cause = r.cause ∧ x.detail = r.detail
            ∧ t.cmdAt s.cur c.seq = none
            ∧ t.core.pend = s.core.pend ++ (if c.trapf = true then [⟨r.cause, c.head, r.val⟩] else [])
            ∧ t.core.sts = s.core.sts ++ (if c.trapf = true then [] else [x.status])))
  ∧ (∀ (s : State) (ctx : Nat) (c : Cmd), (c.ver ≠ 1 → s.rejects ctx c = some ⟨0x0F, 0x01, c.formatVal 0x01⟩)
    ∧ (c.ver = 1 → (c.kind = 0 ∨ 0x10 < c.kind) → s.rejects ctx c = some ⟨0x0F, 0x02, c.formatVal 0x02⟩))
  ∧ (∀ s : State, (s.me.eng.queue = [] ∨ 256 ≤ s.me.eng.flying.length) → exec .streamDequeue s = .next s)

/-- R158, R160, R183. -/
def Obligations.StreamCommandsStart : Prop :=
  (∀ (s : State) (c : Cmd) (e : Instr), kindEvent c.seq c.kind = some e → s.cmdAt s.cur c.seq = some c →
    s.me.stage = .running → c.st = .waiting → c.started = false → c.closing = false → c.waited = false → c.stamp = none →
    (s.me.eng.holdsSides s.cur c = true → s.core.waitsMet c.waitMask = true → s.CountsFree c → ∃ t, exec e s = .next t
      ∧ t.cmdAt s.cur c.seq = some { c with
          waited := true
          st := .running
          started := true }
      ∧ (∀ v : EvReg, t.core.ereg[v] = s.core.ereg[v] - (if c.waitMask.testBit v.val = true then 1 else 0))
      ∧ t.mem = s.mem ∧ t.me.store = s.me.store)
    ∧ ((s.me.eng.holdsSides s.cur c = false ∨ s.core.waitsMet c.waitMask = false ∨ ¬ s.CountsFree c) → exec e s = .next s))
  ∧ (∀ (s : State) (c : Cmd) (n : Nat), s.cmdAt s.cur c.seq = some c → s.me.stage = .running → c.st = .waiting →
    c.stamp = some n → c.late = false → c.closing = false →
    ((s.stampOf s.cur n < s.stc ∨ c.past = true) → c.lateBit = false →
      exec (.startStampReached c.seq) s = .next (s.failCmd s.cur c ⟨0x0A, 0, BitVec.ofNat 64 n⟩))
    ∧ ((s.stampOf s.cur n < s.stc ∨ c.past = true) → c.lateBit = true →
      ∃ t, exec (.startStampReached c.seq) s = .next t ∧ t.cmdAt s.cur c.seq = some { c with late := true })
    ∧ (s.stc < s.stampOf s.cur n → c.past = false → exec (.startStampReached c.seq) s = .next s)
    ∧ (s.stampOf s.cur n = s.stc → c.past = false → s.me.eng.holdsSides s.cur c = true →
      s.core.waitsMet c.waitMask = true → s.CountsFree c → c.waited = false →
      let u := s.setCoreAt s.cur (·.takeWaits (s.acStart s.cur) c.waitMask)
      let d := { c with waited := true }
      (u.sourceReady s.cur d = true → ∃ t, exec (.startStampReached c.seq) s = .next t
        ∧ t = match (u.setCmd s.cur d.begin).advance s.cur d.begin with
          | .stop w => w
          | _ => u.setCmd s.cur d.begin)
      ∧ (u.sourceReady s.cur d = false → exec (.startStampReached c.seq) s = .next (u.missStamp s.cur d n)))
    ∧ (s.stampOf s.cur n = s.stc → c.past = false → c.waited = false →
      (s.me.eng.holdsSides s.cur c = false ∨ s.core.waitsMet c.waitMask = false ∨ ¬ s.CountsFree c) →
      exec (.startStampReached c.seq) s = .next (s.missStamp s.cur c n))
    ∧ (∀ u : State, u.missStamp s.cur c n = if c.lateBit = true then u.setCmd s.cur { c with late := true }
        else u.failCmd s.cur c ⟨0x0A, 0, BitVec.ofNat 64 n⟩))

/-- R162, R166 to R172: the element that moves, for each kind. -/
def Obligations.StreamKindsMoveElements : Prop :=
  ∀ (s : State) (c : Cmd), s.Running c → c.Clear → ∀ e, kindEvent c.seq c.kind = some e →
    let w := c.efmt.width
    let n := c.cursor
    let run (P : State → Prop) (d : Cmd) : Prop := ∃ t, exec e s = .next t ∧ exec (.streamTokenTransfer c.seq) s = .next t
      ∧ t.cmdAt s.cur c.seq = some d.advance ∧ t.mem = s.mem ∧ P t
    let reads (E : Int) (v : Nat) : Prop := epType c.ep0 = 1 ∧ inShare w E = true ∧ s.me.journalTile = []
      ∧ s.ownUpdate s.cur c.seq true (shareBytes w E) = false
      ∧ touchesBad s.me.badWords (shareBytes w E) = false ∧ Reads s.me.store w E.toNat v
    let pops (k : Fin 4) (x : Word) (rest : List Word) : Prop := c.ep0 = 3 * 2 ^ 60 + 12 + k.val ∧ s.core.xo[k] = x :: rest
    let toFifo (k : Fin 4) : Prop := c.ep1 = 3 * 2 ^ 60 + 8 + k.val ∧ s.core.xi[k].length < 16
    let toTile (E : Int) : Prop := epType c.ep1 = 1 ∧ inShare w E = true ∧ s.core.jnl = false
    let indexed (k : Nat) (x : Int) : Prop :=
      (aget ({} : IndexLink) (c.link.getD 0) s.me.eng.links).vals[k]? = some x
    -- to an `xi` FIFO
    (∀ (k : Fin 4) (v : Nat) (x : Int), toFifo k →
      ((c.kind = 0x01 ∧ reads (c.enumerate (epOff c.ep0) n) v)
        ∨ (c.kind = 0x03 ∧ indexed n x ∧ reads ((epOff c.ep0 : Int) + x * c.stride 0) v)
        ∨ (c.kind = 0x08 ∧ indexed (n / c.size 0) x
            ∧ reads ((epOff c.ep0 : Int) + x * c.stride 1 + (n % c.size 0 : Nat) * c.stride 0) v)) →
      run (fun t => t.core.xi[k] = s.core.xi[k] ++ [BitVec.ofNat 64 (extend64 c.efmt v)] ∧ t.me.store = s.me.store)
        { c with lemSent := n + 1 == c.count })
    -- from an `xo` FIFO to tile store
    ∧ (∀ (k : Fin 4) (x : Word) (rest : List Word) (i : Int), pops k x rest →
      (c.kind = 0x02 → toTile (c.enumerate (epOff c.ep1) n) →
        run (fun t => t.core.xo[k] = rest ∧ Wrote s.me.store t.me.store w (c.enumerate (epOff c.ep1) n).toNat x.toNat) c)
      ∧ (c.kind = 0x04 → indexed n i → toTile ((epOff c.ep1 : Int) + i * c.stride 0) →
        run (fun t => t.core.xo[k] = rest
          ∧ Wrote s.me.store t.me.store w ((epOff c.ep1 : Int) + i * c.stride 0).toNat x.toNat) c)
      ∧ (c.kind = 0x09 → toTile (c.enumerate (epOff c.ep1) n) →
        run (fun t => t.core.xo[k] = rest ∧ t.me.store = s.me.store ∧ ∃ u : Update, t.updates = s.updates ++ [u]
            ∧ u.ctx = s.cur ∧ u.seq = c.seq ∧ u.ord = n ∧ u.op = c.op ∧ u.x = x.toNat % 2 ^ w ∧ u.efmt = c.efmtCode
            ∧ u.loc = .tile s.cur (elemByte w (c.enumerate (epOff c.ep1) n).toNat) ∧ u.round = none)
          { c with updates := c.updates + 1 })
      ∧ (∀ (a : Nat) (as : List Nat), c.kind = 0x0A → epType c.ep1 = 0 → s.core.jnl = false → c.returns = [] → c.retPack = [] →
        ([0, 1, 5].contains (epType c.ep2) = true → c.updates = 0) → (a :: as).any s.core.inArena = false →
        (aget ({} : Region) (epRegion c.ep1) c.exts).place true w (c.enumerate (epOff c.ep1) n) = .at (a :: as) →
        run (fun t => t.core.xo[k] = rest ∧ ∃ u : Update, t.updates = s.updates ++ [u] ∧ u.ctx = s.cur ∧ u.seq = c.seq
            ∧ u.ord = n ∧ u.op = c.op ∧ u.x = x.toNat % 2 ^ w ∧ u.loc = .phys a ∧ u.wantOld = (epType c.ep2 != 7))
          { c with updates := c.updates + 1 }))
    -- within tile store
    ∧ (∀ v, c.kind = 0x0B → reads (c.enumerate (epOff c.ep0) n) v → toTile (epOff c.ep1 + n : Nat) →
      run (fun t => Wrote s.me.store t.me.store w (epOff c.ep1 + n) v) c)
    ∧ (c.kind = 0x06 → epType c.ep0 = 7 → toTile (c.enumerate (epOff c.ep1) n) →
      run (fun t => Wrote s.me.store t.me.store w (c.enumerate (epOff c.ep1) n).toNat c.fillValue) c)
    ∧ (∀ v, c.kind = 0x07 → epType c.ep1 = 1 → inShare w (epOff c.ep1 + n : Nat) = true → c.mask = 0 → c.peers ≠ [] →
      (∀ p ∈ c.peers, (s.slotAt p.2.1).runs = true ∧ (s.slotAt p.2.1).age = p.2.2 ∧ (s.slotAt p.2.1).core.jnl = false) →
      reads (c.enumerate (epOff c.ep0) n) v →
      run (fun t => ∀ p ∈ c.peers, Wrote (s.slotAt p.2.1).store (t.slotAt p.2.1).store w (epOff c.ep1 + n) v) c)
    -- towards a metadata port
    ∧ (∀ v, c.kind = 0x0F → epType c.ep1 = 2 → epCpl c.ep1 = false → reads (c.enumerate (epOff c.ep0) n) v →
      run (fun t => t.me.store = s.me.store) { c with pack := [v] })
    -- between any endpoints
    ∧ (∀ s1 s2 s3 c1 c2 c3 v x y, c.kind ≠ 0x05 → c.kind ≤ 0x0B ∨ c.kind = 0x0F → c.kind ≠ 0x07 ∨ c.peers ≠ [] ∨ c.mask ≠ 0 →
      (c.kind = 0x04 → s.me.index c n ≠ .never) →
      (c.kind = 0x0A → c.returns = [] ∧ c.retPack = [] ∧ ([0, 1, 5].contains (epType c.ep2) = true → c.updates = 0)) →
      s.take s.cur c = .ok s1 c1 v → s.put s.cur c v = .ok s2 c2 x → s1.put s.cur c1 v = .ok s3 c3 y →
      exec e s = .next (s3.setCmd s.cur c3.advance) ∧ exec (.streamTokenTransfer c.seq) s = .next (s3.setCmd s.cur c3.advance))

/-- R168, R173 to R176, R349. -/
def Obligations.LoopsBarriersTapsAndTokens : Prop :=
  ∀ (s : State) (c : Cmd), s.Running c →
    (c.kind = 0x05 → c.outBits = (0, 0) → epType c.ep1 = 2 → s.me.quad.portRoom (epPort c.ep1) = true →
      s.me.quad.mapsIn (epPort c.ep1) = true → s.me.quad.inPlane (epPort c.ep1) = epCpl c.ep1 →
      (c.held = [] → c.sent < c.initial → ∃ t, exec (.srecCommand c.seq) s = .next t
        ∧ t.cmdAt s.cur c.seq = some { c with sent := c.sent + 1 })
      ∧ (∀ k tok, c.held = [(k, tok)] → k < c.count → ∃ t, exec (.srecCommand c.seq) s = .next t
        ∧ t.cmdAt s.cur c.seq = some { c with held := [] }
        ∧ t.me.quad = s.me.quad.sendToPort (s.acOf s.cur) (epPort c.ep1) (valueTok tok.pay false)
            (s.cur, c.seq) 1))
    ∧ (∀ tok rest, c.kind = 0x05 → c.outBits = (0, 0) → c.held = [] → c.cursor < c.loopTotal → c.initial ≤ c.sent →
      s.me.quad.outPort (epPort c.ep0) = (tok, false) :: rest → tok.isMarker = false →
      s.me.quad.frozen = false → s.me.quad.mapsOut (epPort c.ep0) = true → s.me.quad.outPlane (epPort c.ep0) = epCpl c.ep0 →
      ∃ t, exec (.srecCommand c.seq) s = .next t
        ∧ t.cmdAt s.cur c.seq = some { c with
            held := [(c.cursor, tok)]
            cursor := c.cursor + 1 }
        ∧ t.me.quad.outPort (epPort c.ep0) = rest)
    ∧ (c.kind = 0x0C → (s.me.eng.barred c = false → ∃ t, exec (.sbarCommand c.seq) s = .next t
        ∧ t.cmdAt s.cur c.seq = some { c with fin := true })
      ∧ (s.me.eng.barred c = true → exec (.sbarCommand c.seq) s = .next s))
    ∧ (∀ k, c.kind = 0x0D → c.fin = false → c.told = false → c.link = some k →
      (s.me.eng.taps.all fun p => p.1 != c.seq) = true →
      let named := (s.me.eng.queue ++ s.me.eng.flying).find? fun (y : Cmd) => y.seq == k
      (∀ x, named = some x → x.st ≠ .faulted →
        ∃ t, exec (.stapCommand c.seq) s = .next t ∧ t.me.eng.taps = s.me.eng.taps ++ [(c.seq, k, c.bind)]
          ∧ t.me.eng.flying = s.me.eng.flying)
      ∧ (∀ x, named = some x → x.st = .faulted →
        exec (.stapCommand c.seq) s = .next ((s.tapPoisons s.cur c.bind).setCmd s.cur { c with told := true }))
      ∧ (∀ w, named = none → (s.me.eng.retired.find? fun (q, _) => q == k) = some (k, w) →
        exec (.stapCommand c.seq) s = .next (if statusState w = 4
          then (s.tapArrives s.cur c.bind).setCmd s.cur { c with fin := true }
          else (s.tapPoisons s.cur c.bind).setCmd s.cur { c with told := true })))
    ∧ (c.kind = 0x0E → c.fin = false → s.filterInUse s.cur c (s.cmdRoute s.cur c) = false →
      (∀ n ∈ s.cmdRoute s.cur c, s.otherEntries n (planeOf s.cur) c.vc c.filter < 16) →
      ∃ t, exec (.sfiltCommand c.seq) s = .next t
        ∧ (∀ n ∈ s.cmdRoute s.cur c, ∃ r, t.routerEntry n (planeOf s.cur) c.vc c.filter = some r
            ∧ r.w0 = BitVec.ofNat 64 c.aux0 ∧ r.w1 = BitVec.ofNat 64 c.aux1)
        ∧ (∀ n p v f, (n ∉ s.cmdRoute s.cur c ∨ p ≠ planeOf s.cur ∨ v ≠ c.vc ∨ f ≠ c.filter) →
            t.routerEntry n p v f = s.routerEntry n p v f))
    ∧ (c.kind = 0x10 → c.lemSent = false → c.closed = false → c.told = false → epType c.ep1 = 4 → epOwn c.ep1 = true →
      s.sendRoom s.cur c (epCtx c.ep1) (epRemotePort c.ep1) = true →
      (48 ≤ epRemotePort c.ep1 ∨ (s.slotAt (epCtx c.ep1)).quad.mapsIn (epRemotePort c.ep1) = false
        ∨ (s.slotAt (epCtx c.ep1)).quad.inPlane (epRemotePort c.ep1) = epRemoteCpl c.ep1) →
      ∃ t, exec (.stokCommand c.seq) s = .next t
        ∧ t.remotes = s.remotes ++ [⟨s.cur, c.seq, epCtx c.ep1, epRemotePort c.ep1, epRemoteCpl c.ep1,
            ⟨c.aux0, 0, true, false⟩, if c.aux1.testBit 31 = true then some (c.aux1 % 32) else none, none⟩]
        ∧ t.cmdAt s.cur c.seq = some { c with
            lemSent := true
            fin := false })
    ∧ (∀ port, c.kind = 0x10 → c.lemSent = false → c.closed = false → c.told = false →
      ((epType c.ep1 = 2 ∧ port = epPort c.ep1 ∧ (s.me.quad.mapsIn port = false ∨ s.me.quad.inPlane port = true))
        ∨ (epType c.ep1 = 3 ∧ port = 60 + (epFifo c.ep1 - 8))) →
      s.sendRoom s.cur c s.cur port = true → ∃ t, exec (.stokCommand c.seq) s = .next t
        ∧ t.remotes = s.remotes ++ [⟨s.cur, c.seq, s.cur, port, true, ⟨c.aux0, 0, true, false⟩,
            if c.aux1.testBit 31 = true then some (c.aux1 % 32) else none, none⟩]
        ∧ t.cmdAt s.cur c.seq = some { c with lemSent := true })

/-- R160, R181, R182; R176, R449. -/
def Obligations.RetirementAndArrival : Prop :=
  (∀ (s : State) (c : Cmd), s.cmdAt s.cur c.seq = some c → s.me.stage = .running → c.st = .running →
    s.complete s.cur c = true → c.mask = 0 → c.acted = false → s.buffered s.cur c.seq = false →
    (c.onPort s.cur = true → s.me.eng.kept.length < 64) → s.core.sts.length < 32 →
    s.core.countedNow (s.acStart s.cur) c.signalMask = false →
    ∃ t, exec (.streamRetire c.seq) s = .next t ∧ t.cmdAt s.cur c.seq = none
      ∧ t.me.eng.retired = ((c.seq, { c with st := .done }.status) :: s.me.eng.retired).take 64
      ∧ t.me.eng.finals = ((c.seq, BitVec.ofNat 64 { c with st := .done }.cursorNow) :: s.me.eng.finals).take 64
      ∧ t.core.sts = s.core.sts ++ (if c.doneBit = true then [{ c with st := .done }.status] else [])
      ∧ (∀ v : EvReg, t.core.ereg[v] = if c.signalMask.testBit v.val = true
          then BitVec.ofNat 16 (min 0xFFFF ((s.core.ereg[v]).toNat + 1)) else s.core.ereg[v])
      ∧ t.mem = s.mem ∧ t.me.store = s.me.store)
  ∧ (∀ (s : State) (k : Nat) (r : Remote), s.remotes[k]? = some r → s.firstOf k r = true →
    let cleared := match r.event with | some e => (s.slotAt r.dst).core.countedNow (s.acStart r.dst) (2 ^ e) | none => false
    let here := r.fwd.any (· != (s.slotAt r.dst).age) = false ∧ (s.slotAt r.dst).runs = true
    (∀ age, s.heldFor r = some age → ∃ t, exec (.remoteTokenArrival k) s = .next t
      ∧ t.remotes = ldel k s.remotes ∧ t.held = s.held ++ [(age, .token r)] ∧ t.slots = s.slots)
    ∧ (∀ x : Fin 4, s.heldFor r = none → here → cleared = false → r.port = 60 + x.val →
      (s.slotAt r.dst).core.xi[x].length < 16 → ∃ t, exec (.remoteTokenArrival k) s = .next t
      ∧ t.remotes = ldel k s.remotes
      ∧ (t.slotAt r.dst).core.xi[x] = (s.slotAt r.dst).core.xi[x] ++ [BitVec.ofNat 64 r.tok.pay]
      ∧ (∀ v : EvReg, (t.slotAt r.dst).core.ereg[v] = if r.event.map (· % 32) = some v.val
          then BitVec.ofNat 16 (min 0xFFFF (((s.slotAt r.dst).core.ereg[v]).toNat + 1))
          else (s.slotAt r.dst).core.ereg[v]))
    ∧ (s.heldFor r = none → here → cleared = false → r.port < 48 →
      (s.slotAt r.dst).quad.portRoom r.port = true → (s.slotAt r.dst).quad.inPlane r.port = r.cpl →
      ∃ t, exec (.remoteTokenArrival k) s = .next t ∧ t.remotes = ldel k s.remotes
      ∧ ((t.slotAt r.dst).quad.port r.port).q = ((s.slotAt r.dst).quad.port r.port).q
          ++ [{ r.tok with tag := ((s.slotAt r.dst).quad.port r.port).pr }]
      ∧ (∀ v : EvReg, (t.slotAt r.dst).core.ereg[v] = if r.event.map (· % 32) = some v.val
          then BitVec.ofNat 16 (min 0xFFFF (((s.slotAt r.dst).core.ereg[v]).toNat + 1))
          else (s.slotAt r.dst).core.ereg[v]))
    ∧ (s.heldFor r = none → here → cleared = true → exec (.remoteTokenArrival k) s = .next s)
    ∧ (∀ c, s.heldFor r = none → ¬ here → s.cmdAt r.src r.seq = some c → c.st ≠ .faulted →
      exec (.remoteTokenArrival k) s = .next (({ s with remotes := ldel k s.remotes } : State).failCmd r.src c
        ⟨0x0D, nodeOf r.dst, BitVec.ofNat 64 (nodeOf r.dst)⟩)))

/-- R266, R271, R276: the executions that are due come first. That PR and tags count on beyond their four bits is the model's (log 107). -/
def Obligations.SwardPortsAndBuffers : Prop :=
  ∀ s : State, let q := s.quadNow s.cur
    (∀ p due tok src k again rest, (q.port p).incoming = ⟨due, tok, src, k, again⟩ :: rest → due ≤ s.acOf s.cur → (q.port p).q.length < 8 →
      q.frozen = false → ∃ t, exec (.portTokenEntry p) s = .next t
        ∧ (t.me.quad.port p).q = (q.port p).q ++ [{ tok with tag := (q.port p).pr }]
        ∧ (t.me.quad.port p).incoming = rest
        ∧ (t.me.quad.port p).pr = if (tok.mkr && !tok.lem) = true then (q.port p).pr + 1 else (q.port p).pr)
    ∧ (∀ p tok rest, (q.port p).q = tok :: rest → (tok.mkr && tok.lem) = true → q.frozen = false → ∃ t, exec (.bareMarkerDiscard p) s = .next t
        ∧ (t.me.quad.port p).q = rest ∧ (t.me.quad.port p).incoming = (q.port p).incoming)
    ∧ (∀ k x, q.links[k]? = some x → x.due ≤ s.acOf s.cur → q.overtaken k x = false → q.frozen = false →
      (∀ key, x.dst = .buf key → (q.buf key).length < q.capacity (.buf key) → ∃ t, exec (.tokenBufferEntry k) s = .next t
        ∧ t.me.quad.buf key = q.buf key ++ [x.tok] ∧ t.me.quad.links = ldel k q.links)
      ∧ (∀ p, x.dst = .out p → (q.outPort p).length < 8 → ∃ t, exec (.tokenBufferEntry k) s = .next t
        ∧ t.me.quad.outPort p = q.outPort p ++ [(x.tok, x.rep)] ∧ t.me.quad.links = ldel k q.links))
    ∧ (q.frozen = true → ∀ p, exec (.portTokenEntry p) s = .next s ∧ exec (.bareMarkerDiscard p) s = .next s
      ∧ exec (.tokenBufferEntry p) s = .next s)

/-- R202, R204, R273, R277, R284. The model's own: what a group takes whose operand comes over a link inside it (log 85), that it does not fire
again before a step that it begins has begun (log 101), the last-element mark of a forwarded B token (log 106), rounds beyond four bits
(log 107) and the place of a step beside an MRD of its ac (log 111). -/
def Obligations.SwardFirings : Prop :=
  ∀ s : State, let now := s.acOf s.cur; let q := s.quadNow s.cur; let q0 := s.me.quad.settleBefore now
    (∀ g ps k0 t0 more late,
      let toks := ps.flatMap fun (n, o, k) => ((q0.buffered n o).take k).map fun t => (opKey n o, t)
      let seen := (q0.members g).flatMap fun n => [0, 1].filterMap fun o =>
        if (q0.slot n).op = 0x4A ∨ (q0.slot n).op = 0x4B then (q0.headTok n o).map fun t => (opKey n o, t) else none
      let q1 := ps.foldl (fun q (n, o, k) => q.takeMany n o k) q0
      let fired : Quad := { q1 with
        firings := q1.firings ++ [⟨g, now, none, t0.tag, (toks ++ late).any fun (_, t) => t.lem, toks, seen, [], q0.members g⟩]
        firedAt := aset g now q1.firedAt
        busyAc := now }
      q0.groupPicks (q0.members g) = some ps → q0.mergeEarly now ps = false → q0.lateToks now g ps = some late → toks = (k0, t0) :: more → (∀ x ∈ toks, x.2.tag = t0.tag) →
      q0.groupBusy g = false → q0.queuesFree g = true → q0.live = true → q0.firedNow now g = false →
      fired.settleAll.withinCredit = true → ∃ t, exec (.groupFiring g) s = .next t
        ∧ t.me.quad.firings = q0.firings ++ [⟨g, now, none, t0.tag, (toks ++ late).any fun (_, t) => t.lem, toks, seen, [], q0.members g⟩]
        ∧ (∀ n o, ps = [(n, o, 1)] → q0.portOf n o = none → t.me.quad.buf (opKey n o) = (q0.buf (opKey n o)).drop 1))
    ∧ (∀ g t0 n0 o0 more,
      let keys := q0.markerKeys g
      let fire : Firing := ⟨g, now, some t0.tag, t0.tag, false, [], [], [], (q0.members g).filter fun n => !(q0.slot n).mt⟩
      let q1 := keys.foldl (fun q (n, o) => q.takeTok n o) q0
      let fired : Quad := { q1 with
        firings := q1.firings ++ [fire]
        firedAt := aset g now q1.firedAt
        busyAc := now }
      keys = (n0, o0) :: more → q0.headTok n0 o0 = some t0 → t0.isMarker = true →
      (∀ k ∈ keys, ∃ t, q0.headTok k.1 k.2 = some t ∧ t.isMarker = true ∧ t.tag = t0.tag) →
      q0.groupBusy g = false → q0.queuesFree g = true → q0.live = true → q0.firedNow now g = false →
      t0.tag < q0.cuts + 2 →
      fired.settleAll.withinCredit = true → ∃ t, exec (.markerFiring g) s = .next t
        ∧ t.me.quad.firings = q0.firings ++ [fire])
    ∧ (∀ n o tok, q.headTok n o = some tok → tok.isMarker = true → (q.slot n).mt = true → q.live = true → o ∈ q.waited n →
      ((q.op n).hasPassed tok.tag o = true → q.portOf n o = none → ∃ t, exec (.markerThrough n o) s = .next t
        ∧ t.me.quad.buf (opKey n o) = (q.buf (opKey n o)).drop 1 ∧ t.me.quad.links = q.links)
      ∧ ((q.op n).hasPassed tok.tag o = false → tok.tag < q.cuts + 2 →
        let q1 := (q.takeTok n o).setOp n fun st => st.takesMark tok.tag o (q.waited n)
        let q2 := (q1.deliver ⟨0, now, none, tok.tag, false, [], [], [], []⟩ n (now + opLat (q.slot n).op) (fun _ => true)
          (markerTok tok.tag)).1
        q2.withinCredit = true → ∃ t, exec (.markerThrough n o) s = .next t ∧ t.me.quad.links = q2.links
          ∧ (q.portOf n o = none → t.me.quad.buf (opKey n o) = (q.buf (opKey n o)).drop 1)))
    ∧ (∀ n p a b, (q.op n).step = some p → (q.slot n).op = 0x21 → p.land = none → p.phase ≤ 1 → q.frozen = false →
      p.nextAt ≤ now → q.headValue n 1 = some b →
      let both : Prop := p.phase = 0 ∧ mms4N (q.slot n).mode = 12
      (both → q.headValue n 0 = some a) → (¬ both → a = default) → n < q.ops.length →
      let p' : MatStep := { p with
        bToks := p.bToks ++ [b]
        aToks := if both then p.aToks ++ [a] else p.aToks
        phase := p.phase + 1
        nextAt := now + 1
        land := if p.phase = 1 then some (now + if mms4N (q.slot n).mode = 12 then 3 else 1) else none }
      let q1 := if both then (q.takeTok n 1).takeTok n 0 else q.takeTok n 1
      let q2 := q1.setOp n fun st => { st with step := some p' }
      let q3 := (q2.deliver ⟨0, now, none, b.tag, false, [], [], [], []⟩ n (now + 1) (fun _ => true) ⟨b.pay, b.tag, b.lem, false⟩).1
      q3.withinCredit = true → ∃ t, exec (.mms4Phase n) s = .next t
        ∧ (t.me.quad.op n).step = some p' ∧ t.me.quad.links = q3.links)
    ∧ (∀ n p v, (q.op n).step = some p → p.land = some v → v < now → q.frozen = false → n < q.ops.length →
      let w := q.word n
      let k := kDepth (CfgWord.inf w)
      let ftz := (CfgWord.mods w).ftz
      ∃ t, exec (.matrixStepLand n) s = .next t ∧ (t.me.quad.op n).step = none
        ∧ ((q.slot n).op = 0x20 → (t.me.quad.op n).kb = ((q.op n).kb + k) % 2 ^ 32
          ∧ (t.me.quad.op n).acc = matStep w (q.op n).acc p.sa p.sb p.kb
            ((matRows (CfgWord.inf w) ftz k (((p.aToks.head?).map (·.pay)).getD 0)).map (·.map some))
            (matRows (CfgWord.bf w) ftz k (((p.bToks.head?).map (·.pay)).getD 0)))
        ∧ ((q.slot n).op = 0x21 → (t.me.quad.op n).kb = ((q.op n).kb + 3 * k) % 2 ^ 32
          ∧ (t.me.quad.op n).acc = matStep w (q.op n).acc p.sa p.sb p.kb
            (mms4Operands w (q.slot n).mode (p.aToks.map (·.pay)) (p.bToks.map (·.pay)) ((p.metaTok.map (·.pay)).getD 0)).1
            (mms4Operands w (q.slot n).mode (p.aToks.map (·.pay)) (p.bToks.map (·.pay)) ((p.metaTok.map (·.pay)).getD 0)).2)
        ∧ (∀ m, m ≠ n → t.me.quad.op m = q.op m))
    ∧ (∀ n r, (q.op n).queue = [] → (q.op n).run = some r → (q.op n).emitFrom ≤ now → q.frozen = false → n < q.ops.length →
      let x := Quad.runNext r
      let q1 := q.setOp n fun st => { st with
        run := x.2
        emitFrom := now + 1 }
      let q2 := (q1.deliver ⟨0, now, none, 0, false, [], [], [], []⟩ n (now + 1) (fun _ => true)
        ⟨x.1, r.tag, r.lem && x.2.isNone, false⟩).1
      q2.withinCredit = true → ∃ t, exec (.irregularEmit n) s = .next t
        ∧ (t.me.quad.op n).run = x.2 ∧ t.me.quad.links = q2.links)
    ∧ (∀ n e rest, (q.op n).queue = e :: rest → e.ready ≤ now → (q.op n).emitFrom ≤ now →
      q.frozen = false → n < q.ops.length →
      let q1 := q.setOp n fun st => { st with
        queue := rest
        emitFrom := now + 1 }
      let q2 := (q1.deliver ⟨0, now, none, 0, false, [], [], [], []⟩ n (now + 1) (fun _ => true) e.tok).1
      q2.withinCredit = true → ∃ t, exec (.irregularEmit n) s = .next t
        ∧ (t.me.quad.op n).queue = rest ∧ (t.me.quad.op n).emitFrom = now + 1 ∧ t.me.quad.links = q2.links)

/-- R196 to R199, R203, R205 to R207, R209, R211 to R213, operator by operator. What TAG and LEM a result takes is R275's; the order of a
sum's terms is R141's. -/
def Obligations.LaneOperators : Prop :=
  (∀ (b : BSlot) (w x y z k : Nat),
    let fi := CfgWord.inf w
    let fo := CfgWord.of w
    let md := CfgWord.mods w
    let lane (f : Fmt) (v j : Nat) : Nat := v / 2 ^ (f.width * j) % 2 ^ f.width
    let r := elementwise b w x y z
    let A := lane fi x k
    let B := lane fi y k
    let va := fi.operand md.ftz A
    let vb := fi.operand md.ftz B
    let vc := fi.operand md.ftz (lane fi z k)
    let shift := B % fi.width
    let unordered : Prop := va.isNan = true ∨ vb.isNan = true
    (k < fi.lanes →
      (b.op = 0x09 → b.mode < 5 → lane fi r k =
        if (b.mode = 0 ∧ va.eqv vb = true) ∨ (b.mode = 1 ∧ va.lt vb = true) ∨ (b.mode = 2 ∧ (va.lt vb = true ∨ va.eqv vb = true))
          ∨ (b.mode = 3 ∧ unordered) ∨ (b.mode = 4 ∧ va.eqv vb = false) then 2 ^ fi.width - 1 else 0)
      ∧ (b.op = 0x0A → lane fi r k = if A ≠ 0 then B else lane fi z k)
      ∧ (b.op = 0x0B → lane fi r k = A.land B) ∧ (b.op = 0x0C → lane fi r k = A.lor B) ∧ (b.op = 0x0D → lane fi r k = A.xor B)
      ∧ (b.op = 0x0E → lane fi r k = A * 2 ^ shift % 2 ^ fi.width)
      ∧ (b.op = 0x0F → b.mode = 0 → lane fi r k = A / 2 ^ shift)
      ∧ (b.op = 0x0F → b.mode = 1 → lane fi r k = wrapInt fi.width (toSigned fi.width A / ((2 ^ shift : Nat) : Int))))
    ∧ (k < fi.lanes → fi.lanes = fo.lanes →
      (b.op = 0x01 → lane fo r k = roundTo fo md (va.add md.rm vb))
      ∧ (b.op = 0x02 → lane fo r k = roundTo fo md (va.add md.rm vb.neg))
      ∧ (b.op = 0x03 → lane fo r k = roundTo fo md (va.mul vb))
      ∧ (b.op = 0x04 → lane fo r k = roundTo fo md ((va.mul vb).add md.rm vc))
      ∧ (b.op = 0x05 → lane fo r k = roundTo fo md (va.min vb)) ∧ (b.op = 0x06 → lane fo r k = roundTo fo md (va.max vb))
      ∧ (b.op = 0x07 → lane fo r k = roundTo fo md va.abs) ∧ (b.op = 0x08 → lane fo r k = roundTo fo md va.neg)
      ∧ (0x11 ≤ b.op → b.op ≤ 0x17 → lane fo r k = roundTo fo md (specialVal b.op md va))
      ∧ (b.op = 0x18 → b.imm ∈ [1, 2, 4, 8, 16, 32, 64] → y < 2 ^ 512 →
        let scale := toSigned 8 (y / 2 ^ (8 * (k / b.imm)) % 2 ^ 8)
        lane fo r k = if scale = -128 then 0 else roundTo fo md (va.scale scale)))
    ∧ (k < 16 → fi = .int32 → fo = .int32 →
      let a := toSigned 32 A
      let c := toSigned 32 B
      let stored (v : Int) : Nat := if -(2 ^ 31) ≤ v ∧ v < 2 ^ 31 then wrapInt 32 v
        else if md.sat = true ∧ 0 ≤ v then 2 ^ 31 - 1 else 2 ^ 31
      (b.op = 0x01 → lane fo r k = stored (a + c)) ∧ (b.op = 0x02 → lane fo r k = stored (a - c))
      ∧ (b.op = 0x03 → lane fo r k = stored (a * c))
      ∧ (b.op = 0x04 → lane fo r k = stored (a * c + toSigned 32 (lane fi z k)))
      ∧ (b.op = 0x05 → lane fo r k = stored (min a c)) ∧ (b.op = 0x06 → lane fo r k = stored (max a c))
      ∧ (b.op = 0x07 → lane fo r k = stored (a.natAbs : Int)) ∧ (b.op = 0x08 → lane fo r k = stored (-a)))
    ∧ (b.op = 0x10 → k < fo.lanes →
      (fi.lanes ≤ fo.lanes → lane fo r k = if k < fi.lanes then roundTo fo md va else 0)
      ∧ (fo.lanes < fi.lanes → b.mode < fi.lanes / fo.lanes →
        lane fo r k = roundTo fo md (fi.operand md.ftz (lane fi x (b.mode * fo.lanes + k))))))
  ∧ (∀ (md : Mods) (n : Bool) (e : Int) (j m : Nat),
    specialVal 0x11 md (.fin n 0 e) = .inf n ∧ specialVal 0x11 md (.inf n) = .fin n 0 0
    ∧ specialVal 0x11 md (.fin n (2 ^ j) e) = .fin n 1 (-(e + j))
    ∧ specialVal 0x12 md (.fin n 0 e) = .inf n ∧ (0 < m → specialVal 0x12 md (.fin true m e) = .nan)
    ∧ specialVal 0x12 md (.inf false) = .fin false 0 0
    ∧ specialVal 0x13 md (.inf n) = (if n = true then .fin false 0 0 else .inf false)
    ∧ specialVal 0x14 md (.fin n 0 e) = .inf true ∧ (0 < m → specialVal 0x14 md (.fin true m e) = .nan)
    ∧ specialVal 0x14 md (.inf false) = .inf false
    ∧ specialVal 0x15 md (.inf n) = .nan ∧ specialVal 0x16 md (.inf n) = .nan
    ∧ specialVal 0x17 md (.fin n 0 e) = .fin n 0 e ∧ (9 ≤ m → specialVal 0x17 md (.fin n m 0) = .fin n 1 0)
    ∧ specialVal 0x17 md (.inf n) = .fin n 1 0 ∧ ∀ op, 0x11 ≤ op → op ≤ 0x17 → specialVal op md .nan = .nan)
  ∧ (∀ (b : BSlot) (w x y k : Nat) (acc : List Nat),
    let fi := CfgWord.inf w
    let fo := CfgWord.of w
    let md := CfgWord.mods w
    let lane (f : Fmt) (v j : Nat) : Nat := v / 2 ^ (f.width * j) % 2 ^ f.width
    let ints : List Int := (List.range fi.lanes).map fun j => toSigned fi.width (lane fi x j)
    let val (j : Nat) : FVal := fi.operand md.ftz (lane fi x j)
    let fa : Fmt := if fi = .int8 then .int32 else .fp32
    let half := fi.lanes / 2
    (fi = .int8 ∨ fi = .int32 → reduceCtl 0x28 w x = wrapInt 64 ints.sum
      ∧ (∃ m ∈ ints, (∀ v ∈ ints, v ≤ m) ∧ reduceCtl 0x29 w x = wrapInt 64 m)
      ∧ ∃ m ∈ ints, (∀ v ∈ ints, m ≤ v) ∧ reduceCtl 0x2A w x = wrapInt 64 m)
    ∧ (fi = .fp32 → ∀ t : Nat → Nat → Nat, (∀ i, t 0 i = lane fi x i) →
      (∀ i j, t (i + 1) j = roundTo .fp32 md ((Fmt.fp32.operand md.ftz (t i (2 * j))).add md.rm (Fmt.fp32.operand md.ftz (t i (2 * j + 1))))) →
      reduceCtl 0x28 w x = roundTo .fp32 md (Fmt.fp32.operand md.ftz (t 4 0)))
    ∧ (k < fo.lanes → lane fo (reduceData b w x) k =
      if k = 0 ∨ b.mode % 2 = 1 then roundTo fo md (reduceVal b.op fi md x) else 0)
    ∧ (k < fi.lanes → (accStep w acc x)[k]? = some (roundTo fa md ((fa.operand md.ftz ((acc[k]?).getD 0)).add md.rm (val k))))
    ∧ (accEmit w acc).length = max 1 (fi.lanes / fo.lanes)
    ∧ (∀ q v, (accEmit w acc)[q]? = some v → k < fo.lanes → lane fo v k =
      if q * fo.lanes + k < fi.lanes then roundTo fo md (fa.operand md.ftz ((acc[q * fo.lanes + k]?).getD 0)) else 0)
    ∧ (∀ t : Nat → Nat, (∀ i, t (i + 1) = roundTo .fp32 md ((Fmt.fp32.operand md.ftz (t i)).add md.rm (val i))) →
      (scanStep w (t 0) x).2 = t fi.lanes
      ∧ (fi.lanes ≤ fo.lanes → k < fo.lanes → lane fo (scanStep w (t 0) x).1 k =
        if k < fi.lanes then roundTo fo md (Fmt.fp32.operand md.ftz (t (k + 1))) else 0))
    ∧ (b.op = 0x30 → k < fi.lanes → lane fi (moveLanes b w x y) k =
      let j := y / 2 ^ (8 * k) % 256
      if b.mode = 1 ∧ fi.lanes ≤ j then 0 else lane fi x (j % fi.lanes))
    ∧ (b.op = 0x31 → k < half →
      let from' := if b.mode = 1 then 2 * k else k
      lane fi (moveLanes b w x y) k = lane fi x from' ∧ lane fi (moveLanes b w x y) (half + k) = lane fi y from')
    ∧ (b.op = 0x32 → b.mode < 4 → k < half →
      let part := lane fi x (b.mode % 2 * half + k)
      if b.mode / 2 = 1 then lane fi (moveLanes b w x y) (2 * k) = part ∧ lane fi (moveLanes b w x y) (2 * k + 1) = 0
      else lane fi (moveLanes b w x y) k = part ∧ lane fi (moveLanes b w x y) (half + k) = 0)
    ∧ (b.op = 0x33 → k < fi.lanes → lane fi (moveLanes b w x y) k = lane fi x (b.imm % fi.lanes))
    ∧ extractLane b w x = (let p := lane fi x (b.imm % fi.lanes)
      if fi = .int8 ∨ fi = .int32 then wrapInt 64 (toSigned fi.width p) else if fi = .int4 then wrapInt 64 (toSigned 4 p) else p)
    ∧ (b.pl = false → k < fo.lanes → b.imm < 2 ^ 16 → lane fo (constPayload b w) k =
      if fo = .fp32 then b.imm * 65536 else if fo = .int32 then wrapInt 32 (toSigned 16 b.imm) else b.imm % 2 ^ fo.width)
    ∧ (b.pl = true → constPayload b w = wrapInt 64 (toSigned 16 b.imm))
    ∧ (acc.length = 16 → k < 16 →
      (b.mode % 2 = 0 → mrdResult b w fa acc / 2 ^ (32 * k) % 2 ^ 32 = (acc[k]?).getD 0 % 2 ^ 32)
      ∧ (b.mode % 2 = 1 → 16 ≤ fo.lanes →
        lane fo (mrdResult b w fa acc) k = roundTo fo md (fa.operand md.ftz ((acc[k]?).getD 0)))))
  ∧ (∀ (b : BSlot) (x y z : Nat), x < 2 ^ 64 → y < 2 ^ 64 → z < 2 ^ 64 → b.imm < 2 ^ 16 →
    let clamped (v : Int) : Nat := wrapInt 64 (max (-(2 ^ 63)) (min (2 ^ 63 - 1) v))
    (b.op = 0x50 → b.mode % 2 = 0 → ctlOp b x y z = wrapInt 64 ((x : Int) + y + toSigned 16 b.imm))
    ∧ (b.op = 0x50 → b.mode % 2 = 1 → ctlOp b x y z = clamped (toSigned 64 x + toSigned 64 y + toSigned 16 b.imm))
    ∧ (b.op = 0x51 → b.mode % 2 = 0 → ctlOp b x y z = (x * y + z) % 2 ^ 64)
    ∧ (b.op = 0x51 → b.mode % 2 = 1 → ctlOp b x y z = clamped (toSigned 64 x * toSigned 64 y + toSigned 64 z))
    ∧ (b.op = 0x4C → ctlOp b x y z = if 2 ^ 63 ≤ x then x else if 2 ^ 63 ≤ y then y else (x + y * b.imm) % 2 ^ 64))
  ∧ (∀ (q : Quad) (f : Firing) (n u : Nat), q.executes f n = true → n < q.ops.length →
    let s := q.slot n
    let w := q.word n
    let st := q.op n
    let p (o : Nat) : Nat := ((q.operandTok f n o).map (·.pay)).getD 0
    let sent (r : Quad) (lat v : Nat) : Quad × Firing := r.deliver f n (u + lat) (fun _ => true) ⟨v, f.tag, f.lem, false⟩
    let e := q.execValue f n u
    let yes : Prop := (p 1 ≠ 0 ∧ s.mode % 2 = 0) ∨ (p 1 = 0 ∧ s.mode % 2 = 1)
    (1 ≤ s.op → s.op ≤ 0x18 → e = sent q (if s.op = 0x04 then 3 else if 0x11 ≤ s.op ∧ s.op ≤ 0x17 then 6 else 2) (elementwise s w (p 0) (p 1) (p 2)))
    ∧ (0x28 ≤ s.op → s.op ≤ 0x2A → e = sent q 4 (if s.pl = true then reduceCtl s.op w (p 0) else reduceData s w (p 0)))
    ∧ (s.op = 0x2C → e = sent (q.setOp n fun st => { st with carry := (scanStep w st.carry (p 0)).2 }) 4 (scanStep w st.carry (p 0)).1)
    ∧ (s.op = 0x2B → (e.1.op n).acc = accStep w st.acc (p 0) ∧ (e.1.op n).cnt = st.cnt + 1 ∧ e.1.links = q.links ∧ e.2 = f)
    ∧ (s.op = 0x30 ∨ s.op = 0x31 → e = sent q (if s.op = 0x30 then 2 else 1) (moveLanes s w (p 0) (p 1)))
    ∧ (s.op = 0x32 ∨ s.op = 0x33 → e = sent q 1 (moveLanes s w (p 0) 0))
    ∧ (s.op = 0x34 → e = sent q 1 (extractLane s w (p 0)))
    ∧ (s.op = 0x3E → e = sent q 1 (constPayload s w))
    ∧ (s.op = 0x4C ∨ s.op = 0x50 → e = sent q 1 (ctlOp s (p 0) (p 1) 0)) ∧ (s.op = 0x51 → e = sent q 2 (ctlOp s (p 0) (p 1) (p 2)))
    ∧ (s.op = 0x22 → e = sent (q.setOp s.imm fun st => { st with
        sa := (List.range 64).map fun i => p 0 / 2 ^ (8 * i) % 2 ^ 8
        sb := (List.range 64).map fun i => p 1 / 2 ^ (8 * i) % 2 ^ 8 }) 1 (p 0))
    ∧ (s.op = 0x23 → e = sent (if s.mode / 2 % 2 = 1 then q.setOp s.imm fun st => { st with
          acc := List.replicate 16 0
          kb := 0 } else q) 3
        (mrdResult s w (if CfgWord.inf (q.word s.imm) = .int8 then .int32 else .fp32) (q.op s.imm).acc))
    ∧ (s.op = 0x24 → e = sent (q.setOp s.imm fun st => { st with
        acc := List.replicate 16 0
        kb := 0
        sa := if s.mode % 2 = 1 then List.replicate 64 0 else st.sa
        sb := if s.mode % 2 = 1 then List.replicate 64 0 else st.sb }) 1 (p 0))
    ∧ (s.op = 0x38 → (yes → e = q.deliver f n (u + 1) (fun i => i == 0) ⟨p 0, f.tag, f.lem, false⟩)
      ∧ (¬ yes → e = q.deliver f n (u + 1) (fun i => !(i == 0)) ⟨p 0, f.tag, f.lem, false⟩))
    ∧ (s.op = 0x3B → (yes → e = sent q 1 (p 0)) ∧ (¬ yes → e = (q, f)))
    ∧ (s.op = 0x39 → e = sent q 1 (if (q.operandTok f n 0).isSome = true then p 0 else p 1))
    ∧ (s.op = 0x3A → e = sent q 1 (if p 2 ≠ 0 then p 1 else p 0))
    ∧ (s.op = 0x3C → (e.1.op n).cnt = st.cnt + 1 ∧ e.1.links = q.links ∧ e.2 = f)
    ∧ (s.op = 0x3D → ∀ t, q.operandTok f n 0 = some t → (e.1.op n).line = st.line.drop 1 ++ [some t] ∧ e.2 = f
      ∧ (e.1.op n).queue = st.queue ++ [⟨((st.line.head?).getD none).getD ⟨0, t.tag, false, false⟩, u, false⟩])
    ∧ (s.op = 0x3F → e = sent (q.setOp n fun st => { st with
        x := let y := (st.x + s.mode) % 2 ^ 64
          if s.imm ≠ 0 ∧ s.imm ≤ y then 0 else y }) 1 st.x)
    ∧ (s.op = 0x40 → ∀ t, q.operandTok f n 0 = some t →
      let d := q.deliver f n (u + 1) (fun _ => true) t
      let last : Prop := if s.pl = true then 2 ^ 63 ≤ t.pay % 2 ^ 64 else t.lem = true
      (last → e = d.1.deliver d.2 n (u + 2) (fun _ => true) ⟨0, t.tag, false, true⟩) ∧ (¬ last → e = d))
    ∧ (s.op = 0x48 ∨ s.op = 0x49 → p 0 < 2 ^ 64 → p 1 < 2 ^ 64 → ∃ r, (e.1.op n).run = some r ∧ e.2 = f ∧ r.next = p 0 ∧ r.stop = p 1
      ∧ (r.tiles = true ↔ s.op = 0x49) ∧ (s.op = 0x49 → r.step = s.imm)
      ∧ (p 0 < 2 ^ 63 → p 1 < 2 ^ 63 → r.onlyStop = false ∧ r.level = 0)
      ∧ (2 ^ 63 ≤ p 0 ∨ 2 ^ 63 ≤ p 1 → r.onlyStop = true
        ∧ r.level = min 15 (max (if 2 ^ 63 ≤ p 0 then p 0 % 16 else 0) (if 2 ^ 63 ≤ p 1 then p 1 % 16 else 0) + 1)))
    ∧ (s.op = 0x4D → st.pend.length < (CfgWord.inf w).lanes →
      let fi := CfgWord.inf w
      let lane (v j : Nat) : Nat := v / 2 ^ (fi.width * j) % 2 ^ fi.width
      let kept := ((List.range fi.lanes).filter fun j => lane (p 1) j != 0).map fun j => lane (p 0) j
      let all := st.pend ++ kept
      (all.length < fi.lanes → (e.1.op n).pend = all ∧ (e.1.op n).queue = st.queue)
      ∧ (fi.lanes ≤ all.length → (e.1.op n).pend = all.drop fi.lanes ∧ ∃ lem, (e.1.op n).queue
          = st.queue ++ [⟨⟨packFields fi.width (all.take fi.lanes), f.tag, lem, false⟩, u + 1, false⟩]
        ∧ (lem = true ↔ st.lem = true ∨ (q.opLem f n = true ∧ kept ≠ [] ∧ all.length = fi.lanes)))))
  ∧ (∀ (a b : Tok) (xs ys : List Tok) (isect pos : Bool) (st : OpState), a.mkr = false → b.mkr = false →
    a.pay < 2 ^ 64 → b.pay < 2 ^ 64 →
    let stopA : Prop := 2 ^ 63 ≤ a.pay
    let stopB : Prop := 2 ^ 63 ≤ b.pay
    let pair (i j : Nat) : Nat := i + j * 2 ^ 32
    let takes := Quad.pickCoord isect false (a :: xs) (b :: ys)
    (stopA → stopB → takes = some (1, 1)
      ∧ Quad.coordResult isect pos st a.pay b.pay 1 1 = (some (2 ^ 63 + max (a.pay % 16) (b.pay % 16)), 0, 0))
    ∧ (¬ stopA → ¬ stopB → a.pay = b.pay → takes = some (1, 1) ∧ Quad.coordResult isect pos st a.pay b.pay 1 1
      = (some (if pos = true then pair (st.ordA % 2 ^ 31) (st.ordB % 2 ^ 31) else a.pay), st.ordA + 1, st.ordB + 1))
    ∧ (¬ stopA → stopB ∨ a.pay < b.pay → takes = some (1, 0) ∧ Quad.coordResult isect pos st a.pay b.pay 1 0
      = (if isect = true then none else some (if pos = true then pair (st.ordA % 2 ^ 31) 0x7FFFFFFF else a.pay), st.ordA + 1, st.ordB))
    ∧ (¬ stopB → stopA ∨ b.pay < a.pay → takes = some (0, 1) ∧ Quad.coordResult isect pos st a.pay b.pay 0 1
      = (if isect = true then none else some (if pos = true then pair 0xFFFFFFFF (st.ordB % 2 ^ 31) else b.pay), st.ordA, st.ordB + 1))
    ∧ (∀ m, m ≤ 4 → 0 < m → ¬ stopB → (m ≤ xs.length + 1) →
      (∀ t ∈ (a :: xs).take m, t.mkr = false ∧ t.tag = a.tag ∧ t.pay < b.pay) →
      (m = 4 ∨ ∃ t, (a :: xs)[m]? = some t ∧ b.pay ≤ t.pay) → Quad.pickCoord true true (a :: xs) (b :: ys) = some (m, 0)))
  ∧ (∀ r : LoopRun, r.onlyStop = false →
    (r.stop ≤ r.next → Quad.runNext r = (2 ^ 63 + r.level, none))
    ∧ (r.next < r.stop → r.tiles = false → Quad.runNext r = (r.next, some { r with next := r.next + 1 }))
    ∧ (r.next < r.stop → r.tiles = true → Quad.runNext r
      = (r.next % 2 ^ 48 + min r.step (r.stop - r.next) * 2 ^ 48, some { r with next := r.next + r.step })))

/-- R220 to R228. That MRK passes over a port of its mask that the binding does not map is the model's (log 27). -/
def Obligations.ArrayEngine : Prop :=
  (∀ (s : State) (c : Cmd) (rest : List Cmd) (n : Nat), s.me.queueA = c :: rest → (∀ x ∈ rest, x.seq ≠ c.seq) →
    s.me.stage = .running → c.lane = some n → s.me.lane n = none →
    ∃ t, exec (.engineCommandDequeue 0) s = .next t ∧ t.me.queueA = rest
      ∧ ((s.setMe fun l => { l with queueA := rest }).engineRejects s.cur c false = none →
          t.me.lane n = some { c with
            st := .waiting
            left := s.acStart s.cur }))
  ∧ (∀ (s : State) (c : Cmd) (rest : List Cmd) (n : Nat), s.me.queueE = c :: rest → (∀ x ∈ rest, x.seq ≠ c.seq) →
    s.me.stage = .running → c.lane = some n → s.me.lane n = none →
    (s.setMe fun l => { l with queueE := rest }).engineRejects s.cur c true = none → (2 ≤ n → n - 2 < s.me.channels.length) →
    ∃ t, exec (.engineCommandDequeue 1) s = .next t ∧ t.me.queueE = rest ∧ t.me.lane n = some { c with
      st := .waiting
      left := s.acStart s.cur
      cursor := if c.kind = 0x49 then c.cursorW else c.cursor })
  ∧ (∀ (s : State) (c : Cmd), s.LaneReady 0 c → s.core.sts.length < 32 →
    let now := s.acOf s.cur
    let q := s.quadNow s.cur
    let marked (p : Nat) : Prop := p < 48 ∧ c.aux0.testBit p = true ∧ q.mapsIn p = true
    let tokens := (q.inPorts.map fun e => e.2.q.length).sum
    let answer := qstateCode q.st + (if q.quiescent now = true then 8 else 0) + tokens % 2 ^ 16 * 2 ^ 16
    (c.kind = 0x40 → s.cfgCode s.cur c.aux0 = none → q.st ≠ .draining → (∀ e ∈ q.inPorts, e.2.incoming = []) →
      let b := readBlock (s.arenaByte s.cur) s.me.pkt.cfgtab c.aux0 ((s.listed s.cur c.aux0).place.getD {})
      ∃ t, exec .cfg s = .next t ∧ LaneDone s t 0 c b.blkid c.doneBit true ∧ t.me.quad = q.reload b now
        ∧ t.me.quad.st = .loaded ∧ t.me.quad.outPorts = q.outPorts)
    ∧ (∀ code, c.kind = 0x40 → s.cfgCode s.cur c.aux0 = some code → c.trapf = true → ∃ t, exec .cfg s = .next t
        ∧ t.me.quad = s.me.quad
        ∧ t.core.pend = s.core.pend ++ [⟨0x07, c.head, BitVec.ofNat 64 (code % 256 + c.aux0 % 2 ^ 32 * 2 ^ 32)⟩])
    ∧ (c.kind = 0x41 → s.me.quad.st ≠ .draining → ∃ t, exec .run s = .next t ∧ LaneDone s t 0 c 0 c.doneBit true
        ∧ t.me.quad = { s.me.quad with st := .run })
    ∧ (c.kind = 0x42 → s.me.quad.st = .run → ∃ t, exec .drn s = .next t
        ∧ t.me.quad = { s.me.quad with st := .draining } ∧ t.core.sts = s.core.sts
        ∧ ∃ d, t.me.lane 0 = some d ∧ d.started = true ∧ d.seq = c.seq)
    ∧ (c.kind = 0x42 → s.me.quad.st ≠ .run → s.me.quad.st ≠ .draining → ∃ t, exec .drn s = .next t
        ∧ LaneDone s t 0 c tokens c.doneBit true ∧ t.me.quad = s.me.quad)
    ∧ (c.kind = 0x43 → c.aux0.testBit 0 = true → ∃ t, exec .qui s = .next t ∧ LaneDone s t 0 c answer true true
        ∧ t.me.quad = s.me.quad)
    ∧ (c.kind = 0x43 → c.aux0.testBit 0 = false → ∃ t, exec .qui s = .next t ∧ t.core.sts = s.core.sts
        ∧ ∃ d, t.me.lane 0 = some d ∧ d.started = true ∧ d.seq = c.seq)
    ∧ (c.kind = 0x44 → q.frozen = false → (∀ p, marked p → (q.port p).incoming = [] ∧ (q.port p).q.length < 8) →
        ∃ t, exec .mrk s = .next t ∧ LaneDone s t 0 c 0 c.doneBit true
          ∧ (∀ p, marked p → t.me.quad.port p = { q.port p with
              q := (q.port p).q ++ [markerTok (q.port p).pr]
              pr := (q.port p).pr + 1 })
          ∧ (∀ p, ¬ marked p → t.me.quad.port p = q.port p))
    ∧ (c.kind = 0x45 → (c.aux0 < 48 ∨ (64 ≤ c.aux0 ∧ c.aux0 < 96)) →
        let ts := if c.aux0 < 48 then (q.port c.aux0).q else (q.outPort (c.aux0 - 64)).map (·.1)
        let side := if c.aux0 < 48 then c.aux0 else 36 + c.aux0
        let bound := s.me.eng.flying.find? fun x : Cmd => (x.sides s.cur).contains side
        ∃ t, exec .prt s = .next t ∧ LaneDone s t 0 c
          (min ts.length 8 + (if (ts.any fun t => t.mkr && !t.lem) = true then 16 else 0) + (if bound.isSome = true then 32 else 0)
            + ((bound.map (·.seq)).getD 0) * 2 ^ 16) true true))
  ∧ (∀ (s : State) (c : Cmd), s.me.array = some c → c.started = true → c.st = .running → c.late = false →
    s.me.stage = .running → s.core.sts.length < 32 → s.core.countedNow (s.acStart s.cur) c.signalMask = false →
    let q := s.quadNow s.cur
    let tokens := (q.inPorts.map fun e => e.2.q.length).sum
    q.quiescent (s.acOf s.cur) = true →
    (c.kind = 0x42 → q.st = .draining → q.resting (s.acOf s.cur) = true → q.stepsDone = true → ∃ t, exec .regionDrained s = .next t ∧ LaneDone s t 0 c tokens c.doneBit false
      ∧ t.me.quad = ({ q with st := .drained } : Quad).tryCut (s.acOf s.cur))
    ∧ (c.kind = 0x43 → ∃ t, exec .quiAnswer s = .next t
      ∧ LaneDone s t 0 c (qstateCode q.st + 8 + tokens % 2 ^ 16 * 2 ^ 16) true false ∧ t.me.quad = s.me.quad))

/-- R230 to R232, R410 to R412, R421, R423. CLOD reads tile store as the task sees it (log 84). -/
def Obligations.ChainEngine : Prop :=
  (∀ (s : State) (c : Cmd), s.LaneReady 1 c → s.core.sts.length < 32 →
    (∀ first count, c.kind = 0x48 → c.aux1 = count + first * 2 ^ 16 → 1 ≤ count → first + count ≤ 32 → c.aux0 % 16 = 0 →
      c.aux0 + 16 * count ≤ s.core.arenabound.toNat → s.me.chain.prog.length = 32 →
      let word (o : Nat) : Word := BitVec.ofNat 64 (readNum (s.arenaByte s.cur) o 8)
      ∃ t, exec .ord s = .next t ∧ LaneDone s t 1 c 0 c.doneBit true ∧ t.me.chain.bnd = s.me.chain.bnd
        ∧ ∀ k, k < 32 → t.me.chain.prog[k]? = if first ≤ k ∧ k < first + count
          then some (word (c.aux0 + 16 * (k - first)), word (c.aux0 + 16 * (k - first) + 8)) else s.me.chain.prog[k]?)
    ∧ (c.kind = 0x49 → c.cursorW = 0 → c.runBad = none → ∃ t, exec .crun s = .next t
      ∧ t.me.chain.bnd = (if c.aux0.testBit 16 = true then s.me.chain.bnd else ⟨1, 1, 1, [0x3F800000]⟩)
      ∧ t.me.chain.prog = s.me.chain.prog
      ∧ ∃ d, t.me.chain.cmd = some d ∧ d.seq = c.seq ∧ d.acted = true ∧ d.stepAt = c.aux0 % 32)
    ∧ (∀ r, c.kind = 0x49 → c.runBad = some r → c.trapf = true → c.bound = false → ∃ t, exec .crun s = .next t
      ∧ t.me.chain.bnd = (if c.aux0.testBit 16 = true then s.me.chain.bnd else ⟨1, 1, 1, [0x3F800000]⟩)
      ∧ t.core.pend = s.core.pend ++ [⟨r.cause, c.head, r.val⟩])
    ∧ (c.kind = 0x4A → s.core.jnl = false → c.aux0 + s.me.chain.bnd.image.length ≤ 524288 → ∃ t, exec .csav s = .next t
      ∧ LaneDone s t 1 c s.me.chain.bnd.image.length c.doneBit true ∧ t.me.chain.bnd = s.me.chain.bnd
      ∧ ∀ a, getByte t.me.store a = if c.aux0 ≤ a ∧ a < c.aux0 + s.me.chain.bnd.image.length
        then (s.me.chain.bnd.image[a - c.aux0]?).getD 0 else getByte s.me.store a)
    ∧ (∀ k a u, c.kind = 0x4B → s.me.badWords = [] → k < 2 ^ 32 → 1 ≤ a → a ≤ 1024 → u < 2 ^ 32 →
      c.aux0 + 64 + 4 * (k * a * u) ≤ 524288 → 4 * (k * a * u) ≤ s.me.pkt.chb * 1024 →
      s.me.viewLE c.aux0 8 = k + a * 2 ^ 32 → s.me.viewLE (c.aux0 + 8) 8 = u →
      s.me.viewLE (c.aux0 + 16) 48 = 0 → ∃ t, exec .clod s = .next t
        ∧ LaneDone s t 1 c (64 + 4 * (k * a * u)) c.doneBit true ∧ t.me.store = s.me.store
        ∧ t.me.chain.bnd = ⟨k, a, u, (List.range (k * a * u)).map fun m => s.me.viewLE (c.aux0 + 64 + 4 * m) 4⟩))
  ∧ (∀ (s : State) (c : Cmd) (vs : List Nat), s.me.chain.cmd = some c → c.kind = 0x49 → c.acted = true → c.st = .running →
    c.notice = none → c.waitGranule = none → c.stepAt < c.lastStep → s.me.stage = .running → s.me.chain.begun = false →
    let p := ChainStep.ofWords ((s.me.chain.prog[c.stepAt]?).getD (0, 0))
    let b := s.me.chain.bnd
    let bond := c.bond p.bond
    let u := s.setChain s.cur fun h => { h with
      begun := true
      formed := []
      again := c.pushedAt }
    let r := p.shape b.k b.t bond
    s.me.stepBad c p = none → vs.length = r.1 * r.2.1 * r.2.2 → c.pushedAt = 0 →
    (p.push = true → s.core.chf.length + vs.length ≤ 64) → (s.core.jnl = false ∨ vs.length = 1) →
    (∀ m v, vs[m]? = some v → u.chainSum s.cur c p b (b.a * p.i * p.j * bond) 0 (p.terms b.a b.t bond m) = .val v) →
    ∀ e, (p.mode = 0 ∧ e = .chainStepKeep) ∨ (p.mode = 1 ∧ e = .chainStepSumInput) ∨ (p.mode = 2 ∧ e = .chainStepPair) →
      ∃ t, exec e s = .next t ∧ t.me.chain.bnd = ⟨r.1, r.2.1, r.2.2, vs⟩
        ∧ t.core.chf = s.core.chf ++ (if p.push = true then vs.map (BitVec.ofNat 64) else [])
        ∧ t.me.chain.prog = s.me.chain.prog ∧ t.mem = s.mem ∧ t.me.store = s.me.store
        ∧ ∃ d, t.me.chain.cmd = some d ∧ d.stepAt = c.stepAt + 1)
  ∧ (∀ b : Boundary, b.image.length = 64 + 4 * b.elems.length)

/-- R234, R452, R455. What a coded frame holds is a value of Config. The codec level limits that paramsOk takes with R453 are log 28
(PRESUMED), and a block beyond the share is log 29. -/
def Obligations.EncodeChannels : Prop :=
  (∀ (s : State) (c : Cmd) (ch : Fin 4), s.LaneReady (2 + ch.val) c → s.core.sts.length < 32 → s.me.channels.length = 4 →
    let ws := s.me.block128 c.aux1
    let e := s.freest (dieOf (nodeOf s.cur))
    let rate := (encWidth ws * encHeight ws * encNum ws, encDen ws)
    (c.kind = 0x80 → s.me.blockBad c.aux1 = none → s.me.tileUnread = false →
      (paramsOk ws = true → rateLt (engineRate, 1) (addRate (s.reserved e) rate) = false → ∃ t, exec (.eopn ch.val) s = .next t
        ∧ LaneDone s t (2 + ch.val) c e c.doneBit true ∧ t.me.channels[ch.val]? = some ⟨none, some e, ws, []⟩
        ∧ t.encodes = s.encodes ++ [⟨e, s.me.age, ch.val, rate.1, rate.2⟩])
      ∧ (∀ reason, (paramsOk ws = false ∧ reason = 1)
          ∨ (paramsOk ws = true ∧ rateLt (engineRate, 1) (addRate (s.reserved e) rate) = true ∧ reason = 2) →
        c.trapf = true → ∃ t, exec (.eopn ch.val) s = .next t ∧ t.encodes = s.encodes
        ∧ t.core.pend = s.core.pend ++ [⟨0x0F, c.head, c.formatVal 0x10⟩]
        ∧ (t.me.eng.failed.head?).map (·.detail) = some (0x10 + reason * 2 ^ 13)))
    ∧ (c.kind = 0x82 → ∃ t, exec (.ecls ch.val) s = .next t ∧ LaneDone s t (2 + ch.val) c 0 c.doneBit true
        ∧ t.me.channels[ch.val]? = some {}
        ∧ t.encodes = s.encodes.filter fun r => !(r.age == s.me.age && r.channel == ch.val))
    ∧ (∀ h bs, c.kind = 0x81 → s.me.channels[ch.val]? = some h → c.fin = false → s.me.blockBad c.aux1 = none → s.me.tileUnread = false →
      descriptorOk ws h.params = true → s.me.frameRegions ws = none → c.notice = none → c.waitGranule = none →
      let u := (s.setCore (·.takeWaits (s.acStart s.cur) c.waitMask)).setLane s.cur (2 + ch.val) (some { c with
        waited := true
        st := .running
        started := true })
      u.laneBytes s.cur (2 + ch.val) { c with
        waited := true
        st := .running
        started := true } (wordAt ws 2 / 2 ^ 60) (frameBytes ws h.params) = .ok bs →
      ∃ t d, exec (.efrm ch.val) s = .next t ∧ t.me.lane (2 + ch.val) = some d ∧ d.fin = true ∧ d.cursor = 0
        ∧ d.run.drop 1 = ((sampleBytes (encDepth h.params) bs).map fun v => v % 256) ∧ t.mem = s.mem))
  ∧ (∀ (s : State) (c : Cmd) (ch : Fin 4), s.me.lane (2 + ch.val) = some c → s.me.stage = .running → c.kind = 0x81 →
    c.started = true → c.st = .running → c.fin = true → s.me.blockBad c.aux1 = none → s.me.tileUnread = false →
    let ws := s.me.block128 c.aux1
    let r := writeFrame s.cur (2 + ch.val) (wordAt ws 6 / 2 ^ 60) (wordAt ws 6 % 2 ^ 48) c.outn c.ready.length s c
    r.2.2 = true → r.2.1.late = false → c.ready.length ≤ wordAt ws 7 % 2 ^ 32 → r.1.core.sts.length < 32 → r.1.cur = s.cur →
    r.1.core.countedNow (r.1.acStart s.cur) r.2.1.signalMask = false →
    ∃ t, exec (.efrm ch.val) s = .next t ∧ LaneDone r.1 t (2 + ch.val) r.2.1 c.ready.length c.doneBit false ∧ t.mem = r.1.mem)

/-- R171, R307, R308, R397, R398, R405, R406. When a wound is taken relative to its ac and to a COMMIT in that ac is the model's (log 93). -/
def Obligations.HomesAndLocks : Prop :=
  (∀ (s : State) (k : Nat) (u : Update) (a : Nat), s.updates[k]? = some u → s.firstUpdate k u = true → s.badLoc u = false →
    u.loc = .phys a →
    let n := ((Fmt.ofEfmt u.efmt).getD .octet).width / 8
    (u.round = none → ∃ t, exec (.homeRmwApply k) s = .next t ∧ t.updates = ldel k s.updates
      ∧ readLE t.mem a n = rmwNew u.efmt u.op u.mods (readLE s.mem a n) u.x % 256 ^ n
      ∧ ∀ b, (b < a ∨ a + n ≤ b) → getByte t.mem b = getByte s.mem b)
    ∧ (∀ r, u.round = some r → (s.slotAt u.ctx).quad.cuts ≤ r → s.bufferFull u = false →
      ∃ t, exec (.homeRmwApply k) s = .next t ∧ t.updates = ldel k s.updates ∧ t.buffers = s.buffers ++ [u] ∧ t.mem = s.mem))
  ∧ (∀ (s : State) (u : Update) (a r : Nat), s.buffers = [u] → u.ctx = s.cur → u.round = some r → r < s.me.quad.cuts →
    u.loc = .phys a → s.badLoc u = false → s.me.quad.cutTold = false → s.me.eng.delayed = [] →
    let n := ((Fmt.ofEfmt u.efmt).getD .octet).width / 8
    let q := { s.me.quad.settle (s.acOf s.cur) with cutTold := true }
    ∃ t, exec .roundBufferApply s = .next t ∧ t.buffers = [] ∧ t.me.quad = q.tryCut (s.acOf s.cur)
      ∧ (q.cutReady = false → t.me.quad.cutTold = true)
      ∧ readLE t.mem a n = rmwNew u.efmt u.op u.mods (readLE s.mem a n) u.x % 256 ^ n)
  ∧ (∀ (md : Mods) (old x : Nat), old < 2 ^ 32 → x < 2 ^ 32 →
    (md.sat = false → rmwNew 0x0A 1 md old x = (old + x) % 2 ^ 32) ∧ rmwNew 0x0A 4 md old x = old.land x
    ∧ rmwNew 0x0A 5 md old x = old.lor x ∧ rmwNew 0x0A 6 md old x = old.xor x ∧ rmwNew 0x0A 7 md old x = x)
  ∧ (∀ (s : State) (k : Nat) (x : Touch), s.touches[k]? = some x → (s.slotAt x.ctx).task.isSome = true →
    (s.slotAt x.ctx).age = x.age →
    (s.lockAt x.addr x.log2g = none → (s.locks.filter fun l => homeOf l.addr == homeOf x.addr).length < 8192 →
      ∃ t, exec (.granuleTouch k) s = .next t ∧ t.touches = ldel k s.touches ∧ t.holds x.age x.addr x.log2g = true)
    ∧ (∀ l, s.lockAt x.addr x.log2g = some l → l.holder = none →
      ∃ t, exec (.granuleTouch k) s = .next t ∧ t.touches = ldel k s.touches ∧ t.holds x.age x.addr x.log2g = true)
    ∧ (∀ l age ctx, s.lockAt x.addr x.log2g = some l → l.holder = some (age, ctx) → age ≠ x.age →
      (older x.age age = true → s.lockAc x.addr ≤ l.since → exec (.granuleTouch k) s = .next s)
      ∧ ((older x.age age = true → l.since < s.lockAc x.addr) → ∃ t, exec (.granuleTouch k) s = .next t
        ∧ t.touches = ldel k s.touches ∧ t.holds age x.addr x.log2g = true
        ∧ t.wounds = s.wounds ++ (if older x.age age = true ∧ l.commit = false ∧ s.isWounded age = false
            then [⟨ctx, age, x.age, false, s.stc⟩] else [])
        ∧ ∃ m, t.lockAt x.addr x.log2g = some m ∧ m.waiters = l.waiters ++ [⟨x.age, x.ctx, x.seq⟩]))
    ∧ (∀ l ctx, s.lockAt x.addr x.log2g = some l → l.holder = some (x.age, ctx) →
      exec (.granuleTouch k) s = .next { s with touches := ldel k s.touches }))
  ∧ (∀ (s : State) (k : Nat) (w : Wound) (ctx : Nat), s.wounds[k]? = some w → s.slotOf w.age = some ctx →
    (s.acStart ctx ≤ w.at' → exec (.wound k) s = .next s)
    ∧ (w.at' < s.acStart ctx → (s.slotAt ctx).core.commit = true → exec (.wound k) s = .next { s with wounds := ldel k s.wounds })
    ∧ (w.at' < s.acStart ctx → (s.slotAt ctx).core.commit = false → (s.slotAt ctx).core.sup = true →
      (w.arrived = true → exec (.wound k) s = .next s)
      ∧ (w.arrived = false → ∃ t, exec (.wound k) s = .next t ∧ (t.slotAt ctx).core.woundHeld = true
        ∧ (t.slotAt ctx).stage = (s.slotAt ctx).stage ∧ t.mem = s.mem))
    ∧ (∀ x, w.at' < s.acStart ctx → (s.slotAt ctx).core.commit = false → (s.slotAt ctx).core.sup = false → (s.slotAt ctx).task = some x →
      dieOf (nodeOf ctx) < s.dies.length → x.pkt.cls < (s.die (dieOf (nodeOf ctx))).queues.length →
      ∃ t, exec (.wound k) s = .next t ∧ (t.slotAt ctx).stage = .free ∧ (t.slotAt ctx).task = none
        ∧ ∃ q y, (t.die (dieOf (nodeOf ctx))).queues[x.pkt.cls]? = some (y :: q)
          ∧ y.task = { x with
              restarts := min 0xFFFF (x.restarts + 1)
              wounder := some w.source.toNat }))

/-- R327 to R330, R339, R342, R358. -/
def Obligations.FaultService : Prop :=
  (∀ (s : State) (k : Nat) (p : Patch) (ctx : Nat), s.patches[k]? = some p → (s.patches.take k).all (fun x => x.age != p.age) = true →
    s.slotOf p.age = some ctx → (p.down = true → s.accessBelow ctx p = false) →
    ∃ t, exec (if p.down = true then .shootDown k else .repatch k) s = .next t ∧ t.patches = ldel k s.patches
      ∧ (t.slotAt ctx).regions = lmod p.region (·.replace p.start p.len p.exts) (s.slotAt ctx).regions
      ∧ t.mem = s.mem)
  ∧ (∀ (s : State) (k : Nat) (n : NoticeMsg) (ctx : Nat) (m : Notice), s.notices[k]? = some n → s.slotOf n.age = some ctx →
    (s.slotAt ctx).noticeOf n = some m → (s.patches.all fun p => !(p.age == n.age && p.region == m.region)) = true →
    let l := s.slotAt ctx
    let d := (l.decl.regions[m.region]?).getD {}
    let r := (l.regions[m.region]?).getD {}
    (∀ start len exts, s.repair l.pkt.asid d r m = .patch start len exts → ∃ t, exec (.faultRepair k) s = .next t
      ∧ t.patches = s.patches ++ [⟨n.age, m.region, start, len, exts, false, none⟩] ∧ t.slots = s.slots)
    ∧ (∀ reason c, s.repair l.pkt.asid d r m = .fatal reason → n.engine = 0 → s.cmdAt ctx n.seq = some c → c.trapf = true →
      ∃ t, exec (.faultRepair k) s = .next t
        ∧ (t.slotAt ctx).core.pend = l.core.pend ++
          [⟨0x0D, c.head, BitVec.ofNat 64 (m.region * 2 ^ 48 + (m.elem % 2 ^ 48).toNat)⟩])
    ∧ (0 ≤ m.elem → s.invalids = [] → r.sess = false →
      let b := r.missing m.width m.elem.toNat
      s.page l.pkt.asid (d.va + b / 65536 * 65536) = none →
      s.repair l.pkt.asid d r m = .fatal (if r.length ≤ b then 0x21 else 0x20)))
  ∧ (∀ (s : State) (k : Nat) (v : Invalid), s.invalids[k]? = some v → v.sent = false → (∀ x ∈ s.invalids, x.sent = false) →
    (∀ x ∈ s.invalids, x.id = v.id → x = v) →
    ∃ t, exec (.invalidation k) s = .next t ∧ t.mem = s.mem
      ∧ t.patches = s.patches ++ (s.shotExts v.old v.size).map (fun x => ⟨x.1, x.2.1, x.2.2.1, x.2.2.2.len, absentExt x.2.2.2.len, true, some v.id⟩)
      ∧ ∃ w ∈ t.invalids, w.id = v.id ∧ w.sent = true)
  ∧ (∀ (s : State) (k f : Nat) (v : Invalid), s.invalids[k]? = some v → v.sent = true → v.new = some f →
    (s.patches.all fun p => p.inv != some v.id) = true → Memory.wf s.mem = true → (f + v.size ≤ v.old ∨ v.old + v.size ≤ f) →
    ∃ t, exec (.invalidation k) s = .next t ∧ (∀ x ∈ t.invalids, x.id ≠ v.id)
      ∧ (∀ o, o < v.size → getByte t.mem (f + o) = getByte s.mem (v.old + o))
      ∧ (∀ a, (a < f ∨ f + v.size ≤ a) → getByte t.mem a = getByte s.mem a))
  ∧ (∀ (s : State) (x : Nat × Nat), s.me.stage = .running → s.core.commit = false → s.overdue s.cur = some x →
    (s.core.sup = false → ∃ t, exec .drainLimitExpiry s = .next t ∧ t.me.stage = .gating ∧ t.me.draining = true
      ∧ t.core.ywait = none)
    ∧ (s.core.sup = true → s.me.drainHeld = false → ∃ t, exec .drainLimitExpiry s = .next t ∧ t.me.stage = .running
      ∧ t.me.drainHeld = true))
  ∧ (∀ s : State, s.me.runs = true → s.me.quad.st ≠ .empty → s.core.commit = false →
    (s.me.quad.frozen = false → ∃ t, exec .configScrub s = .next t ∧ t.mem = s.mem
      ∧ (t.me.quad = s.me.quad ∨ t.me.quad = { s.me.quad with frozen := true }))
    ∧ (∀ b, s.me.quad.frozen = true → s.arenaCopy s.cur = some b → ∃ t, exec .configScrub s = .next t
      ∧ t.me.quad.frozen = false ∧ t.me.quad.blk = some b ∧ t.me.quad.st = s.me.quad.st)
    ∧ (s.me.quad.frozen = true → s.arenaCopy s.cur = none → exec .configScrub s = .next (s.failTask s.cur 0x03)))
  ∧ (∀ (s : State) (d st : Nat), d < 4 → st < 4 → s.dies.length = 4 → st ∉ (s.die d).stations →
    ∃ t, exec (.stationFailure d st) s = .next t ∧ (t.die d).stations = st :: (s.die d).stations
      ∧ ∀ e, e ≠ d → t.die e = s.die e)

/-- R327, R360, R378, R381 to R385, R441, R451, R467; the register numbers are the model's choice (log 36). -/
def Obligations.QueuesAndRegisters : Prop :=
  (∀ (s : State) (q v : Nat), q < 256 → s.groupIndex < 32 →
    let h := s.hostQueue q
    let o := 2 ^ 21 * s.groupIndex + 64 * q
    (h.inn = true → ∃ t, exec (.tail o v) s = .next t ∧ (t.hostQueue q).tail = v % 2 ^ 32 ∧ (t.hostQueue q).head = h.head
      ∧ ((t.hostQueue q).err = true ↔ (h.err = true ∨ 2 ^ h.m < (v + 2 ^ 32 - h.head) % 2 ^ 32)))
    ∧ (h.inn = false → ∃ t, exec (.tail o v) s = .next t ∧ t.hostQueue q = { h with shadow := v % 2 ^ 32 })
    ∧ (h.inn = true → ∃ t, exec (.switchOut q) s = .next t ∧ t.hostQueue q = { h with
        inn := false
        shadow := h.tail
        saved := h.progress })
    ∧ (h.inn = false → (s.hostQueues.filter fun x => x.2.inn).length < 64 → ∃ t, exec (.switchIn q) s = .next t
      ∧ (t.hostQueue q).inn = true ∧ (t.hostQueue q).tail = h.shadow % 2 ^ 32))
  ∧ (∀ (s : State) (o v : Nat),
    ((2 ^ 26 ≤ o ∨ o % 64 ≠ 0 ∨ 256 ≤ o % 2 ^ 21 / 64) → exec (.tail o v) s = .next s)
    ∧ (o < 2 ^ 26 → o % 64 = 0 → o % 2 ^ 21 / 64 < 256 → o / 2 ^ 21 ≠ s.groupIndex →
      exec (.tail o v) s = .next (if s.bridge = true ∧ s.linked = true then { s with sent := s.sent ++ [.window o v] } else s)))
  ∧ (∀ (s : State) (q : Nat), q < 256 → (s.die 0).stage ≠ 0 →
    let h := s.hostQueue q
    let a := h.ring + 256 * (h.head % 2 ^ h.m)
    let ws := s.memWords a 32
    let u := s.setHost q fun h => { h with head := (h.head + 1) % 2 ^ 32 }
    h.inn = true → h.err = false → h.head ≠ h.tail → backedRun a 256 = true → s.servedRun a 256 = true →
    let p := Packet.ofWords ws
    let d := Decl.ofWords (s.declWords p) p.ver
    let joins (decl : Decl) (await : Bool) : Prop :=
      ∃ t, exec (.packetFetch q) s = .next t ∧ (t.hostQueue q).head = (h.head + 1) % 2 ^ 32 ∧ t.last = s.nextEpoch
        ∧ ∃ r, aget ({ pkt := {}, decl := {} } : Record) s.nextEpoch t.records = r ∧ r.pkt = p ∧ r.decl = decl ∧ r.await = await
          ∧ r.host = some (q, h.head) ∧ r.handed = 0 ∧ r.pkg = s.pkgId ∧ r.enqueued = s.stc
    (∀ v, u.packetRefused ws = none → s.declServed p = true → u.pinAll d.regions = .ok v → joins d false)
    ∧ (u.packetRefused ws = none → (s.declServed p = false ∨ u.pinAll d.regions = .error false) → joins {} true)
    ∧ (u.packetRefused ws = none → s.declServed p = true → u.pinAll d.regions = .error true →
      ∃ t, exec (.packetFetch q) s = .next t ∧ (t.hostQueue q).head = (h.head + 1) % 2 ^ 32 ∧ t.records = s.records
        ∧ readLE t.mem (a + 0xF0) 8 = 0x14 * 256)
    ∧ (∀ code, u.packetRefused ws = some code → code < 256 → ∃ t, exec (.packetFetch q) s = .next t
      ∧ (t.hostQueue q).head = (h.head + 1) % 2 ^ 32 ∧ t.records = s.records
      ∧ readLE t.mem (a + 0xF0) 8 = code * 256 ∧ readLE t.mem (a + 0xF8) 8 = s.stc % 2 ^ 64))
  ∧ (∀ (s : State) (q p : Nat) (rest : List Nat), 512 ≤ q → q < 544 → (s.die 0).stage ≠ 0 → aget [] q s.rackQueues = p :: rest →
    ∃ t ws, exec (.packetFetch q) s = .next t ∧ aget [] q t.rackQueues = rest
      ∧ (∃ pre, t.sent = pre ++ [.report ws])
      ∧ (let u : State := { s with rackQueues := aset q rest s.rackQueues }
         let e := (u.enqueue (packetWords p) none none true).2
         ∃ w tail, ws = w :: tail ∧ w.toNat / 2 ^ 40 % 2 ^ 8 = (if e = none then 0 else 2)
           ∧ w.toNat / 2 ^ 48 = p / 2 ^ 48 % 2 ^ 16))
  ∧ (∀ (s : State) (k : Nat) (e : Enq), s.enqs[k]? = some e → e.words ≠ [] → e.ack = none → s.templateServed e.words = true →
    (e.spawn = none → ∃ t, exec (.enqueuePacketArrival k) s = .next t ∧ t.enqs = ldel k s.enqs
      ∧ (aget ({} : EnqQueue) e.queue t.enqQueues).packets = (aget ({} : EnqQueue) e.queue s.enqQueues).packets ++ [e])
    ∧ (∀ d, e.spawn = some d → exec (.enqueuePacketArrival k) s = .next
      (({ s with enqs := lmod k (fun e => { e with words := [] }) s.enqs } : State).formRecord e.words (some d))))
  ∧ (∀ (s : State) (q : Nat) (e : Enq) (rest : List Enq), 256 ≤ q → (aget ({} : EnqQueue) q s.enqQueues).packets = e :: rest →
    s.templateServed e.words = true →
    exec (.enqueuePacketArrival (s.enqs.length + (q - 256))) s = .next
      (({ s with enqQueues := amod {} q (fun x : EnqQueue => { x with packets := rest }) s.enqQueues } : State).formRecord
        e.words none))
  ∧ (∀ (s : State) (q p : Nat), 512 ≤ q → q < 544 → s.linked = true →
    ((aget [] q s.rackQueues).length < 64 → ∃ t, exec (.rackPacketArrival q p) s = .next t
      ∧ aget [] q t.rackQueues = aget [] q s.rackQueues ++ [p % 2 ^ 2048] ∧ t.sent = s.sent)
    ∧ (64 ≤ (aget [] q s.rackQueues).length → ∃ t ws, exec (.rackPacketArrival q p) s = .next t
      ∧ t.sent = s.sent ++ [.report ws] ∧ t.rackQueues = s.rackQueues
      ∧ ∃ w rest, ws = w :: rest ∧ w.toNat / 2 ^ 40 % 2 ^ 8 = 1 ∧ w.toNat / 2 ^ 48 = p / 2 ^ 48 % 2 ^ 16))
  ∧ (∀ (s : State) (v : Nat), s.dies.length = 4 →
    (1 ≤ v → v < 2 ^ 32 → (∃ t, exec (.registerWrite 4 v) s = .next t ∧ t.gatingLimit = v ∧ t.mem = s.mem)
      ∧ ∀ d, d < 4 → ∃ t, exec (.registerWrite d v) s = .next t ∧ (t.die d).drainLimit = v ∧ ∀ e, e ≠ d → t.die e = s.die e)
    ∧ ((v = 0 ∨ 2 ^ 32 ≤ v) → ∀ r, r < 5 → exec (.registerWrite r v) s = .next s))
  ∧ (∀ (s : State) (k : Nat) (w : Word), s.increments[k]? = some w →
    let ctx := w.toNat / 2 ^ 38 % 1024 * 4 + w.toNat / 2 ^ 36 % 4
    s.lender ctx = none → (s.slotAt ctx).runs = true → s.countWaits ctx (w.toNat % 32) = false →
    ∃ t, exec (.remoteEventIncrement k) s = .next t
      ∧ t.increments = ldel k s.increments
      ∧ ∀ v : EvReg, (t.slotAt ctx).core.ereg[v] = if v.val = w.toNat % 32
        then BitVec.ofNat 16 (min 0xFFFF (((s.slotAt ctx).core.ereg[v]).toNat + 1)) else (s.slotAt ctx).core.ereg[v])
  ∧ (∀ (s : State) (sid : Nat), (s.sessions.any fun x => x.sid == sid) = true →
    (s.records.all fun x => !x.2.decl.names sid && !x.2.pkt.names sid) = true →
    (s.savedTasks.all fun w => !w.task.decl.names sid && !w.task.pkt.names sid) = true →
    ∃ t, exec (.sessionRelease sid) s = .next t ∧ t.sessions = s.sessions.filter (fun x => x.sid != sid) ∧ t.mem = s.mem)

/-- R372, R380, R386 to R390, R392, R393. -/
def Obligations.FromRecordToTask : Prop :=
  (∀ (s : State) (epoch d : Nat) (r : Record), s.lookAgain = none →
    leastBy s.recordKey (s.records.filter fun x => s.eligible x.2) = some (epoch, r) →
    leastBy (s.dieKey r) (s.diesFor r) = some d → d < s.dies.length → r.pkt.cls < (s.die d).queues.length →
    let n := min 64 (min r.left (s.dieFree d))
    let os := r.ordinals (n + r.aborted.length) n r.handed
    ∃ t, exec .batchHandout s = .next t
      ∧ (aget r epoch t.records).handed = (os.getLast?.map (· + 1)).getD r.handed ∧ (aget r epoch t.records).lastBatch = some s.stc
      ∧ ∃ q new, (s.die d).queues[r.pkt.cls]? = some q ∧ (t.die d).queues[r.pkt.cls]? = some (q ++ new)
        ∧ new.map (·.task.ord) = os
        ∧ ∀ w ∈ new, w.task.epoch = epoch ∧ w.saved = none ∧ w.batch = true ∧ w.task.pkt = r.pkt
          ∧ w.task.iter = r.pkt.iteration w.task.ord ∧ w.task.age = ageStamp epoch w.task.ord r.pkg)
  ∧ (∀ (r : Record) (n : Nat), r.aborted = [] → n ≤ r.pkt.tasks - r.handed →
    r.ordinals (n + r.aborted.length) n r.handed = (List.range n).map (r.handed + ·) ∧ r.left = r.pkt.tasks - r.handed)
  ∧ (∀ (s : State) (d c : Nat) (w : Waiting), (s.die d).front = some w → w.saved = none →
    (d = 0 → (s.die 0).stage ≠ 1 ∨ (s.die 0).trained = false) → s.chooseSlot d w = some c →
    ∃ t, exec (.taskDispatch d) s = .next t ∧ (t.slotAt c).stage = .binding ∧ (t.slotAt c).task = some w.task
      ∧ ∀ k, k ≠ c → t.slotAt k = s.slotAt k)
  ∧ (∀ (s : State) (x : Task), s.me.stage = .binding → s.me.task = some x →
    let formed := (s.setMe fun l => { l with regions := List.replicate 16 {} }).formRegions s.cur x.pkt.asid 0 x.decl.regions
    (formed = none → ∃ t, exec .taskBind s = .next t ∧ t = s.endTask s.cur 0x0400 ∧ t.me.stage = .free ∧ t.me.task = none)
    ∧ ∀ u, formed = some u →
    let b := (u.rebindGraphs x.pkt).listFor s.cur x
    (∀ code, b.entryQuad s.cur x.pkt = .error code →
      exec .taskBind s = .next ((b.reportUnlisted s.cur x).endTask s.cur (code * 256)))
    ∧ ∀ q, b.entryQuad s.cur x.pkt = .ok q → b.cur = s.cur →
    ∃ t, exec .taskBind s = .next t ∧ t.me.stage = .bound ∧ t.me.quad = q ∧ t.me.regions = b.me.regions
      ∧ t.core.sreg[1] = BitVec.ofNat 64 (wordOf x.iter 0) ∧ t.core.sreg[2] = BitVec.ofNat 64 (wordOf x.iter 1)
      ∧ t.core.sreg[3] = BitVec.ofNat 64 (wordOf x.iter 2) ∧ t.core.sreg[4] = BitVec.ofNat 64 (wordOf x.iter 3)
      ∧ t.core.sreg[5] = BitVec.ofNat 64 x.pkt.arg ∧ (∀ r : SReg, 5 < r.val → t.core.sreg[r] = 0)
      ∧ (∀ h, t.core.path.pc h = x.pkt.entry) ∧ t.core.sup = false ∧ t.core.deadline = BitVec.ofNat 64 x.pkt.deadline
      ∧ t.core.age = x.age ∧ t.me.store = (b.entryStore x.pkt).1)
  ∧ (∀ (s : State) (x : Task), s.me.stage = .bound → s.me.task = some x →
    let start := s.stampOf s.cur x.pkt.start
    (x.pkt.startv = true → x.restarts = 0 → start ≤ s.stc) →
    ∃ t, exec .taskEntry s = .next t ∧ t.me.stage = .running ∧ t.core.path = s.core.path
      ∧ t.core.pend = s.core.pend
        ++ (if x.pkt.startv = true ∧ x.pkt.late = false ∧ x.restarts = 0 ∧ start ≤ s.me.boundAt
            then [⟨0x0A, 7, BitVec.ofNat 64 x.pkt.start⟩] else [])
        ++ (if s.core.deadline.toNat ≤ s.stc ∧ s.core.dued = false then [⟨0x10, 7, s.core.deadline⟩] else []))
  ∧ (∀ s : State, s.me.runs = true → s.core.commit = false →
    (s.core.dued = false → s.core.deadline.toNat ≤ s.stc → ∃ t, exec .deadlineExpiry s = .next t
      ∧ t.core.pend = s.core.pend ++ [⟨0x10, 7, s.core.deadline⟩] ∧ t.core.dued = true)
    ∧ ((s.core.dued = true ∨ s.stc < s.core.deadline.toNat) → exec .deadlineExpiry s = .next s))
  ∧ (∀ (s : State) (x : Task), s.cur < 8192 → s.me.task = some x → s.core.commit = false →
    ∃ t, exec .abort s = .next t ∧ t.me.stage = .free ∧ t.me.task = none ∧ (∀ u ∈ t.updates, u.ctx ≠ s.cur)
      ∧ ∀ l ∈ t.locks, ∀ a c, l.holder = some (a, c) → a ≠ x.age)
  ∧ (∀ (s : State) (e o : Nat) (r : Record), s.cur = 8192 + e + 2 ^ 30 * o → s.cur < 2 ^ 64 → e < 2 ^ 30 →
    (s.records.find? fun x => x.1 == e) = some (e, r) → r.handed ≤ o → o < r.pkt.tasks → o ∉ r.aborted → r.ended + 1 < r.pkt.tasks →
    ∃ t, exec .abort s = .next t ∧ (aget r e t.records).aborted = o :: r.aborted ∧ (aget r e t.records).ended = r.ended + 1
      ∧ (aget r e t.records).bad = r.bad + 1 ∧ t.slots = s.slots ∧ t.mem = s.mem)
  ∧ (∀ (s : State) (d : Nat) (w : Waiting) (x : Nat × Slot), (s.die d).front = some w → w.task.pkt.cls < 2 →
    (s.slots.all fun e => !(dieOf (nodeOf e.1) == d && (e.2.preq.isSome || (e.2.stage == .gating && !e.2.yielded && !e.2.draining)))) = true →
    s.freeCtxs d = [] → victimOf (s.victims d w.task.pkt.cls) = some x →
    ∃ t, exec (.preemptionRequest d) s = .next t ∧ (t.slotAt x.1).preq = some (s.acOf x.1)
      ∧ (t.slotAt x.1).core = (s.slotAt x.1).core ∧ ∀ k, k ≠ x.1 → t.slotAt k = s.slotAt k)

/-- R390, R439 to R441, R448, R449. -/
def Obligations.SavingAndRestoring : Prop :=
  (∀ (s : State) (n : Nat), s.me.stage = .running → s.core.commit = false → s.me.preq = some n → n + s.grace ≤ s.acOf s.cur →
    (s.core.sup = false → ∃ t, exec .sourceGating s = .next t ∧ t.me.stage = .gating ∧ t.me.gated = s.acOf s.cur
      ∧ t.me.preq = none ∧ (∀ f ∈ t.core.flights, f.landed = true) ∧ t.core.bank = none ∧ t.core.user = s.core.user)
    ∧ (s.core.sup = true → s.me.gateHeld = false → ∃ t, exec .sourceGating s = .next t ∧ t.me.stage = .running
      ∧ t.me.gateHeld = true ∧ t.core = s.core))
  ∧ (∀ (s : State) (x : Task) (e : Instr), s.me.stage = .gating → s.me.draining = false → s.me.task = some x →
    ((e = .sourceGating ∧ s.gatedRest s.cur = true)
      ∨ (e = .gatingLimitExpiry ∧ s.me.gated + s.gatingLimit ≤ s.acOf s.cur ∧ (s.updates.all fun u => u.ctx != s.cur) = true)) →
    s.buffers = [] → dieOf (nodeOf s.cur) < s.dies.length → x.pkt.cls < (s.die (dieOf (nodeOf s.cur))).queues.length →
    ∃ t, exec e s = .next t ∧ t.me.stage = .free ∧ t.me.task = none
      ∧ ∃ w l q, w.saved = some l ∧ w.task = x ∧ w.left = s.cur ∧ l.core = s.core ∧ l.store = s.me.store
        ∧ (e = .gatingLimitExpiry → w.cut = true)
        ∧ (s.die (dieOf (nodeOf s.cur))).queues[x.pkt.cls]? = some q
        ∧ (t.die (dieOf (nodeOf s.cur))).queues[x.pkt.cls]? = some (if s.me.yielded = true then q ++ [w] else w :: q))
  ∧ (∀ (s : State) (w : Waiting) (l : Slot) (c : Nat),
    let d := dieOf (nodeOf s.cur)
    (s.die d).front = some w → w.saved = some l → s.restores d = true → s.chooseSlot d w = some c →
    let store := s.recordedStore w l
    let v := (s.setDie d (·.forget w.task.age)).setSlot c (fun x => ({ quad := x.quad } : Slot).bindTo w.task store l.core)
    let formed := v.formRegions c w.task.pkt.asid 0 w.task.decl.regions
    (formed = none → exec .taskRestore s = .next (((v.withdrawWaits w.task.age).releaseGranules w.task.age).endTask c 0x0400))
    ∧ ∀ u, formed = some u →
    let b := (u.rebindGraphs w.task.pkt).listFor c w.task
    (∀ code, b.restoredQuad c l.quad w.task.pkt = .error code →
      exec .taskRestore s = .next (((b.withdrawWaits w.task.age).releaseGranules w.task.age).endTask c (code * 256)))
    ∧ ∀ q, b.restoredQuad c l.quad w.task.pkt = .ok q → w.cut = false → (b.held.all fun h => h.1 != w.task.age) = true →
    ∃ t, exec .taskRestore s = .next t ∧ (t.slotAt c).stage = .running ∧ (t.slotAt c).task = l.task
      ∧ (t.slotAt c).core.sreg = l.core.sreg ∧ (t.slotAt c).core.freg = l.core.freg ∧ (t.slotAt c).core.preg = l.core.preg
      ∧ (t.slotAt c).core.hreg = l.core.hreg ∧ (t.slotAt c).core.bdreg = l.core.bdreg ∧ (t.slotAt c).core.ereg = l.core.ereg
      ∧ (t.slotAt c).core.user = l.core.user ∧ (t.slotAt c).core.spill = l.core.spill ∧ (t.slotAt c).core.sts = l.core.sts
      ∧ (t.slotAt c).store = store.1 ∧ (w.area = none → store.1 = l.store)
      ∧ (t.slotAt c).quad = q ∧ q = { l.quad with
        blk := q.blk
        copy := q.copy })

/-- R113, R114, R247 to R249, R378, R404. The model's own: pending causes are taken in the order in which they became pending (log 79), and a task
wounded before the ac waits at TEND (log 93). -/
def Obligations.EndingATask : Prop :=
  (∀ (s : State) (a : SReg) (g : Bool), s.core.path.mayEnd = true → (∀ i, i = Instr.tend a g ∨ i = Instr.tyld g →
      i.trailReads.any s.core.unlanded = false) → s.core.ywait = none → s.core.bank = none →
    (g = true → s.core.getP 1 = false → exec (.tend a g) s = exec (.tyld g) s
      ∧ ∃ t, exec (.tend a g) s = .next t ∧ t.me.stage = s.me.stage ∧ t.core.path = s.core.path.passEnd ∧ t.mem = s.mem)
    ∧ ((g = true → s.core.getP 1 = true) →
      (∀ x, s.me.task = some x → s.core.commit = false → s.core.jnl = false → s.commandsOver s.cur = true →
        (s.updates.all fun u => u.ctx != s.cur) = true → s.buffers = [] → s.me.eng.delayed = [] → s.me.deferred = [] →
        s.me.missed = false → s.woundedBefore s.cur = false →
        let code := if a = 0 then 0 else (s.core.getS a).toNat % 256
        ∃ t, exec (.tend a g) s = .next t ∧ t.me.stage = .free ∧ t.me.task = none
          ∧ (∀ r, (s.records.find? fun e => e.1 == x.epoch) = some (x.epoch, r) → r.ended + 1 < r.pkt.tasks →
              t.mem = s.mem ∧ (aget r x.epoch t.records).ended = r.ended + 1
              ∧ (aget r x.epoch t.records).bad = r.bad + (if code = 0 then 0 else 1))
          ∧ (∀ r q k, (s.records.find? fun e => e.1 == x.epoch) = some (x.epoch, r) → r.pkt.tasks ≤ r.ended + 1 →
              r.host = some (q, k) → r.status = none → r.bad = 0 →
              let done := (s.hostQueue q).ring + 256 * (k % 2 ^ (s.hostQueue q).m) + 0xF0
              readLE t.mem done 8 = (if code = 0 then 0 else code + 2 ^ 16)
              ∧ readLE t.mem (done + 8) 8 = s.stc % 2 ^ 64))
      ∧ (s.core.commit = false → s.core.jnl = true → s.commandsOver s.cur = true →
        (s.updates.all fun u => u.ctx != s.cur) = true → s.buffers = [] → s.me.eng.delayed = [] → s.me.journalBad = false →
        s.woundedBefore s.cur = false →
        ∃ t, exec (.tend a g) s = .next t ∧ t.core.commit = true ∧ t.me.stage = s.me.stage ∧ t.mem = s.mem)
      ∧ (s.core.sup = false → ∃ t, exec (.tyld g) s = .next t ∧ t.me.stage = .gating ∧ t.me.yielded = true
        ∧ (∀ h, t.core.path.pc h = s.core.path.pcY + 4) ∧ t.core.sreg = s.core.landAll.sreg ∧ t.mem = s.mem
        ∧ (∀ f ∈ t.core.flights, f.landed = true)
        ∧ t.core.trappcS = BitVec.ofNat 32 (s.core.path.pcY + 4) ∧ t.core.trappcM = t.core.trappcS
        ∧ t.core.trappcA = t.core.trappcS ∧ t.core.trappcY = t.core.trappcS)
      ∧ (s.core.sup = true → ∃ t, exec (.tyld g) s = .next t ∧ t.me.stage = s.me.stage ∧ t.me.gateHeld = true
        ∧ t.me.yielded = true ∧ (∀ h, t.core.path.pc h = s.core.path.pcY + 4) ∧ t.mem = s.mem)
      ∧ (s.core.commit = false → s.woundedBefore s.cur = true → exec (.tend a g) s = .next s)))
  ∧ (∀ (s : State) (p : Async) (rest : List Async), s.core.pend = p :: rest → s.core.sup = false → s.me.stage = .running →
    s.core.commit = false → ∃ t, exec .trapEntry s = .next t ∧ t.core.pend = rest ++ t.core.pend.drop rest.length
      ∧ t.core.sup = true ∧ t.core.trappcS = BitVec.ofNat 32 (s.nextS s.cur)
      ∧ t.core.trappcM = BitVec.ofNat 32 (s.core.path.place .m) ∧ t.core.trappcA = BitVec.ofNat 32 (s.core.path.place .a)
      ∧ t.core.trappcY = BitVec.ofNat 32 (s.core.path.place .y)
      ∧ t.core.trapcause = causeWord 0 true p.head p.cause ∧ t.core.trapval = p.val ∧ t.core.path.pcS = 0
      ∧ (∀ f ∈ t.core.flights, f.landed = true) ∧ t.core.ywait = none)

/-- R302, R361, R462 to R464, R467, R469 to R473. What the monitors find, and the images and keys, are values of Config. The model's own: what the
named algorithms are (log 49), a sample marks at most one part (log 53), the hard limit gives the reset state (log 50), whose memory lists nothing (log 2), the code of a
graph with a block that fails its checks, the choice of slots, and that an edge takes what it has passed on before without passing it on again (log 90). -/
def Obligations.PowerAndService : Prop :=
  (∀ s : State, s.powered = false → exec .powerGood s = .next { s with powered := true })
  ∧ (∀ (s : State), s.powered = true → s.dies.length = 4 → (s.die 0).verified = false → (s.die 0).fail = false →
    let b := Config.bootImage 0
    (imageKind b = 1 → imageAccepted b = true → ∃ t, exec (.firmwareVerify 0) s = .next t ∧ (t.die 0).stage = 1
      ∧ (t.die 0).verified = true ∧ (t.die 0).images = ((s.die 0).images.filter fun x => x.1 != 1) ++ [(1, sha384Num b, imageSvn b)])
    ∧ (imageAccepted b = false → ∃ t, exec (.firmwareVerify 0) s = .next t ∧ (t.die 0).stage = (s.die 0).stage
      ∧ (t.die 0).fail = true ∧ (t.die 0).verified = false))
  ∧ (∀ (s : State) (d : Nat), s.powered = true → d < 4 → s.dies.length = 4 → (s.die d).verified = true → (s.die d).stage < 2 →
    (s.die d).fail = false → (s.die d).trained = false →
    (d = 0 → s.d0Empty = true) → ∃ t, exec (.hbmTrainingComplete d) s = .next t ∧ (t.die d).trained = true
      ∧ (t.die d).stage = (if s.linked = true then 3 else 2) ∧ ∀ e, e ≠ d → t.die e = s.die e)
  ∧ (∀ s : State, s.powered = true → s.dies.length = 4 → (s.die 0).verified = true → (s.die 0).stage < 2 → (s.die 0).fail = false →
    (s.die 0).trained = true →
    (s.d0Empty = true → ∃ t, exec (.hbmTrainingComplete 0) s = .next t ∧ (t.die 0).stage = (if s.linked = true then 3 else 2)
      ∧ ∀ e, e ≠ 0 → t.die e = s.die e)
    ∧ (s.d0Empty = false → exec (.hbmTrainingComplete 0) s = .next s))
  ∧ (∀ (s : State) (d : Nat), s.powered = true → d < 4 → s.dies.length = 4 → (s.die d).fail = false → (s.die d).trained = false →
    ∃ t, exec (.hbmTrainingComplete (d + 4)) s = .next t ∧ (t.die d).fail = true ∧ (t.die d).stage = (s.die d).stage
      ∧ ∀ e, e ≠ d → t.die e = s.die e)
  ∧ (∀ s : State, s.linked = false → 2 ≤ (s.die 0).stage → ∃ t, exec .linkTrainingComplete s = .next t ∧ t.linked = true
    ∧ t.pkgId = Config.podId % 1024 ∧ ∀ d : Nat, (s.die d).stage = 2 → (t.die d).stage = 3)
  ∧ (∀ s : State, let d := dieOf (nodeOf s.cur); let n := 0x80 + s.memWord (s.update + 0x10) + 3309
    (s.die d).stage ≠ 0 → backedRun s.update 64 = true → backedRun s.update n = true → d < s.dies.length →
    let b := readBytes s.mem s.update n
    (imageAccepted b = true → ∃ t, exec .firmwareUpdate s = .next t
      ∧ (t.die d).images = ((s.die d).images.filter fun x => x.1 != imageKind b) ++ [(imageKind b, sha384Num b, imageSvn b)])
    ∧ (imageAccepted b = false → exec .firmwareUpdate s = .next s))
  ∧ (∀ b : List Byte, imageAccepted b = true → let signed := b.take (0x40 + imageLen b)
    Config.fusedMinSvn (imageKind b) ≤ imageSvn b ∧ (imageKind b = 1 ∨ imageKind b = 2)
    ∧ sha384Num (Config.publicKey b 0) = Config.fusedKeyDigest 0 ∧ sha384Num (Config.publicKey b 1) = Config.fusedKeyDigest 1
    ∧ Crypto.ed25519Ok (Config.publicKey b 0) signed ((b.drop (0x40 + imageLen b)).take 64) = true
    ∧ Crypto.mlDsa65Ok (Config.publicKey b 1) signed (b.drop (0x80 + imageLen b)) = true)
  ∧ (∀ (s : State) (nonce : Nat), (s.die 0).stage ≠ 0 → ∃ t ws sigs, exec (.attestationRequest nonce) s = .next t
    ∧ t.sent = s.sent ++ [.attest ws sigs] ∧ nonce % 2 ^ 256 ∈ ws ∧ s.stc ∈ ws ∧ sigs.length = 2
    ∧ ∀ d ∈ s.dies, ∀ x ∈ d.images, x.1 ∈ ws ∧ x.2.1 ∈ ws ∧ x.2.2 ∈ ws)
  ∧ (∀ s : State, s.bridge = true → s.groupIndex < 32 → s.windowRead (2 ^ 21 * s.groupIndex + 0x1F0000) = some s.statusWord
    ∧ s.statusWord % 4 = bitIf s.linked 1 + bitIf (decide (1 ≤ (s.die 0).stage)) 0)
  ∧ (∀ s : State, (s.die 0).stage ≠ 0 → ∃ t, exec .ageingSample s = .next t ∧ t.retired = s.retired
    ∧ (t.marked = s.marked ∨ ∃ p, t.marked = s.marked ++ [p]))
  ∧ (∀ (s : State) (k n p : Nat), s.marked[k]? = some (.pe n p) → (s.slotAt (4 * n + p / 64)).stage = .free →
    ∃ t, exec (.retirement k) s = .next t ∧ .pe n p ∈ t.retired)
  ∧ (∀ (s : State) (d : Nat), d < 4 → s.dies.length = 4 → ∃ t, exec (.softTemperatureLimit d) s = .next t
    ∧ (t.die d).hot = !(s.die d).hot ∧ ∀ e, e ≠ d → t.die e = s.die e)
  ∧ (∀ s : State, ∃ t, exec .hardTemperatureLimit s = .next t ∧ t.powered = false ∧ t.stc = 0 ∧ t.slots = [] ∧ t.mem = []
    ∧ t.records = [] ∧ ∀ d, (t.die d).stage = 0)
  ∧ (∀ (s : State) (pkg : Nat), ∃ t, exec (.packageLeavesPod pkg) s = .next t ∧ pkg ∈ t.unreachable
    ∧ (∀ p ∈ s.unreachable, p ∈ t.unreachable) ∧ t.reaches pkg = false)
  ∧ (∀ (s : State) (g : Graph), let l := s.graphLoad s.graphs.length [] g
    (g.blocks.mapM (·.read s) = none → l.code = some 0x06)
    ∧ (∀ bs, g.blocks.mapM (·.read s) = some bs → (∃ b ∈ bs, b.canonical = false) ∨ (∃ e ∈ g.edges, e.fits bs = false)
      ∨ (∃ x ∈ g.fields, x.level = 0) → l.code = some 0x05)
    ∧ (∃ t, move s (.graph g) = .next t ∧ t.graphs = s.graphs ++ [l] ∧ (l.code ≠ none → t.mem = s.mem ∧ t.slots = s.slots)
      ∧ (l.code = none → (∀ p ∈ l.places, (t.slotAt p.ctx).quad.st = .loaded)
        ∧ t.mem = (g.fields.foldl (fun u x => u.writeScope x ((l.scopes[x.level - 1]?).getD 0)) s).mem))
    ∧ (l.code = none → l.places.length = g.blocks.length ∧ (l.places.map (·.ctx)).Nodup
      ∧ (∀ p ∈ l.places, p.slot < 4 ∧ ∃ n, s.canonicalTile p.cx p.cy = some n ∧ p.ctx = 4 * n + p.slot)
      ∧ (∀ e ∈ g.edges, ∃ p q, l.places[e.src]? = some p ∧ l.places[e.dst]? = some q ∧ ∃ x ∈ l.streams, x.ctx = p.ctx ∧ x.dctx = q.ctx
        ∧ epType x.ep0.toNat = 2 ∧ epPort x.ep0.toNat = e.out
        ∧ (p.ctx = q.ctx → epType x.ep1.toNat = 2 ∧ epPort x.ep1.toNat = e.inp)
        ∧ (p.ctx ≠ q.ctx → epType x.ep1.toNat = 4 ∧ epCtx x.ep1.toNat = q.ctx ∧ epRemotePort x.ep1.toNat = e.inp))
      ∧ l.scopes.length = 5 ∧ l.scopes.Pairwise (· ≤ ·)
      ∧ (∀ (k scope : Nat) (bs : List Nat), l.scopes[k]? = some scope → g.levels[k]? = some bs → 1 ≤ scope ∧ scope ≤ 5
        ∧ (scope < 5 → ∀ a ∈ bs, ∀ b ∈ bs, ∀ p q, l.places[a]? = some p → l.places[b]? = some q →
          scopePlace scope (nodeOf p.ctx) = scopePlace scope (nodeOf q.ctx)))))
  ∧ (∀ (s : State) (x : GraphScope) (scope : Nat), Memory.wf s.mem = true → scope < 8 → x.field = .word →
    let v := readLE s.mem x.addr 4
    let v' := readLE (s.writeScope x scope).mem x.addr 4
    v' / 2 ^ 27 % 8 = scope ∧ v' % 2 ^ 27 = v % 2 ^ 27 ∧ v' / 2 ^ 30 = v / 2 ^ 30)
  ∧ (∀ (s : State) (k j : Nat) (g : GraphLoad) (e : GraphStream) (tok : Tok) (rep : Bool) (rest : List (Tok × Bool)),
    s.graphs[k]? = some g → g.streams[j]? = some e →
    let out := epPort e.ep0.toNat
    s.runsBlock e.ctx (g.graph.block e.src) = true → s.runsBlock e.dctx (g.graph.block e.dst) = true →
    (∀ c ∈ (s.slotAt e.ctx).eng.flying, (c.started && epType c.ep0 == 2 && epPort c.ep0 == out) = false) →
    (∀ c ∈ (s.slotAt e.dctx).eng.flying, (c.started && epType c.ep1 == 2 && epPort c.ep1 == e.inPort) = false) →
    (s.slotAt e.ctx).quad.outHeads out = (tok, rep) :: rest →
    ((s.slotAt e.ctx).quad.edgePassed out = true → ∃ t, move s (.edge k j) = .next t ∧ (t.slotAt e.ctx).quad.outPort out = rest
      ∧ t.remotes = s.remotes)
    ∧ ((s.slotAt e.ctx).quad.edgePassed out = false → e.ctx ≠ e.dctx →
      (s.remoteRoom e.dctx e.inPort = true → ∃ t, move s (.edge k j) = .next t ∧ (t.slotAt e.ctx).quad.outPort out = rest
        ∧ t.remotes = s.remotes ++ [⟨4097 + k, j, e.dctx, e.inPort, epRemoteCpl e.ep1.toNat, { tok with tag := 0 }, none, none⟩])
      ∧ (s.remoteRoom e.dctx e.inPort = false → move s (.edge k j) = .next s))
    ∧ ((s.slotAt e.ctx).quad.edgePassed out = false → e.ctx = e.dctx → let q := (s.slotAt e.ctx).quad
      (q.portRoom e.inPort = true → ∃ t, move s (.edge k j) = .next t ∧ (t.slotAt e.ctx).quad.outPort out = rest
        ∧ ((t.slotAt e.ctx).quad.port e.inPort).incoming
          = (q.port e.inPort).incoming ++ [⟨s.acOf e.dctx + 1, { tok with tag := 0 }, (4097 + k, j), 0, false⟩])
      ∧ (q.portRoom e.inPort = false → move s (.edge k j) = .next s)))
end

