-- ==== Sys2Proof/Laws/Assoc.lean ====
section
/-! SUPPORT. Laws of the tables: reading after writing, and the rising order of their keys. -/

namespace Sys2Proof.Machine

variable {α : Type}

@[simp] theorem aget_nil (d : α) (k : Nat) : aget d k [] = d := rfl

/-- A key that was just written reads back. -/
@[simp] theorem aget_aset_same (d : α) (k : Nat) (v : α) (l : List (Nat × α)) : aget d k (aset k v l) = v := by
  induction l with
  | nil => simp [aset, aget]
  | cons x rest ih =>
    obtain ⟨j, w⟩ := x
    simp only [aset]
    split
    · simp [aget]
    · split
      · simp [aget]
      · simp only [aget]
        rw [if_neg (by omega), ih]

/-- Another key reads as before. -/
theorem aget_aset_other (d : α) {k j : Nat} (v : α) (l : List (Nat × α)) (h : j ≠ k) :
    aget d j (aset k v l) = aget d j l := by
  induction l with
  | nil => simp [aset, aget, Ne.symm h]
  | cons x rest ih =>
    obtain ⟨i, w⟩ := x
    simp only [aset]
    split
    · simp [aget, Ne.symm h]
    · split
      · next hki => simp [aget, ← hki, Ne.symm h]
      · simp only [aget, ih]

theorem aget_aset (d : α) (k j : Nat) (v : α) (l : List (Nat × α)) :
    aget d j (aset k v l) = if j = k then v else aget d j l := by
  split
  · next h => rw [h, aget_aset_same]
  · next h => exact aget_aset_other d v l h

@[simp] theorem aget_amod_same (d : α) (k : Nat) (f : α → α) (l : List (Nat × α)) :
    aget d k (amod d k f l) = f (aget d k l) := by simp [amod]

theorem aget_amod_other (d : α) {k j : Nat} (f : α → α) (l : List (Nat × α)) (h : j ≠ k) :
    aget d j (amod d k f l) = aget d j l := aget_aset_other d _ l h

@[simp] theorem aset_aset (k : Nat) (v w : α) (l : List (Nat × α)) : aset k v (aset k w l) = aset k v l := by
  induction l with
  | nil => simp [aset]
  | cons x rest ih =>
    obtain ⟨i, u⟩ := x
    simp only [aset]
    split
    · simp [aset]
    · split
      · simp [aset]
      · next h1 h2 => simp [aset, h1, h2, ih]

/-- A deleted key reads as the default; every other one as before. -/
theorem aget_adel (d : α) (k j : Nat) (l : List (Nat × α)) : aget d j (adel k l) = if j = k then d else aget d j l := by
  induction l with
  | nil => simp [adel, aget]
  | cons x rest ih =>
    obtain ⟨i, w⟩ := x
    simp only [adel]
    split
    · next h => subst h; rw [ih]; split <;> simp_all [aget]; omega
    · next h =>
      simp only [aget, ih]
      split <;> split <;> simp_all

/-- Two changes of one key are one change. -/
@[simp] theorem amod_amod (d : α) (k : Nat) (f g : α → α) (l : List (Nat × α)) :
    amod d k f (amod d k g l) = amod d k (fun x => f (g x)) l := by simp [amod]

theorem lmod_length (k : Nat) (f : α → α) (l : List α) : (lmod k f l).length = l.length := by
  induction l generalizing k with
  | nil => cases k <;> simp [lmod]
  | cons x xs ih => cases k <;> simp [lmod, ih]

theorem lmod_getElem? (k j : Nat) (f : α → α) (l : List α) :
    (lmod k f l)[j]? = if j = k then l[j]?.map f else l[j]? := by
  induction l generalizing k j with
  | nil => simp [lmod]
  | cons x xs ih => cases k <;> cases j <;> simp [lmod, ih]

end Sys2Proof.Machine
end

