-- ==== Sys2Proof/Laws/State.lean ====
section
/-! SUPPORT. Laws of the state: what a change of one slot or one die leaves alone, and how a changed slot reads back. Every change of a
slot or of a core is a State.setSlot. -/

namespace Sys2Proof.Machine

@[simp] theorem State.setMe_eq (s : State) (f : Slot → Slot) : s.setMe f = s.setSlot s.cur f := rfl
@[simp] theorem State.setCoreAt_eq (s : State) (ctx : Nat) (f : Core → Core) : s.setCoreAt ctx f = s.setSlot ctx (·.setCore f) :=
  rfl
@[simp] theorem State.setCore_eq (s : State) (f : Core → Core) : s.setCore f = s.setSlot s.cur (·.setCore f) := rfl
@[simp] theorem State.me_eq (s : State) : s.me = s.slotAt s.cur := rfl
@[simp] theorem State.core_eq (s : State) : s.core = (s.slotAt s.cur).core := rfl

@[simp] theorem State.setSlot_stc (s : State) (ctx : Nat) (f : Slot → Slot) : (s.setSlot ctx f).stc = s.stc := rfl
@[simp] theorem State.setSlot_agenda (s : State) (ctx : Nat) (f : Slot → Slot) : (s.setSlot ctx f).agenda = s.agenda := rfl
@[simp] theorem State.setSlot_moves (s : State) (ctx : Nat) (f : Slot → Slot) : (s.setSlot ctx f).moves = s.moves := rfl
@[simp] theorem State.setSlot_draws (s : State) (ctx : Nat) (f : Slot → Slot) : (s.setSlot ctx f).draws = s.draws := rfl
@[simp] theorem State.setSlot_cur (s : State) (ctx : Nat) (f : Slot → Slot) : (s.setSlot ctx f).cur = s.cur := rfl
@[simp] theorem State.setSlot_mem (s : State) (ctx : Nat) (f : Slot → Slot) : (s.setSlot ctx f).mem = s.mem := rfl
@[simp] theorem State.setSlot_badWords (s : State) (ctx : Nat) (f : Slot → Slot) : (s.setSlot ctx f).badWords = s.badWords := rfl
@[simp] theorem State.setSlot_powered (s : State) (ctx : Nat) (f : Slot → Slot) : (s.setSlot ctx f).powered = s.powered := rfl
@[simp] theorem State.setSlot_linked (s : State) (ctx : Nat) (f : Slot → Slot) : (s.setSlot ctx f).linked = s.linked := rfl
@[simp] theorem State.setSlot_pkgId (s : State) (ctx : Nat) (f : Slot → Slot) : (s.setSlot ctx f).pkgId = s.pkgId := rfl
@[simp] theorem State.setSlot_unreachable (s : State) (ctx : Nat) (f : Slot → Slot) : (s.setSlot ctx f).unreachable = s.unreachable := rfl
@[simp] theorem State.setSlot_bridge (s : State) (ctx : Nat) (f : Slot → Slot) : (s.setSlot ctx f).bridge = s.bridge := rfl
@[simp] theorem State.setSlot_groupIndex (s : State) (ctx : Nat) (f : Slot → Slot) : (s.setSlot ctx f).groupIndex = s.groupIndex := rfl
@[simp] theorem State.setSlot_aperture (s : State) (ctx : Nat) (f : Slot → Slot) : (s.setSlot ctx f).aperture = s.aperture := rfl
@[simp] theorem State.setSlot_dies (s : State) (ctx : Nat) (f : Slot → Slot) : (s.setSlot ctx f).dies = s.dies := rfl
@[simp] theorem State.setSlot_hostQueues (s : State) (ctx : Nat) (f : Slot → Slot) : (s.setSlot ctx f).hostQueues = s.hostQueues := rfl
@[simp] theorem State.setSlot_enqQueues (s : State) (ctx : Nat) (f : Slot → Slot) : (s.setSlot ctx f).enqQueues = s.enqQueues := rfl
@[simp] theorem State.setSlot_rackQueues (s : State) (ctx : Nat) (f : Slot → Slot) : (s.setSlot ctx f).rackQueues = s.rackQueues := rfl
@[simp] theorem State.setSlot_last (s : State) (ctx : Nat) (f : Slot → Slot) : (s.setSlot ctx f).last = s.last := rfl
@[simp] theorem State.setSlot_records (s : State) (ctx : Nat) (f : Slot → Slot) : (s.setSlot ctx f).records = s.records := rfl
@[simp] theorem State.setSlot_ageStep (s : State) (ctx : Nat) (f : Slot → Slot) : (s.setSlot ctx f).ageStep = s.ageStep := rfl
@[simp] theorem State.setSlot_lead (s : State) (ctx : Nat) (f : Slot → Slot) : (s.setSlot ctx f).lead = s.lead := rfl
@[simp] theorem State.setSlot_grace (s : State) (ctx : Nat) (f : Slot → Slot) : (s.setSlot ctx f).grace = s.grace := rfl
@[simp] theorem State.setSlot_gatingLimit (s : State) (ctx : Nat) (f : Slot → Slot) : (s.setSlot ctx f).gatingLimit = s.gatingLimit := rfl
@[simp] theorem State.setSlot_recordBase (s : State) (ctx : Nat) (f : Slot → Slot) : (s.setSlot ctx f).recordBase = s.recordBase := rfl
@[simp] theorem State.setSlot_roots (s : State) (ctx : Nat) (f : Slot → Slot) : (s.setSlot ctx f).roots = s.roots := rfl
@[simp] theorem State.setSlot_freeFrames (s : State) (ctx : Nat) (f : Slot → Slot) : (s.setSlot ctx f).freeFrames = s.freeFrames := rfl
@[simp] theorem State.setSlot_migrated (s : State) (ctx : Nat) (f : Slot → Slot) : (s.setSlot ctx f).migrated = s.migrated := rfl
@[simp] theorem State.setSlot_sessions (s : State) (ctx : Nat) (f : Slot → Slot) : (s.setSlot ctx f).sessions = s.sessions := rfl
@[simp] theorem State.setSlot_taken (s : State) (ctx : Nat) (f : Slot → Slot) : (s.setSlot ctx f).taken = s.taken := rfl
@[simp] theorem State.setSlot_invReq (s : State) (ctx : Nat) (f : Slot → Slot) : (s.setSlot ctx f).invReq = s.invReq := rfl
@[simp] theorem State.setSlot_invNext (s : State) (ctx : Nat) (f : Slot → Slot) : (s.setSlot ctx f).invNext = s.invNext := rfl
@[simp] theorem State.setSlot_update (s : State) (ctx : Nat) (f : Slot → Slot) : (s.setSlot ctx f).update = s.update := rfl
@[simp] theorem State.setSlot_barriers (s : State) (ctx : Nat) (f : Slot → Slot) : (s.setSlot ctx f).barriers = s.barriers := rfl
@[simp] theorem State.setSlot_arrivals (s : State) (ctx : Nat) (f : Slot → Slot) : (s.setSlot ctx f).arrivals = s.arrivals := rfl
@[simp] theorem State.setSlot_updates (s : State) (ctx : Nat) (f : Slot → Slot) : (s.setSlot ctx f).updates = s.updates := rfl
@[simp] theorem State.setSlot_buffers (s : State) (ctx : Nat) (f : Slot → Slot) : (s.setSlot ctx f).buffers = s.buffers := rfl
@[simp] theorem State.setSlot_locks (s : State) (ctx : Nat) (f : Slot → Slot) : (s.setSlot ctx f).locks = s.locks := rfl
@[simp] theorem State.setSlot_touches (s : State) (ctx : Nat) (f : Slot → Slot) : (s.setSlot ctx f).touches = s.touches := rfl
@[simp] theorem State.setSlot_wounds (s : State) (ctx : Nat) (f : Slot → Slot) : (s.setSlot ctx f).wounds = s.wounds := rfl
@[simp] theorem State.setSlot_remotes (s : State) (ctx : Nat) (f : Slot → Slot) : (s.setSlot ctx f).remotes = s.remotes := rfl
@[simp] theorem State.setSlot_held (s : State) (ctx : Nat) (f : Slot → Slot) : (s.setSlot ctx f).held = s.held := rfl
@[simp] theorem State.setSlot_enqs (s : State) (ctx : Nat) (f : Slot → Slot) : (s.setSlot ctx f).enqs = s.enqs := rfl
@[simp] theorem State.setSlot_increments (s : State) (ctx : Nat) (f : Slot → Slot) : (s.setSlot ctx f).increments = s.increments := rfl
@[simp] theorem State.setSlot_patches (s : State) (ctx : Nat) (f : Slot → Slot) : (s.setSlot ctx f).patches = s.patches := rfl
@[simp] theorem State.setSlot_notices (s : State) (ctx : Nat) (f : Slot → Slot) : (s.setSlot ctx f).notices = s.notices := rfl
@[simp] theorem State.setSlot_invalids (s : State) (ctx : Nat) (f : Slot → Slot) : (s.setSlot ctx f).invalids = s.invalids := rfl
@[simp] theorem State.setSlot_encodes (s : State) (ctx : Nat) (f : Slot → Slot) : (s.setSlot ctx f).encodes = s.encodes := rfl
@[simp] theorem State.setSlot_routers (s : State) (ctx : Nat) (f : Slot → Slot) : (s.setSlot ctx f).routers = s.routers := rfl
@[simp] theorem State.setSlot_marked (s : State) (ctx : Nat) (f : Slot → Slot) : (s.setSlot ctx f).marked = s.marked := rfl
@[simp] theorem State.setSlot_retired (s : State) (ctx : Nat) (f : Slot → Slot) : (s.setSlot ctx f).retired = s.retired := rfl
@[simp] theorem State.setSlot_rejections (s : State) (ctx : Nat) (f : Slot → Slot) : (s.setSlot ctx f).rejections = s.rejections := rfl
@[simp] theorem State.setSlot_graphs (s : State) (ctx : Nat) (f : Slot → Slot) : (s.setSlot ctx f).graphs = s.graphs := rfl
@[simp] theorem State.setSlot_sent (s : State) (ctx : Nat) (f : Slot → Slot) : (s.setSlot ctx f).sent = s.sent := rfl

@[simp] theorem State.setDie_stc (s : State) (d : Nat) (f : Die → Die) : (s.setDie d f).stc = s.stc := rfl
@[simp] theorem State.setDie_agenda (s : State) (d : Nat) (f : Die → Die) : (s.setDie d f).agenda = s.agenda := rfl
@[simp] theorem State.setDie_moves (s : State) (d : Nat) (f : Die → Die) : (s.setDie d f).moves = s.moves := rfl
@[simp] theorem State.setDie_draws (s : State) (d : Nat) (f : Die → Die) : (s.setDie d f).draws = s.draws := rfl
@[simp] theorem State.setDie_cur (s : State) (d : Nat) (f : Die → Die) : (s.setDie d f).cur = s.cur := rfl
@[simp] theorem State.setDie_slots (s : State) (d : Nat) (f : Die → Die) : (s.setDie d f).slots = s.slots := rfl
@[simp] theorem State.setDie_mem (s : State) (d : Nat) (f : Die → Die) : (s.setDie d f).mem = s.mem := rfl
@[simp] theorem State.setDie_badWords (s : State) (d : Nat) (f : Die → Die) : (s.setDie d f).badWords = s.badWords := rfl
@[simp] theorem State.setDie_powered (s : State) (d : Nat) (f : Die → Die) : (s.setDie d f).powered = s.powered := rfl
@[simp] theorem State.setDie_linked (s : State) (d : Nat) (f : Die → Die) : (s.setDie d f).linked = s.linked := rfl
@[simp] theorem State.setDie_pkgId (s : State) (d : Nat) (f : Die → Die) : (s.setDie d f).pkgId = s.pkgId := rfl
@[simp] theorem State.setDie_unreachable (s : State) (d : Nat) (f : Die → Die) : (s.setDie d f).unreachable = s.unreachable := rfl
@[simp] theorem State.setDie_bridge (s : State) (d : Nat) (f : Die → Die) : (s.setDie d f).bridge = s.bridge := rfl
@[simp] theorem State.setDie_groupIndex (s : State) (d : Nat) (f : Die → Die) : (s.setDie d f).groupIndex = s.groupIndex := rfl
@[simp] theorem State.setDie_aperture (s : State) (d : Nat) (f : Die → Die) : (s.setDie d f).aperture = s.aperture := rfl
@[simp] theorem State.setDie_hostQueues (s : State) (d : Nat) (f : Die → Die) : (s.setDie d f).hostQueues = s.hostQueues := rfl
@[simp] theorem State.setDie_enqQueues (s : State) (d : Nat) (f : Die → Die) : (s.setDie d f).enqQueues = s.enqQueues := rfl
@[simp] theorem State.setDie_rackQueues (s : State) (d : Nat) (f : Die → Die) : (s.setDie d f).rackQueues = s.rackQueues := rfl
@[simp] theorem State.setDie_last (s : State) (d : Nat) (f : Die → Die) : (s.setDie d f).last = s.last := rfl
@[simp] theorem State.setDie_records (s : State) (d : Nat) (f : Die → Die) : (s.setDie d f).records = s.records := rfl
@[simp] theorem State.setDie_ageStep (s : State) (d : Nat) (f : Die → Die) : (s.setDie d f).ageStep = s.ageStep := rfl
@[simp] theorem State.setDie_lead (s : State) (d : Nat) (f : Die → Die) : (s.setDie d f).lead = s.lead := rfl
@[simp] theorem State.setDie_grace (s : State) (d : Nat) (f : Die → Die) : (s.setDie d f).grace = s.grace := rfl
@[simp] theorem State.setDie_gatingLimit (s : State) (d : Nat) (f : Die → Die) : (s.setDie d f).gatingLimit = s.gatingLimit := rfl
@[simp] theorem State.setDie_recordBase (s : State) (d : Nat) (f : Die → Die) : (s.setDie d f).recordBase = s.recordBase := rfl
@[simp] theorem State.setDie_roots (s : State) (d : Nat) (f : Die → Die) : (s.setDie d f).roots = s.roots := rfl
@[simp] theorem State.setDie_freeFrames (s : State) (d : Nat) (f : Die → Die) : (s.setDie d f).freeFrames = s.freeFrames := rfl
@[simp] theorem State.setDie_migrated (s : State) (d : Nat) (f : Die → Die) : (s.setDie d f).migrated = s.migrated := rfl
@[simp] theorem State.setDie_sessions (s : State) (d : Nat) (f : Die → Die) : (s.setDie d f).sessions = s.sessions := rfl
@[simp] theorem State.setDie_taken (s : State) (d : Nat) (f : Die → Die) : (s.setDie d f).taken = s.taken := rfl
@[simp] theorem State.setDie_invReq (s : State) (d : Nat) (f : Die → Die) : (s.setDie d f).invReq = s.invReq := rfl
@[simp] theorem State.setDie_invNext (s : State) (d : Nat) (f : Die → Die) : (s.setDie d f).invNext = s.invNext := rfl
@[simp] theorem State.setDie_update (s : State) (d : Nat) (f : Die → Die) : (s.setDie d f).update = s.update := rfl
@[simp] theorem State.setDie_barriers (s : State) (d : Nat) (f : Die → Die) : (s.setDie d f).barriers = s.barriers := rfl
@[simp] theorem State.setDie_arrivals (s : State) (d : Nat) (f : Die → Die) : (s.setDie d f).arrivals = s.arrivals := rfl
@[simp] theorem State.setDie_updates (s : State) (d : Nat) (f : Die → Die) : (s.setDie d f).updates = s.updates := rfl
@[simp] theorem State.setDie_buffers (s : State) (d : Nat) (f : Die → Die) : (s.setDie d f).buffers = s.buffers := rfl
@[simp] theorem State.setDie_locks (s : State) (d : Nat) (f : Die → Die) : (s.setDie d f).locks = s.locks := rfl
@[simp] theorem State.setDie_touches (s : State) (d : Nat) (f : Die → Die) : (s.setDie d f).touches = s.touches := rfl
@[simp] theorem State.setDie_wounds (s : State) (d : Nat) (f : Die → Die) : (s.setDie d f).wounds = s.wounds := rfl
@[simp] theorem State.setDie_remotes (s : State) (d : Nat) (f : Die → Die) : (s.setDie d f).remotes = s.remotes := rfl
@[simp] theorem State.setDie_held (s : State) (d : Nat) (f : Die → Die) : (s.setDie d f).held = s.held := rfl
@[simp] theorem State.setDie_enqs (s : State) (d : Nat) (f : Die → Die) : (s.setDie d f).enqs = s.enqs := rfl
@[simp] theorem State.setDie_increments (s : State) (d : Nat) (f : Die → Die) : (s.setDie d f).increments = s.increments := rfl
@[simp] theorem State.setDie_patches (s : State) (d : Nat) (f : Die → Die) : (s.setDie d f).patches = s.patches := rfl
@[simp] theorem State.setDie_notices (s : State) (d : Nat) (f : Die → Die) : (s.setDie d f).notices = s.notices := rfl
@[simp] theorem State.setDie_invalids (s : State) (d : Nat) (f : Die → Die) : (s.setDie d f).invalids = s.invalids := rfl
@[simp] theorem State.setDie_encodes (s : State) (d : Nat) (f : Die → Die) : (s.setDie d f).encodes = s.encodes := rfl
@[simp] theorem State.setDie_routers (s : State) (d : Nat) (f : Die → Die) : (s.setDie d f).routers = s.routers := rfl
@[simp] theorem State.setDie_marked (s : State) (d : Nat) (f : Die → Die) : (s.setDie d f).marked = s.marked := rfl
@[simp] theorem State.setDie_retired (s : State) (d : Nat) (f : Die → Die) : (s.setDie d f).retired = s.retired := rfl
@[simp] theorem State.setDie_rejections (s : State) (d : Nat) (f : Die → Die) : (s.setDie d f).rejections = s.rejections := rfl
@[simp] theorem State.setDie_graphs (s : State) (d : Nat) (f : Die → Die) : (s.setDie d f).graphs = s.graphs := rfl
@[simp] theorem State.setDie_sent (s : State) (d : Nat) (f : Die → Die) : (s.setDie d f).sent = s.sent := rfl

@[simp] theorem State.slotAt_setSlot_same (s : State) (ctx : Nat) (f : Slot → Slot) :
    (s.setSlot ctx f).slotAt ctx = f (s.slotAt ctx) := aget_amod_same _ _ _ _

theorem State.slotAt_setSlot_other (s : State) {ctx k : Nat} (f : Slot → Slot) (h : k ≠ ctx) :
    (s.setSlot ctx f).slotAt k = s.slotAt k := aget_amod_other _ _ _ h

/-- Two changes of one slot are one change. -/
@[simp] theorem State.setSlot_setSlot (s : State) (ctx : Nat) (f g : Slot → Slot) :
    (s.setSlot ctx g).setSlot ctx f = s.setSlot ctx fun l => f (g l) := by
  simp [State.setSlot]

@[simp] theorem State.slotAt_setDie (s : State) (d ctx : Nat) (f : Die → Die) : (s.setDie d f).slotAt ctx = s.slotAt ctx := rfl

theorem State.die_setDie (s : State) (d : Nat) (f : Die → Die) (h : d < s.dies.length) : (s.setDie d f).die d = f (s.die d) := by
  simp [State.die, State.setDie, lmod_getElem?, h]

theorem State.die_setDie_other (s : State) {d k : Nat} (f : Die → Die) (h : k ≠ d) : (s.setDie d f).die k = s.die k := by
  simp [State.die, State.setDie, lmod_getElem?, h]

@[simp] theorem Slot.setCore_stage (l : Slot) (f : Core → Core) : (l.setCore f).stage = l.stage := rfl
@[simp] theorem Slot.setCore_task (l : Slot) (f : Core → Core) : (l.setCore f).task = l.task := rfl
@[simp] theorem Slot.setCore_core (l : Slot) (f : Core → Core) : (l.setCore f).core = f l.core := rfl
@[simp] theorem Slot.setCore_eng (l : Slot) (f : Core → Core) : (l.setCore f).eng = l.eng := rfl
@[simp] theorem Slot.setCore_quad (l : Slot) (f : Core → Core) : (l.setCore f).quad = l.quad := rfl
@[simp] theorem Slot.setCore_chain (l : Slot) (f : Core → Core) : (l.setCore f).chain = l.chain := rfl
@[simp] theorem Slot.setCore_queueA (l : Slot) (f : Core → Core) : (l.setCore f).queueA = l.queueA := rfl
@[simp] theorem Slot.setCore_queueE (l : Slot) (f : Core → Core) : (l.setCore f).queueE = l.queueE := rfl
@[simp] theorem Slot.setCore_array (l : Slot) (f : Core → Core) : (l.setCore f).array = l.array := rfl
@[simp] theorem Slot.setCore_ended (l : Slot) (f : Core → Core) : (l.setCore f).ended = l.ended := rfl
@[simp] theorem Slot.setCore_channels (l : Slot) (f : Core → Core) : (l.setCore f).channels = l.channels := rfl
@[simp] theorem Slot.setCore_regions (l : Slot) (f : Core → Core) : (l.setCore f).regions = l.regions := rfl
@[simp] theorem Slot.setCore_store (l : Slot) (f : Core → Core) : (l.setCore f).store = l.store := rfl
@[simp] theorem Slot.setCore_badWords (l : Slot) (f : Core → Core) : (l.setCore f).badWords = l.badWords := rfl
@[simp] theorem Slot.setCore_blocks (l : Slot) (f : Core → Core) : (l.setCore f).blocks = l.blocks := rfl
@[simp] theorem Slot.setCore_deferred (l : Slot) (f : Core → Core) : (l.setCore f).deferred = l.deferred := rfl
@[simp] theorem Slot.setCore_preq (l : Slot) (f : Core → Core) : (l.setCore f).preq = l.preq := rfl
@[simp] theorem Slot.setCore_boundAt (l : Slot) (f : Core → Core) : (l.setCore f).boundAt = l.boundAt := rfl
@[simp] theorem Slot.setCore_gated (l : Slot) (f : Core → Core) : (l.setCore f).gated = l.gated := rfl
@[simp] theorem Slot.setCore_yielded (l : Slot) (f : Core → Core) : (l.setCore f).yielded = l.yielded := rfl
@[simp] theorem Slot.setCore_draining (l : Slot) (f : Core → Core) : (l.setCore f).draining = l.draining := rfl
@[simp] theorem Slot.setCore_gateHeld (l : Slot) (f : Core → Core) : (l.setCore f).gateHeld = l.gateHeld := rfl
@[simp] theorem Slot.setCore_drainHeld (l : Slot) (f : Core → Core) : (l.setCore f).drainHeld = l.drainHeld := rfl
@[simp] theorem Slot.setCore_applied (l : Slot) (f : Core → Core) : (l.setCore f).applied = l.applied := rfl
@[simp] theorem Slot.setCore_journalTile (l : Slot) (f : Core → Core) : (l.setCore f).journalTile = l.journalTile := rfl
@[simp] theorem Slot.setCore_journalEnc (l : Slot) (f : Core → Core) : (l.setCore f).journalEnc = l.journalEnc := rfl
@[simp] theorem Slot.setCore_commitNotice (l : Slot) (f : Core → Core) : (l.setCore f).commitNotice = l.commitNotice := rfl
@[simp] theorem Slot.setCore_missed (l : Slot) (f : Core → Core) : (l.setCore f).missed = l.missed := rfl

end Sys2Proof.Machine
end

