-- ==== Sys2Proof/Laws/Core.lean ====
section
/-! SUPPORT. Laws of a control core: what setting a path, setting a register, landing results and closing windows leave alone, and what
a register reads as after it was set. -/

namespace Sys2Proof.Machine

@[simp] theorem Core.setPath_sreg (c : Core) (f : Path → Path) : (c.setPath f).sreg = c.sreg := by
  unfold Core.setPath; split <;> rfl
@[simp] theorem Core.setPath_supBank (c : Core) (f : Path → Path) : (c.setPath f).supBank = c.supBank := by
  unfold Core.setPath; split <;> rfl
@[simp] theorem Core.setPath_freg (c : Core) (f : Path → Path) : (c.setPath f).freg = c.freg := by
  unfold Core.setPath; split <;> rfl
@[simp] theorem Core.setPath_preg (c : Core) (f : Path → Path) : (c.setPath f).preg = c.preg := by
  unfold Core.setPath; split <;> rfl
@[simp] theorem Core.setPath_hreg (c : Core) (f : Path → Path) : (c.setPath f).hreg = c.hreg := by
  unfold Core.setPath; split <;> rfl
@[simp] theorem Core.setPath_bdreg (c : Core) (f : Path → Path) : (c.setPath f).bdreg = c.bdreg := by
  unfold Core.setPath; split <;> rfl
@[simp] theorem Core.setPath_ereg (c : Core) (f : Path → Path) : (c.setPath f).ereg = c.ereg := by
  unfold Core.setPath; split <;> rfl
@[simp] theorem Core.setPath_spill (c : Core) (f : Path → Path) : (c.setPath f).spill = c.spill := by
  unfold Core.setPath; split <;> rfl
@[simp] theorem Core.setPath_supSpill (c : Core) (f : Path → Path) : (c.setPath f).supSpill = c.supSpill := by
  unfold Core.setPath; split <;> rfl
@[simp] theorem Core.setPath_slipwin (c : Core) (f : Path → Path) : (c.setPath f).slipwin = c.slipwin := by
  unfold Core.setPath; split <;> rfl
@[simp] theorem Core.setPath_dzt (c : Core) (f : Path → Path) : (c.setPath f).dzt = c.dzt := by
  unfold Core.setPath; split <;> rfl
@[simp] theorem Core.setPath_commit (c : Core) (f : Path → Path) : (c.setPath f).commit = c.commit := by
  unfold Core.setPath; split <;> rfl
@[simp] theorem Core.setPath_jnl (c : Core) (f : Path → Path) : (c.setPath f).jnl = c.jnl := by
  unfold Core.setPath; split <;> rfl
@[simp] theorem Core.setPath_diagen (c : Core) (f : Path → Path) : (c.setPath f).diagen = c.diagen := by
  unfold Core.setPath; split <;> rfl
@[simp] theorem Core.setPath_sup (c : Core) (f : Path → Path) : (c.setPath f).sup = c.sup := by
  unfold Core.setPath; split <;> rfl
@[simp] theorem Core.setPath_trapcause (c : Core) (f : Path → Path) : (c.setPath f).trapcause = c.trapcause := by
  unfold Core.setPath; split <;> rfl
@[simp] theorem Core.setPath_trapval (c : Core) (f : Path → Path) : (c.setPath f).trapval = c.trapval := by
  unfold Core.setPath; split <;> rfl
@[simp] theorem Core.setPath_trappcS (c : Core) (f : Path → Path) : (c.setPath f).trappcS = c.trappcS := by
  unfold Core.setPath; split <;> rfl
@[simp] theorem Core.setPath_trappcM (c : Core) (f : Path → Path) : (c.setPath f).trappcM = c.trappcM := by
  unfold Core.setPath; split <;> rfl
@[simp] theorem Core.setPath_trappcA (c : Core) (f : Path → Path) : (c.setPath f).trappcA = c.trappcA := by
  unfold Core.setPath; split <;> rfl
@[simp] theorem Core.setPath_trappcY (c : Core) (f : Path → Path) : (c.setPath f).trappcY = c.trappcY := by
  unfold Core.setPath; split <;> rfl
@[simp] theorem Core.setPath_arenabase (c : Core) (f : Path → Path) : (c.setPath f).arenabase = c.arenabase := by
  unfold Core.setPath; split <;> rfl
@[simp] theorem Core.setPath_arenabound (c : Core) (f : Path → Path) : (c.setPath f).arenabound = c.arenabound := by
  unfold Core.setPath; split <;> rfl
@[simp] theorem Core.setPath_age (c : Core) (f : Path → Path) : (c.setPath f).age = c.age := by
  unfold Core.setPath; split <;> rfl
@[simp] theorem Core.setPath_restarts (c : Core) (f : Path → Path) : (c.setPath f).restarts = c.restarts := by
  unfold Core.setPath; split <;> rfl
@[simp] theorem Core.setPath_deadline (c : Core) (f : Path → Path) : (c.setPath f).deadline = c.deadline := by
  unfold Core.setPath; split <;> rfl
@[simp] theorem Core.setPath_dued (c : Core) (f : Path → Path) : (c.setPath f).dued = c.dued := by
  unfold Core.setPath; split <;> rfl
@[simp] theorem Core.setPath_evTake (c : Core) (f : Path → Path) : (c.setPath f).evTake = c.evTake := by
  unfold Core.setPath; split <;> rfl
@[simp] theorem Core.setPath_evClear (c : Core) (f : Path → Path) : (c.setPath f).evClear = c.evClear := by
  unfold Core.setPath; split <;> rfl
@[simp] theorem Core.setPath_woundHeld (c : Core) (f : Path → Path) : (c.setPath f).woundHeld = c.woundHeld := by
  unfold Core.setPath; split <;> rfl
@[simp] theorem Core.setPath_cycle (c : Core) (f : Path → Path) : (c.setPath f).cycle = c.cycle := by
  unfold Core.setPath; split <;> rfl
@[simp] theorem Core.setPath_flights (c : Core) (f : Path → Path) : (c.setPath f).flights = c.flights := by
  unfold Core.setPath; split <;> rfl
@[simp] theorem Core.setPath_arm (c : Core) (f : Path → Path) : (c.setPath f).arm = c.arm := by
  unfold Core.setPath; split <;> rfl
@[simp] theorem Core.setPath_bank (c : Core) (f : Path → Path) : (c.setPath f).bank = c.bank := by
  unfold Core.setPath; split <;> rfl
@[simp] theorem Core.setPath_ywait (c : Core) (f : Path → Path) : (c.setPath f).ywait = c.ywait := by
  unfold Core.setPath; split <;> rfl
@[simp] theorem Core.setPath_restamp (c : Core) (f : Path → Path) : (c.setPath f).restamp = c.restamp := by
  unfold Core.setPath; split <;> rfl
@[simp] theorem Core.setPath_pend (c : Core) (f : Path → Path) : (c.setPath f).pend = c.pend := by
  unfold Core.setPath; split <;> rfl
@[simp] theorem Core.setPath_asmM (c : Core) (f : Path → Path) : (c.setPath f).asmM = c.asmM := by
  unfold Core.setPath; split <;> rfl
@[simp] theorem Core.setPath_asmA (c : Core) (f : Path → Path) : (c.setPath f).asmA = c.asmA := by
  unfold Core.setPath; split <;> rfl
@[simp] theorem Core.setPath_asmE (c : Core) (f : Path → Path) : (c.setPath f).asmE = c.asmE := by
  unfold Core.setPath; split <;> rfl
@[simp] theorem Core.setPath_chf (c : Core) (f : Path → Path) : (c.setPath f).chf = c.chf := by
  unfold Core.setPath; split <;> rfl
@[simp] theorem Core.setPath_sts (c : Core) (f : Path → Path) : (c.setPath f).sts = c.sts := by
  unfold Core.setPath; split <;> rfl
@[simp] theorem Core.setPath_xi (c : Core) (f : Path → Path) : (c.setPath f).xi = c.xi := by
  unfold Core.setPath; split <;> rfl
@[simp] theorem Core.setPath_xo (c : Core) (f : Path → Path) : (c.setPath f).xo = c.xo := by
  unfold Core.setPath; split <;> rfl
@[simp] theorem Core.setPath_seqM (c : Core) (f : Path → Path) : (c.setPath f).seqM = c.seqM := by
  unfold Core.setPath; split <;> rfl
@[simp] theorem Core.setPath_seqA (c : Core) (f : Path → Path) : (c.setPath f).seqA = c.seqA := by
  unfold Core.setPath; split <;> rfl
@[simp] theorem Core.setPath_seqE (c : Core) (f : Path → Path) : (c.setPath f).seqE = c.seqE := by
  unfold Core.setPath; split <;> rfl
@[simp] theorem Core.setPath_acks (c : Core) (f : Path → Path) : (c.setPath f).acks = c.acks := by
  unfold Core.setPath; split <;> rfl
@[simp] theorem Core.setPath_windrows (c : Core) (f : Path → Path) : (c.setPath f).windrows = c.windrows := by
  unfold Core.setPath; split <;> rfl
@[simp] theorem Core.path_setPath (c : Core) (f : Path → Path) : (c.setPath f).path = f c.path := by
  unfold Core.setPath Core.path; split <;> simp_all

@[simp] theorem Core.setReg_hreg (c : Core) (r : RegId) (v : Word) : (c.setReg r v).hreg = c.hreg := by
  cases r <;> simp only [Core.setReg, Core.setS, Core.setF, Core.setP] <;> (repeat' split) <;> rfl
@[simp] theorem Core.setReg_bdreg (c : Core) (r : RegId) (v : Word) : (c.setReg r v).bdreg = c.bdreg := by
  cases r <;> simp only [Core.setReg, Core.setS, Core.setF, Core.setP] <;> (repeat' split) <;> rfl
@[simp] theorem Core.setReg_ereg (c : Core) (r : RegId) (v : Word) : (c.setReg r v).ereg = c.ereg := by
  cases r <;> simp only [Core.setReg, Core.setS, Core.setF, Core.setP] <;> (repeat' split) <;> rfl
@[simp] theorem Core.setReg_spill (c : Core) (r : RegId) (v : Word) : (c.setReg r v).spill = c.spill := by
  cases r <;> simp only [Core.setReg, Core.setS, Core.setF, Core.setP] <;> (repeat' split) <;> rfl
@[simp] theorem Core.setReg_supSpill (c : Core) (r : RegId) (v : Word) : (c.setReg r v).supSpill = c.supSpill := by
  cases r <;> simp only [Core.setReg, Core.setS, Core.setF, Core.setP] <;> (repeat' split) <;> rfl
@[simp] theorem Core.setReg_slipwin (c : Core) (r : RegId) (v : Word) : (c.setReg r v).slipwin = c.slipwin := by
  cases r <;> simp only [Core.setReg, Core.setS, Core.setF, Core.setP] <;> (repeat' split) <;> rfl
@[simp] theorem Core.setReg_dzt (c : Core) (r : RegId) (v : Word) : (c.setReg r v).dzt = c.dzt := by
  cases r <;> simp only [Core.setReg, Core.setS, Core.setF, Core.setP] <;> (repeat' split) <;> rfl
@[simp] theorem Core.setReg_commit (c : Core) (r : RegId) (v : Word) : (c.setReg r v).commit = c.commit := by
  cases r <;> simp only [Core.setReg, Core.setS, Core.setF, Core.setP] <;> (repeat' split) <;> rfl
@[simp] theorem Core.setReg_jnl (c : Core) (r : RegId) (v : Word) : (c.setReg r v).jnl = c.jnl := by
  cases r <;> simp only [Core.setReg, Core.setS, Core.setF, Core.setP] <;> (repeat' split) <;> rfl
@[simp] theorem Core.setReg_diagen (c : Core) (r : RegId) (v : Word) : (c.setReg r v).diagen = c.diagen := by
  cases r <;> simp only [Core.setReg, Core.setS, Core.setF, Core.setP] <;> (repeat' split) <;> rfl
@[simp] theorem Core.setReg_sup (c : Core) (r : RegId) (v : Word) : (c.setReg r v).sup = c.sup := by
  cases r <;> simp only [Core.setReg, Core.setS, Core.setF, Core.setP] <;> (repeat' split) <;> rfl
@[simp] theorem Core.setReg_trapcause (c : Core) (r : RegId) (v : Word) : (c.setReg r v).trapcause = c.trapcause := by
  cases r <;> simp only [Core.setReg, Core.setS, Core.setF, Core.setP] <;> (repeat' split) <;> rfl
@[simp] theorem Core.setReg_trapval (c : Core) (r : RegId) (v : Word) : (c.setReg r v).trapval = c.trapval := by
  cases r <;> simp only [Core.setReg, Core.setS, Core.setF, Core.setP] <;> (repeat' split) <;> rfl
@[simp] theorem Core.setReg_trappcS (c : Core) (r : RegId) (v : Word) : (c.setReg r v).trappcS = c.trappcS := by
  cases r <;> simp only [Core.setReg, Core.setS, Core.setF, Core.setP] <;> (repeat' split) <;> rfl
@[simp] theorem Core.setReg_trappcM (c : Core) (r : RegId) (v : Word) : (c.setReg r v).trappcM = c.trappcM := by
  cases r <;> simp only [Core.setReg, Core.setS, Core.setF, Core.setP] <;> (repeat' split) <;> rfl
@[simp] theorem Core.setReg_trappcA (c : Core) (r : RegId) (v : Word) : (c.setReg r v).trappcA = c.trappcA := by
  cases r <;> simp only [Core.setReg, Core.setS, Core.setF, Core.setP] <;> (repeat' split) <;> rfl
@[simp] theorem Core.setReg_trappcY (c : Core) (r : RegId) (v : Word) : (c.setReg r v).trappcY = c.trappcY := by
  cases r <;> simp only [Core.setReg, Core.setS, Core.setF, Core.setP] <;> (repeat' split) <;> rfl
@[simp] theorem Core.setReg_arenabase (c : Core) (r : RegId) (v : Word) : (c.setReg r v).arenabase = c.arenabase := by
  cases r <;> simp only [Core.setReg, Core.setS, Core.setF, Core.setP] <;> (repeat' split) <;> rfl
@[simp] theorem Core.setReg_arenabound (c : Core) (r : RegId) (v : Word) : (c.setReg r v).arenabound = c.arenabound := by
  cases r <;> simp only [Core.setReg, Core.setS, Core.setF, Core.setP] <;> (repeat' split) <;> rfl
@[simp] theorem Core.setReg_age (c : Core) (r : RegId) (v : Word) : (c.setReg r v).age = c.age := by
  cases r <;> simp only [Core.setReg, Core.setS, Core.setF, Core.setP] <;> (repeat' split) <;> rfl
@[simp] theorem Core.setReg_restarts (c : Core) (r : RegId) (v : Word) : (c.setReg r v).restarts = c.restarts := by
  cases r <;> simp only [Core.setReg, Core.setS, Core.setF, Core.setP] <;> (repeat' split) <;> rfl
@[simp] theorem Core.setReg_deadline (c : Core) (r : RegId) (v : Word) : (c.setReg r v).deadline = c.deadline := by
  cases r <;> simp only [Core.setReg, Core.setS, Core.setF, Core.setP] <;> (repeat' split) <;> rfl
@[simp] theorem Core.setReg_dued (c : Core) (r : RegId) (v : Word) : (c.setReg r v).dued = c.dued := by
  cases r <;> simp only [Core.setReg, Core.setS, Core.setF, Core.setP] <;> (repeat' split) <;> rfl
@[simp] theorem Core.setReg_evTake (c : Core) (r : RegId) (v : Word) : (c.setReg r v).evTake = c.evTake := by
  cases r <;> simp only [Core.setReg, Core.setS, Core.setF, Core.setP] <;> (repeat' split) <;> rfl
@[simp] theorem Core.setReg_evClear (c : Core) (r : RegId) (v : Word) : (c.setReg r v).evClear = c.evClear := by
  cases r <;> simp only [Core.setReg, Core.setS, Core.setF, Core.setP] <;> (repeat' split) <;> rfl
@[simp] theorem Core.setReg_woundHeld (c : Core) (r : RegId) (v : Word) : (c.setReg r v).woundHeld = c.woundHeld := by
  cases r <;> simp only [Core.setReg, Core.setS, Core.setF, Core.setP] <;> (repeat' split) <;> rfl
@[simp] theorem Core.setReg_user (c : Core) (r : RegId) (v : Word) : (c.setReg r v).user = c.user := by
  cases r <;> simp only [Core.setReg, Core.setS, Core.setF, Core.setP] <;> (repeat' split) <;> rfl
@[simp] theorem Core.setReg_firm (c : Core) (r : RegId) (v : Word) : (c.setReg r v).firm = c.firm := by
  cases r <;> simp only [Core.setReg, Core.setS, Core.setF, Core.setP] <;> (repeat' split) <;> rfl
@[simp] theorem Core.setReg_cycle (c : Core) (r : RegId) (v : Word) : (c.setReg r v).cycle = c.cycle := by
  cases r <;> simp only [Core.setReg, Core.setS, Core.setF, Core.setP] <;> (repeat' split) <;> rfl
@[simp] theorem Core.setReg_flights (c : Core) (r : RegId) (v : Word) : (c.setReg r v).flights = c.flights := by
  cases r <;> simp only [Core.setReg, Core.setS, Core.setF, Core.setP] <;> (repeat' split) <;> rfl
@[simp] theorem Core.setReg_arm (c : Core) (r : RegId) (v : Word) : (c.setReg r v).arm = c.arm := by
  cases r <;> simp only [Core.setReg, Core.setS, Core.setF, Core.setP] <;> (repeat' split) <;> rfl
@[simp] theorem Core.setReg_bank (c : Core) (r : RegId) (v : Word) : (c.setReg r v).bank = c.bank := by
  cases r <;> simp only [Core.setReg, Core.setS, Core.setF, Core.setP] <;> (repeat' split) <;> rfl
@[simp] theorem Core.setReg_ywait (c : Core) (r : RegId) (v : Word) : (c.setReg r v).ywait = c.ywait := by
  cases r <;> simp only [Core.setReg, Core.setS, Core.setF, Core.setP] <;> (repeat' split) <;> rfl
@[simp] theorem Core.setReg_restamp (c : Core) (r : RegId) (v : Word) : (c.setReg r v).restamp = c.restamp := by
  cases r <;> simp only [Core.setReg, Core.setS, Core.setF, Core.setP] <;> (repeat' split) <;> rfl
@[simp] theorem Core.setReg_pend (c : Core) (r : RegId) (v : Word) : (c.setReg r v).pend = c.pend := by
  cases r <;> simp only [Core.setReg, Core.setS, Core.setF, Core.setP] <;> (repeat' split) <;> rfl
@[simp] theorem Core.setReg_asmM (c : Core) (r : RegId) (v : Word) : (c.setReg r v).asmM = c.asmM := by
  cases r <;> simp only [Core.setReg, Core.setS, Core.setF, Core.setP] <;> (repeat' split) <;> rfl
@[simp] theorem Core.setReg_asmA (c : Core) (r : RegId) (v : Word) : (c.setReg r v).asmA = c.asmA := by
  cases r <;> simp only [Core.setReg, Core.setS, Core.setF, Core.setP] <;> (repeat' split) <;> rfl
@[simp] theorem Core.setReg_asmE (c : Core) (r : RegId) (v : Word) : (c.setReg r v).asmE = c.asmE := by
  cases r <;> simp only [Core.setReg, Core.setS, Core.setF, Core.setP] <;> (repeat' split) <;> rfl
@[simp] theorem Core.setReg_chf (c : Core) (r : RegId) (v : Word) : (c.setReg r v).chf = c.chf := by
  cases r <;> simp only [Core.setReg, Core.setS, Core.setF, Core.setP] <;> (repeat' split) <;> rfl
@[simp] theorem Core.setReg_sts (c : Core) (r : RegId) (v : Word) : (c.setReg r v).sts = c.sts := by
  cases r <;> simp only [Core.setReg, Core.setS, Core.setF, Core.setP] <;> (repeat' split) <;> rfl
@[simp] theorem Core.setReg_xi (c : Core) (r : RegId) (v : Word) : (c.setReg r v).xi = c.xi := by
  cases r <;> simp only [Core.setReg, Core.setS, Core.setF, Core.setP] <;> (repeat' split) <;> rfl
@[simp] theorem Core.setReg_xo (c : Core) (r : RegId) (v : Word) : (c.setReg r v).xo = c.xo := by
  cases r <;> simp only [Core.setReg, Core.setS, Core.setF, Core.setP] <;> (repeat' split) <;> rfl
@[simp] theorem Core.setReg_seqM (c : Core) (r : RegId) (v : Word) : (c.setReg r v).seqM = c.seqM := by
  cases r <;> simp only [Core.setReg, Core.setS, Core.setF, Core.setP] <;> (repeat' split) <;> rfl
@[simp] theorem Core.setReg_seqA (c : Core) (r : RegId) (v : Word) : (c.setReg r v).seqA = c.seqA := by
  cases r <;> simp only [Core.setReg, Core.setS, Core.setF, Core.setP] <;> (repeat' split) <;> rfl
@[simp] theorem Core.setReg_seqE (c : Core) (r : RegId) (v : Word) : (c.setReg r v).seqE = c.seqE := by
  cases r <;> simp only [Core.setReg, Core.setS, Core.setF, Core.setP] <;> (repeat' split) <;> rfl
@[simp] theorem Core.setReg_acks (c : Core) (r : RegId) (v : Word) : (c.setReg r v).acks = c.acks := by
  cases r <;> simp only [Core.setReg, Core.setS, Core.setF, Core.setP] <;> (repeat' split) <;> rfl
@[simp] theorem Core.setReg_windrows (c : Core) (r : RegId) (v : Word) : (c.setReg r v).windrows = c.windrows := by
  cases r <;> simp only [Core.setReg, Core.setS, Core.setF, Core.setP] <;> (repeat' split) <;> rfl

/-- The results of a list that have not landed are written, in order (R114). -/
def Core.landList (c : Core) (l : List Flight) : Core := l.foldl (fun c f => if f.landed then c else c.setReg f.reg f.val) c

@[simp] theorem Core.landList_hreg (c : Core) (l : List Flight) : (c.landList l).hreg = c.hreg := by
  unfold Core.landList
  induction l generalizing c with
  | nil => rfl
  | cons x l ih => rw [List.foldl_cons, ih]; split <;> simp
@[simp] theorem Core.landList_bdreg (c : Core) (l : List Flight) : (c.landList l).bdreg = c.bdreg := by
  unfold Core.landList
  induction l generalizing c with
  | nil => rfl
  | cons x l ih => rw [List.foldl_cons, ih]; split <;> simp
@[simp] theorem Core.landList_ereg (c : Core) (l : List Flight) : (c.landList l).ereg = c.ereg := by
  unfold Core.landList
  induction l generalizing c with
  | nil => rfl
  | cons x l ih => rw [List.foldl_cons, ih]; split <;> simp
@[simp] theorem Core.landList_spill (c : Core) (l : List Flight) : (c.landList l).spill = c.spill := by
  unfold Core.landList
  induction l generalizing c with
  | nil => rfl
  | cons x l ih => rw [List.foldl_cons, ih]; split <;> simp
@[simp] theorem Core.landList_supSpill (c : Core) (l : List Flight) : (c.landList l).supSpill = c.supSpill := by
  unfold Core.landList
  induction l generalizing c with
  | nil => rfl
  | cons x l ih => rw [List.foldl_cons, ih]; split <;> simp
@[simp] theorem Core.landList_slipwin (c : Core) (l : List Flight) : (c.landList l).slipwin = c.slipwin := by
  unfold Core.landList
  induction l generalizing c with
  | nil => rfl
  | cons x l ih => rw [List.foldl_cons, ih]; split <;> simp
@[simp] theorem Core.landList_dzt (c : Core) (l : List Flight) : (c.landList l).dzt = c.dzt := by
  unfold Core.landList
  induction l generalizing c with
  | nil => rfl
  | cons x l ih => rw [List.foldl_cons, ih]; split <;> simp
@[simp] theorem Core.landList_commit (c : Core) (l : List Flight) : (c.landList l).commit = c.commit := by
  unfold Core.landList
  induction l generalizing c with
  | nil => rfl
  | cons x l ih => rw [List.foldl_cons, ih]; split <;> simp
@[simp] theorem Core.landList_jnl (c : Core) (l : List Flight) : (c.landList l).jnl = c.jnl := by
  unfold Core.landList
  induction l generalizing c with
  | nil => rfl
  | cons x l ih => rw [List.foldl_cons, ih]; split <;> simp
@[simp] theorem Core.landList_diagen (c : Core) (l : List Flight) : (c.landList l).diagen = c.diagen := by
  unfold Core.landList
  induction l generalizing c with
  | nil => rfl
  | cons x l ih => rw [List.foldl_cons, ih]; split <;> simp
@[simp] theorem Core.landList_sup (c : Core) (l : List Flight) : (c.landList l).sup = c.sup := by
  unfold Core.landList
  induction l generalizing c with
  | nil => rfl
  | cons x l ih => rw [List.foldl_cons, ih]; split <;> simp
@[simp] theorem Core.landList_trapcause (c : Core) (l : List Flight) : (c.landList l).trapcause = c.trapcause := by
  unfold Core.landList
  induction l generalizing c with
  | nil => rfl
  | cons x l ih => rw [List.foldl_cons, ih]; split <;> simp
@[simp] theorem Core.landList_trapval (c : Core) (l : List Flight) : (c.landList l).trapval = c.trapval := by
  unfold Core.landList
  induction l generalizing c with
  | nil => rfl
  | cons x l ih => rw [List.foldl_cons, ih]; split <;> simp
@[simp] theorem Core.landList_trappcS (c : Core) (l : List Flight) : (c.landList l).trappcS = c.trappcS := by
  unfold Core.landList
  induction l generalizing c with
  | nil => rfl
  | cons x l ih => rw [List.foldl_cons, ih]; split <;> simp
@[simp] theorem Core.landList_trappcM (c : Core) (l : List Flight) : (c.landList l).trappcM = c.trappcM := by
  unfold Core.landList
  induction l generalizing c with
  | nil => rfl
  | cons x l ih => rw [List.foldl_cons, ih]; split <;> simp
@[simp] theorem Core.landList_trappcA (c : Core) (l : List Flight) : (c.landList l).trappcA = c.trappcA := by
  unfold Core.landList
  induction l generalizing c with
  | nil => rfl
  | cons x l ih => rw [List.foldl_cons, ih]; split <;> simp
@[simp] theorem Core.landList_trappcY (c : Core) (l : List Flight) : (c.landList l).trappcY = c.trappcY := by
  unfold Core.landList
  induction l generalizing c with
  | nil => rfl
  | cons x l ih => rw [List.foldl_cons, ih]; split <;> simp
@[simp] theorem Core.landList_arenabase (c : Core) (l : List Flight) : (c.landList l).arenabase = c.arenabase := by
  unfold Core.landList
  induction l generalizing c with
  | nil => rfl
  | cons x l ih => rw [List.foldl_cons, ih]; split <;> simp
@[simp] theorem Core.landList_arenabound (c : Core) (l : List Flight) : (c.landList l).arenabound = c.arenabound := by
  unfold Core.landList
  induction l generalizing c with
  | nil => rfl
  | cons x l ih => rw [List.foldl_cons, ih]; split <;> simp
@[simp] theorem Core.landList_age (c : Core) (l : List Flight) : (c.landList l).age = c.age := by
  unfold Core.landList
  induction l generalizing c with
  | nil => rfl
  | cons x l ih => rw [List.foldl_cons, ih]; split <;> simp
@[simp] theorem Core.landList_restarts (c : Core) (l : List Flight) : (c.landList l).restarts = c.restarts := by
  unfold Core.landList
  induction l generalizing c with
  | nil => rfl
  | cons x l ih => rw [List.foldl_cons, ih]; split <;> simp
@[simp] theorem Core.landList_deadline (c : Core) (l : List Flight) : (c.landList l).deadline = c.deadline := by
  unfold Core.landList
  induction l generalizing c with
  | nil => rfl
  | cons x l ih => rw [List.foldl_cons, ih]; split <;> simp
@[simp] theorem Core.landList_dued (c : Core) (l : List Flight) : (c.landList l).dued = c.dued := by
  unfold Core.landList
  induction l generalizing c with
  | nil => rfl
  | cons x l ih => rw [List.foldl_cons, ih]; split <;> simp
@[simp] theorem Core.landList_evTake (c : Core) (l : List Flight) : (c.landList l).evTake = c.evTake := by
  unfold Core.landList
  induction l generalizing c with
  | nil => rfl
  | cons x l ih => rw [List.foldl_cons, ih]; split <;> simp
@[simp] theorem Core.landList_evClear (c : Core) (l : List Flight) : (c.landList l).evClear = c.evClear := by
  unfold Core.landList
  induction l generalizing c with
  | nil => rfl
  | cons x l ih => rw [List.foldl_cons, ih]; split <;> simp
@[simp] theorem Core.landList_woundHeld (c : Core) (l : List Flight) : (c.landList l).woundHeld = c.woundHeld := by
  unfold Core.landList
  induction l generalizing c with
  | nil => rfl
  | cons x l ih => rw [List.foldl_cons, ih]; split <;> simp
@[simp] theorem Core.landList_user (c : Core) (l : List Flight) : (c.landList l).user = c.user := by
  unfold Core.landList
  induction l generalizing c with
  | nil => rfl
  | cons x l ih => rw [List.foldl_cons, ih]; split <;> simp
@[simp] theorem Core.landList_firm (c : Core) (l : List Flight) : (c.landList l).firm = c.firm := by
  unfold Core.landList
  induction l generalizing c with
  | nil => rfl
  | cons x l ih => rw [List.foldl_cons, ih]; split <;> simp
@[simp] theorem Core.landList_cycle (c : Core) (l : List Flight) : (c.landList l).cycle = c.cycle := by
  unfold Core.landList
  induction l generalizing c with
  | nil => rfl
  | cons x l ih => rw [List.foldl_cons, ih]; split <;> simp
@[simp] theorem Core.landList_flights (c : Core) (l : List Flight) : (c.landList l).flights = c.flights := by
  unfold Core.landList
  induction l generalizing c with
  | nil => rfl
  | cons x l ih => rw [List.foldl_cons, ih]; split <;> simp
@[simp] theorem Core.landList_arm (c : Core) (l : List Flight) : (c.landList l).arm = c.arm := by
  unfold Core.landList
  induction l generalizing c with
  | nil => rfl
  | cons x l ih => rw [List.foldl_cons, ih]; split <;> simp
@[simp] theorem Core.landList_bank (c : Core) (l : List Flight) : (c.landList l).bank = c.bank := by
  unfold Core.landList
  induction l generalizing c with
  | nil => rfl
  | cons x l ih => rw [List.foldl_cons, ih]; split <;> simp
@[simp] theorem Core.landList_ywait (c : Core) (l : List Flight) : (c.landList l).ywait = c.ywait := by
  unfold Core.landList
  induction l generalizing c with
  | nil => rfl
  | cons x l ih => rw [List.foldl_cons, ih]; split <;> simp
@[simp] theorem Core.landList_restamp (c : Core) (l : List Flight) : (c.landList l).restamp = c.restamp := by
  unfold Core.landList
  induction l generalizing c with
  | nil => rfl
  | cons x l ih => rw [List.foldl_cons, ih]; split <;> simp
@[simp] theorem Core.landList_pend (c : Core) (l : List Flight) : (c.landList l).pend = c.pend := by
  unfold Core.landList
  induction l generalizing c with
  | nil => rfl
  | cons x l ih => rw [List.foldl_cons, ih]; split <;> simp
@[simp] theorem Core.landList_asmM (c : Core) (l : List Flight) : (c.landList l).asmM = c.asmM := by
  unfold Core.landList
  induction l generalizing c with
  | nil => rfl
  | cons x l ih => rw [List.foldl_cons, ih]; split <;> simp
@[simp] theorem Core.landList_asmA (c : Core) (l : List Flight) : (c.landList l).asmA = c.asmA := by
  unfold Core.landList
  induction l generalizing c with
  | nil => rfl
  | cons x l ih => rw [List.foldl_cons, ih]; split <;> simp
@[simp] theorem Core.landList_asmE (c : Core) (l : List Flight) : (c.landList l).asmE = c.asmE := by
  unfold Core.landList
  induction l generalizing c with
  | nil => rfl
  | cons x l ih => rw [List.foldl_cons, ih]; split <;> simp
@[simp] theorem Core.landList_chf (c : Core) (l : List Flight) : (c.landList l).chf = c.chf := by
  unfold Core.landList
  induction l generalizing c with
  | nil => rfl
  | cons x l ih => rw [List.foldl_cons, ih]; split <;> simp
@[simp] theorem Core.landList_sts (c : Core) (l : List Flight) : (c.landList l).sts = c.sts := by
  unfold Core.landList
  induction l generalizing c with
  | nil => rfl
  | cons x l ih => rw [List.foldl_cons, ih]; split <;> simp
@[simp] theorem Core.landList_xi (c : Core) (l : List Flight) : (c.landList l).xi = c.xi := by
  unfold Core.landList
  induction l generalizing c with
  | nil => rfl
  | cons x l ih => rw [List.foldl_cons, ih]; split <;> simp
@[simp] theorem Core.landList_xo (c : Core) (l : List Flight) : (c.landList l).xo = c.xo := by
  unfold Core.landList
  induction l generalizing c with
  | nil => rfl
  | cons x l ih => rw [List.foldl_cons, ih]; split <;> simp
@[simp] theorem Core.landList_seqM (c : Core) (l : List Flight) : (c.landList l).seqM = c.seqM := by
  unfold Core.landList
  induction l generalizing c with
  | nil => rfl
  | cons x l ih => rw [List.foldl_cons, ih]; split <;> simp
@[simp] theorem Core.landList_seqA (c : Core) (l : List Flight) : (c.landList l).seqA = c.seqA := by
  unfold Core.landList
  induction l generalizing c with
  | nil => rfl
  | cons x l ih => rw [List.foldl_cons, ih]; split <;> simp
@[simp] theorem Core.landList_seqE (c : Core) (l : List Flight) : (c.landList l).seqE = c.seqE := by
  unfold Core.landList
  induction l generalizing c with
  | nil => rfl
  | cons x l ih => rw [List.foldl_cons, ih]; split <;> simp
@[simp] theorem Core.landList_acks (c : Core) (l : List Flight) : (c.landList l).acks = c.acks := by
  unfold Core.landList
  induction l generalizing c with
  | nil => rfl
  | cons x l ih => rw [List.foldl_cons, ih]; split <;> simp
@[simp] theorem Core.landList_windrows (c : Core) (l : List Flight) : (c.landList l).windrows = c.windrows := by
  unfold Core.landList
  induction l generalizing c with
  | nil => rfl
  | cons x l ih => rw [List.foldl_cons, ih]; split <;> simp

theorem Core.closeWindows_eq (c : Core) : c.closeWindows =
    { c.landList (c.flights.filter fun f => decide (f.start + f.cls ≤ c.cycle)) with
      flights := c.flights.filter fun f => !decide (f.start + f.cls ≤ c.cycle) } := rfl
theorem Core.landAll_eq (c : Core) : c.landAll = { c.landList c.flights with flights := [] } := rfl

@[simp] theorem Core.closeWindows_hreg (c : Core) : c.closeWindows.hreg = c.hreg := by simp [Core.closeWindows_eq]
@[simp] theorem Core.closeWindows_bdreg (c : Core) : c.closeWindows.bdreg = c.bdreg := by simp [Core.closeWindows_eq]
@[simp] theorem Core.closeWindows_ereg (c : Core) : c.closeWindows.ereg = c.ereg := by simp [Core.closeWindows_eq]
@[simp] theorem Core.closeWindows_spill (c : Core) : c.closeWindows.spill = c.spill := by simp [Core.closeWindows_eq]
@[simp] theorem Core.closeWindows_supSpill (c : Core) : c.closeWindows.supSpill = c.supSpill := by simp [Core.closeWindows_eq]
@[simp] theorem Core.closeWindows_slipwin (c : Core) : c.closeWindows.slipwin = c.slipwin := by simp [Core.closeWindows_eq]
@[simp] theorem Core.closeWindows_dzt (c : Core) : c.closeWindows.dzt = c.dzt := by simp [Core.closeWindows_eq]
@[simp] theorem Core.closeWindows_commit (c : Core) : c.closeWindows.commit = c.commit := by simp [Core.closeWindows_eq]
@[simp] theorem Core.closeWindows_jnl (c : Core) : c.closeWindows.jnl = c.jnl := by simp [Core.closeWindows_eq]
@[simp] theorem Core.closeWindows_diagen (c : Core) : c.closeWindows.diagen = c.diagen := by simp [Core.closeWindows_eq]
@[simp] theorem Core.closeWindows_sup (c : Core) : c.closeWindows.sup = c.sup := by simp [Core.closeWindows_eq]
@[simp] theorem Core.closeWindows_trapcause (c : Core) : c.closeWindows.trapcause = c.trapcause := by simp [Core.closeWindows_eq]
@[simp] theorem Core.closeWindows_trapval (c : Core) : c.closeWindows.trapval = c.trapval := by simp [Core.closeWindows_eq]
@[simp] theorem Core.closeWindows_trappcS (c : Core) : c.closeWindows.trappcS = c.trappcS := by simp [Core.closeWindows_eq]
@[simp] theorem Core.closeWindows_trappcM (c : Core) : c.closeWindows.trappcM = c.trappcM := by simp [Core.closeWindows_eq]
@[simp] theorem Core.closeWindows_trappcA (c : Core) : c.closeWindows.trappcA = c.trappcA := by simp [Core.closeWindows_eq]
@[simp] theorem Core.closeWindows_trappcY (c : Core) : c.closeWindows.trappcY = c.trappcY := by simp [Core.closeWindows_eq]
@[simp] theorem Core.closeWindows_arenabase (c : Core) : c.closeWindows.arenabase = c.arenabase := by simp [Core.closeWindows_eq]
@[simp] theorem Core.closeWindows_arenabound (c : Core) : c.closeWindows.arenabound = c.arenabound := by simp [Core.closeWindows_eq]
@[simp] theorem Core.closeWindows_age (c : Core) : c.closeWindows.age = c.age := by simp [Core.closeWindows_eq]
@[simp] theorem Core.closeWindows_restarts (c : Core) : c.closeWindows.restarts = c.restarts := by simp [Core.closeWindows_eq]
@[simp] theorem Core.closeWindows_deadline (c : Core) : c.closeWindows.deadline = c.deadline := by simp [Core.closeWindows_eq]
@[simp] theorem Core.closeWindows_dued (c : Core) : c.closeWindows.dued = c.dued := by simp [Core.closeWindows_eq]
@[simp] theorem Core.closeWindows_evTake (c : Core) : c.closeWindows.evTake = c.evTake := by simp [Core.closeWindows_eq]
@[simp] theorem Core.closeWindows_evClear (c : Core) : c.closeWindows.evClear = c.evClear := by simp [Core.closeWindows_eq]
@[simp] theorem Core.closeWindows_woundHeld (c : Core) : c.closeWindows.woundHeld = c.woundHeld := by simp [Core.closeWindows_eq]
@[simp] theorem Core.closeWindows_user (c : Core) : c.closeWindows.user = c.user := by simp [Core.closeWindows_eq]
@[simp] theorem Core.closeWindows_firm (c : Core) : c.closeWindows.firm = c.firm := by simp [Core.closeWindows_eq]
@[simp] theorem Core.closeWindows_cycle (c : Core) : c.closeWindows.cycle = c.cycle := by simp [Core.closeWindows_eq]
@[simp] theorem Core.closeWindows_arm (c : Core) : c.closeWindows.arm = c.arm := by simp [Core.closeWindows_eq]
@[simp] theorem Core.closeWindows_bank (c : Core) : c.closeWindows.bank = c.bank := by simp [Core.closeWindows_eq]
@[simp] theorem Core.closeWindows_ywait (c : Core) : c.closeWindows.ywait = c.ywait := by simp [Core.closeWindows_eq]
@[simp] theorem Core.closeWindows_restamp (c : Core) : c.closeWindows.restamp = c.restamp := by simp [Core.closeWindows_eq]
@[simp] theorem Core.closeWindows_pend (c : Core) : c.closeWindows.pend = c.pend := by simp [Core.closeWindows_eq]
@[simp] theorem Core.closeWindows_asmM (c : Core) : c.closeWindows.asmM = c.asmM := by simp [Core.closeWindows_eq]
@[simp] theorem Core.closeWindows_asmA (c : Core) : c.closeWindows.asmA = c.asmA := by simp [Core.closeWindows_eq]
@[simp] theorem Core.closeWindows_asmE (c : Core) : c.closeWindows.asmE = c.asmE := by simp [Core.closeWindows_eq]
@[simp] theorem Core.closeWindows_chf (c : Core) : c.closeWindows.chf = c.chf := by simp [Core.closeWindows_eq]
@[simp] theorem Core.closeWindows_sts (c : Core) : c.closeWindows.sts = c.sts := by simp [Core.closeWindows_eq]
@[simp] theorem Core.closeWindows_xi (c : Core) : c.closeWindows.xi = c.xi := by simp [Core.closeWindows_eq]
@[simp] theorem Core.closeWindows_xo (c : Core) : c.closeWindows.xo = c.xo := by simp [Core.closeWindows_eq]
@[simp] theorem Core.closeWindows_seqM (c : Core) : c.closeWindows.seqM = c.seqM := by simp [Core.closeWindows_eq]
@[simp] theorem Core.closeWindows_seqA (c : Core) : c.closeWindows.seqA = c.seqA := by simp [Core.closeWindows_eq]
@[simp] theorem Core.closeWindows_seqE (c : Core) : c.closeWindows.seqE = c.seqE := by simp [Core.closeWindows_eq]
@[simp] theorem Core.closeWindows_acks (c : Core) : c.closeWindows.acks = c.acks := by simp [Core.closeWindows_eq]
@[simp] theorem Core.closeWindows_windrows (c : Core) : c.closeWindows.windrows = c.windrows := by simp [Core.closeWindows_eq]

@[simp] theorem Core.landAll_hreg (c : Core) : c.landAll.hreg = c.hreg := by simp [Core.landAll_eq]
@[simp] theorem Core.landAll_bdreg (c : Core) : c.landAll.bdreg = c.bdreg := by simp [Core.landAll_eq]
@[simp] theorem Core.landAll_ereg (c : Core) : c.landAll.ereg = c.ereg := by simp [Core.landAll_eq]
@[simp] theorem Core.landAll_spill (c : Core) : c.landAll.spill = c.spill := by simp [Core.landAll_eq]
@[simp] theorem Core.landAll_supSpill (c : Core) : c.landAll.supSpill = c.supSpill := by simp [Core.landAll_eq]
@[simp] theorem Core.landAll_slipwin (c : Core) : c.landAll.slipwin = c.slipwin := by simp [Core.landAll_eq]
@[simp] theorem Core.landAll_dzt (c : Core) : c.landAll.dzt = c.dzt := by simp [Core.landAll_eq]
@[simp] theorem Core.landAll_commit (c : Core) : c.landAll.commit = c.commit := by simp [Core.landAll_eq]
@[simp] theorem Core.landAll_jnl (c : Core) : c.landAll.jnl = c.jnl := by simp [Core.landAll_eq]
@[simp] theorem Core.landAll_diagen (c : Core) : c.landAll.diagen = c.diagen := by simp [Core.landAll_eq]
@[simp] theorem Core.landAll_sup (c : Core) : c.landAll.sup = c.sup := by simp [Core.landAll_eq]
@[simp] theorem Core.landAll_trapcause (c : Core) : c.landAll.trapcause = c.trapcause := by simp [Core.landAll_eq]
@[simp] theorem Core.landAll_trapval (c : Core) : c.landAll.trapval = c.trapval := by simp [Core.landAll_eq]
@[simp] theorem Core.landAll_trappcS (c : Core) : c.landAll.trappcS = c.trappcS := by simp [Core.landAll_eq]
@[simp] theorem Core.landAll_trappcM (c : Core) : c.landAll.trappcM = c.trappcM := by simp [Core.landAll_eq]
@[simp] theorem Core.landAll_trappcA (c : Core) : c.landAll.trappcA = c.trappcA := by simp [Core.landAll_eq]
@[simp] theorem Core.landAll_trappcY (c : Core) : c.landAll.trappcY = c.trappcY := by simp [Core.landAll_eq]
@[simp] theorem Core.landAll_arenabase (c : Core) : c.landAll.arenabase = c.arenabase := by simp [Core.landAll_eq]
@[simp] theorem Core.landAll_arenabound (c : Core) : c.landAll.arenabound = c.arenabound := by simp [Core.landAll_eq]
@[simp] theorem Core.landAll_age (c : Core) : c.landAll.age = c.age := by simp [Core.landAll_eq]
@[simp] theorem Core.landAll_restarts (c : Core) : c.landAll.restarts = c.restarts := by simp [Core.landAll_eq]
@[simp] theorem Core.landAll_deadline (c : Core) : c.landAll.deadline = c.deadline := by simp [Core.landAll_eq]
@[simp] theorem Core.landAll_dued (c : Core) : c.landAll.dued = c.dued := by simp [Core.landAll_eq]
@[simp] theorem Core.landAll_evTake (c : Core) : c.landAll.evTake = c.evTake := by simp [Core.landAll_eq]
@[simp] theorem Core.landAll_evClear (c : Core) : c.landAll.evClear = c.evClear := by simp [Core.landAll_eq]
@[simp] theorem Core.landAll_woundHeld (c : Core) : c.landAll.woundHeld = c.woundHeld := by simp [Core.landAll_eq]
@[simp] theorem Core.landAll_user (c : Core) : c.landAll.user = c.user := by simp [Core.landAll_eq]
@[simp] theorem Core.landAll_firm (c : Core) : c.landAll.firm = c.firm := by simp [Core.landAll_eq]
@[simp] theorem Core.landAll_cycle (c : Core) : c.landAll.cycle = c.cycle := by simp [Core.landAll_eq]
@[simp] theorem Core.landAll_arm (c : Core) : c.landAll.arm = c.arm := by simp [Core.landAll_eq]
@[simp] theorem Core.landAll_bank (c : Core) : c.landAll.bank = c.bank := by simp [Core.landAll_eq]
@[simp] theorem Core.landAll_ywait (c : Core) : c.landAll.ywait = c.ywait := by simp [Core.landAll_eq]
@[simp] theorem Core.landAll_restamp (c : Core) : c.landAll.restamp = c.restamp := by simp [Core.landAll_eq]
@[simp] theorem Core.landAll_pend (c : Core) : c.landAll.pend = c.pend := by simp [Core.landAll_eq]
@[simp] theorem Core.landAll_asmM (c : Core) : c.landAll.asmM = c.asmM := by simp [Core.landAll_eq]
@[simp] theorem Core.landAll_asmA (c : Core) : c.landAll.asmA = c.asmA := by simp [Core.landAll_eq]
@[simp] theorem Core.landAll_asmE (c : Core) : c.landAll.asmE = c.asmE := by simp [Core.landAll_eq]
@[simp] theorem Core.landAll_chf (c : Core) : c.landAll.chf = c.chf := by simp [Core.landAll_eq]
@[simp] theorem Core.landAll_sts (c : Core) : c.landAll.sts = c.sts := by simp [Core.landAll_eq]
@[simp] theorem Core.landAll_xi (c : Core) : c.landAll.xi = c.xi := by simp [Core.landAll_eq]
@[simp] theorem Core.landAll_xo (c : Core) : c.landAll.xo = c.xo := by simp [Core.landAll_eq]
@[simp] theorem Core.landAll_seqM (c : Core) : c.landAll.seqM = c.seqM := by simp [Core.landAll_eq]
@[simp] theorem Core.landAll_seqA (c : Core) : c.landAll.seqA = c.seqA := by simp [Core.landAll_eq]
@[simp] theorem Core.landAll_seqE (c : Core) : c.landAll.seqE = c.seqE := by simp [Core.landAll_eq]
@[simp] theorem Core.landAll_acks (c : Core) : c.landAll.acks = c.acks := by simp [Core.landAll_eq]
@[simp] theorem Core.landAll_windrows (c : Core) : c.landAll.windrows = c.windrows := by simp [Core.landAll_eq]
@[simp] theorem Core.landAll_flights (c : Core) : c.landAll.flights = [] := rfl

@[simp] theorem Core.land_sreg (c : Core) (r : RegId) (v : Word) (cls : Nat) : (c.land r v cls).sreg = c.sreg := by
  unfold Core.land; split <;> rfl
@[simp] theorem Core.land_supBank (c : Core) (r : RegId) (v : Word) (cls : Nat) : (c.land r v cls).supBank = c.supBank := by
  unfold Core.land; split <;> rfl
@[simp] theorem Core.land_freg (c : Core) (r : RegId) (v : Word) (cls : Nat) : (c.land r v cls).freg = c.freg := by
  unfold Core.land; split <;> rfl
@[simp] theorem Core.land_preg (c : Core) (r : RegId) (v : Word) (cls : Nat) : (c.land r v cls).preg = c.preg := by
  unfold Core.land; split <;> rfl
@[simp] theorem Core.land_hreg (c : Core) (r : RegId) (v : Word) (cls : Nat) : (c.land r v cls).hreg = c.hreg := by
  unfold Core.land; split <;> rfl
@[simp] theorem Core.land_bdreg (c : Core) (r : RegId) (v : Word) (cls : Nat) : (c.land r v cls).bdreg = c.bdreg := by
  unfold Core.land; split <;> rfl
@[simp] theorem Core.land_ereg (c : Core) (r : RegId) (v : Word) (cls : Nat) : (c.land r v cls).ereg = c.ereg := by
  unfold Core.land; split <;> rfl
@[simp] theorem Core.land_spill (c : Core) (r : RegId) (v : Word) (cls : Nat) : (c.land r v cls).spill = c.spill := by
  unfold Core.land; split <;> rfl
@[simp] theorem Core.land_supSpill (c : Core) (r : RegId) (v : Word) (cls : Nat) : (c.land r v cls).supSpill = c.supSpill := by
  unfold Core.land; split <;> rfl
@[simp] theorem Core.land_slipwin (c : Core) (r : RegId) (v : Word) (cls : Nat) : (c.land r v cls).slipwin = c.slipwin := by
  unfold Core.land; split <;> rfl
@[simp] theorem Core.land_dzt (c : Core) (r : RegId) (v : Word) (cls : Nat) : (c.land r v cls).dzt = c.dzt := by
  unfold Core.land; split <;> rfl
@[simp] theorem Core.land_commit (c : Core) (r : RegId) (v : Word) (cls : Nat) : (c.land r v cls).commit = c.commit := by
  unfold Core.land; split <;> rfl
@[simp] theorem Core.land_jnl (c : Core) (r : RegId) (v : Word) (cls : Nat) : (c.land r v cls).jnl = c.jnl := by
  unfold Core.land; split <;> rfl
@[simp] theorem Core.land_diagen (c : Core) (r : RegId) (v : Word) (cls : Nat) : (c.land r v cls).diagen = c.diagen := by
  unfold Core.land; split <;> rfl
@[simp] theorem Core.land_sup (c : Core) (r : RegId) (v : Word) (cls : Nat) : (c.land r v cls).sup = c.sup := by
  unfold Core.land; split <;> rfl
@[simp] theorem Core.land_trapcause (c : Core) (r : RegId) (v : Word) (cls : Nat) : (c.land r v cls).trapcause = c.trapcause := by
  unfold Core.land; split <;> rfl
@[simp] theorem Core.land_trapval (c : Core) (r : RegId) (v : Word) (cls : Nat) : (c.land r v cls).trapval = c.trapval := by
  unfold Core.land; split <;> rfl
@[simp] theorem Core.land_trappcS (c : Core) (r : RegId) (v : Word) (cls : Nat) : (c.land r v cls).trappcS = c.trappcS := by
  unfold Core.land; split <;> rfl
@[simp] theorem Core.land_trappcM (c : Core) (r : RegId) (v : Word) (cls : Nat) : (c.land r v cls).trappcM = c.trappcM := by
  unfold Core.land; split <;> rfl
@[simp] theorem Core.land_trappcA (c : Core) (r : RegId) (v : Word) (cls : Nat) : (c.land r v cls).trappcA = c.trappcA := by
  unfold Core.land; split <;> rfl
@[simp] theorem Core.land_trappcY (c : Core) (r : RegId) (v : Word) (cls : Nat) : (c.land r v cls).trappcY = c.trappcY := by
  unfold Core.land; split <;> rfl
@[simp] theorem Core.land_arenabase (c : Core) (r : RegId) (v : Word) (cls : Nat) : (c.land r v cls).arenabase = c.arenabase := by
  unfold Core.land; split <;> rfl
@[simp] theorem Core.land_arenabound (c : Core) (r : RegId) (v : Word) (cls : Nat) : (c.land r v cls).arenabound = c.arenabound := by
  unfold Core.land; split <;> rfl
@[simp] theorem Core.land_age (c : Core) (r : RegId) (v : Word) (cls : Nat) : (c.land r v cls).age = c.age := by
  unfold Core.land; split <;> rfl
@[simp] theorem Core.land_restarts (c : Core) (r : RegId) (v : Word) (cls : Nat) : (c.land r v cls).restarts = c.restarts := by
  unfold Core.land; split <;> rfl
@[simp] theorem Core.land_deadline (c : Core) (r : RegId) (v : Word) (cls : Nat) : (c.land r v cls).deadline = c.deadline := by
  unfold Core.land; split <;> rfl
@[simp] theorem Core.land_dued (c : Core) (r : RegId) (v : Word) (cls : Nat) : (c.land r v cls).dued = c.dued := by
  unfold Core.land; split <;> rfl
@[simp] theorem Core.land_evTake (c : Core) (r : RegId) (v : Word) (cls : Nat) : (c.land r v cls).evTake = c.evTake := by
  unfold Core.land; split <;> rfl
@[simp] theorem Core.land_evClear (c : Core) (r : RegId) (v : Word) (cls : Nat) : (c.land r v cls).evClear = c.evClear := by
  unfold Core.land; split <;> rfl
@[simp] theorem Core.land_woundHeld (c : Core) (r : RegId) (v : Word) (cls : Nat) : (c.land r v cls).woundHeld = c.woundHeld := by
  unfold Core.land; split <;> rfl
@[simp] theorem Core.land_user (c : Core) (r : RegId) (v : Word) (cls : Nat) : (c.land r v cls).user = c.user := by
  unfold Core.land; split <;> rfl
@[simp] theorem Core.land_firm (c : Core) (r : RegId) (v : Word) (cls : Nat) : (c.land r v cls).firm = c.firm := by
  unfold Core.land; split <;> rfl
@[simp] theorem Core.land_cycle (c : Core) (r : RegId) (v : Word) (cls : Nat) : (c.land r v cls).cycle = c.cycle := by
  unfold Core.land; split <;> rfl
@[simp] theorem Core.land_arm (c : Core) (r : RegId) (v : Word) (cls : Nat) : (c.land r v cls).arm = c.arm := by
  unfold Core.land; split <;> rfl
@[simp] theorem Core.land_bank (c : Core) (r : RegId) (v : Word) (cls : Nat) : (c.land r v cls).bank = c.bank := by
  unfold Core.land; split <;> rfl
@[simp] theorem Core.land_ywait (c : Core) (r : RegId) (v : Word) (cls : Nat) : (c.land r v cls).ywait = c.ywait := by
  unfold Core.land; split <;> rfl
@[simp] theorem Core.land_restamp (c : Core) (r : RegId) (v : Word) (cls : Nat) : (c.land r v cls).restamp = c.restamp := by
  unfold Core.land; split <;> rfl
@[simp] theorem Core.land_pend (c : Core) (r : RegId) (v : Word) (cls : Nat) : (c.land r v cls).pend = c.pend := by
  unfold Core.land; split <;> rfl
@[simp] theorem Core.land_asmM (c : Core) (r : RegId) (v : Word) (cls : Nat) : (c.land r v cls).asmM = c.asmM := by
  unfold Core.land; split <;> rfl
@[simp] theorem Core.land_asmA (c : Core) (r : RegId) (v : Word) (cls : Nat) : (c.land r v cls).asmA = c.asmA := by
  unfold Core.land; split <;> rfl
@[simp] theorem Core.land_asmE (c : Core) (r : RegId) (v : Word) (cls : Nat) : (c.land r v cls).asmE = c.asmE := by
  unfold Core.land; split <;> rfl
@[simp] theorem Core.land_chf (c : Core) (r : RegId) (v : Word) (cls : Nat) : (c.land r v cls).chf = c.chf := by
  unfold Core.land; split <;> rfl
@[simp] theorem Core.land_sts (c : Core) (r : RegId) (v : Word) (cls : Nat) : (c.land r v cls).sts = c.sts := by
  unfold Core.land; split <;> rfl
@[simp] theorem Core.land_xi (c : Core) (r : RegId) (v : Word) (cls : Nat) : (c.land r v cls).xi = c.xi := by
  unfold Core.land; split <;> rfl
@[simp] theorem Core.land_xo (c : Core) (r : RegId) (v : Word) (cls : Nat) : (c.land r v cls).xo = c.xo := by
  unfold Core.land; split <;> rfl
@[simp] theorem Core.land_seqM (c : Core) (r : RegId) (v : Word) (cls : Nat) : (c.land r v cls).seqM = c.seqM := by
  unfold Core.land; split <;> rfl
@[simp] theorem Core.land_seqA (c : Core) (r : RegId) (v : Word) (cls : Nat) : (c.land r v cls).seqA = c.seqA := by
  unfold Core.land; split <;> rfl
@[simp] theorem Core.land_seqE (c : Core) (r : RegId) (v : Word) (cls : Nat) : (c.land r v cls).seqE = c.seqE := by
  unfold Core.land; split <;> rfl
@[simp] theorem Core.land_acks (c : Core) (r : RegId) (v : Word) (cls : Nat) : (c.land r v cls).acks = c.acks := by
  unfold Core.land; split <;> rfl
@[simp] theorem Core.land_windrows (c : Core) (r : RegId) (v : Word) (cls : Nat) : (c.land r v cls).windrows = c.windrows := by
  unfold Core.land; split <;> rfl

/-- A windowless core is one with no result that is due. -/
theorem Core.closeWindows_of_none (c : Core) (h : c.flights = []) : c.closeWindows = c := by
  cases c; simp_all [Core.closeWindows]

@[simp] theorem Core.path_closeWindows (c : Core) : c.closeWindows.path = c.path := by simp [Core.path]
@[simp] theorem Core.path_land (c : Core) (r : RegId) (v : Word) (cls : Nat) : (c.land r v cls).path = c.path := by
  simp [Core.path]
@[simp] theorem Core.mods_closeWindows (c : Core) : c.closeWindows.mods = c.mods := by simp [Core.mods]

@[simp] theorem Core.getS_zero (c : Core) : c.getS 0 = 0 := rfl
@[simp] theorem Core.getP_zero (c : Core) : c.getP 0 = true := rfl
@[simp] theorem Core.setS_zero (c : Core) (v : Word) : c.setS 0 v = c := rfl
@[simp] theorem Core.setP_zero (c : Core) (v : Bool) : c.setP 0 v = c := rfl

/-- A register that is not hard-wired reads as it was set; a predicate as whether the word is zero. -/
theorem Core.getReg_setReg_same (c : Core) (r : RegId) (v : Word) (h : r.wired = false) :
    (c.setReg r v).getReg r = match r with
      | .p _ => if v != 0 then 1 else 0
      | _ => v := by
  cases r with
  | s n =>
    have hn : n ≠ 0 := by simpa [RegId.wired] using h
    simp only [Core.setReg, Core.getReg, Core.setS, Core.getS, if_neg hn]
    split <;> simp
  | f n => simp [Core.setReg, Core.getReg, Core.setF, Core.getF]
  | p n =>
    have hn : n ≠ 0 := by simpa [RegId.wired] using h
    simp [Core.setReg, Core.getReg, Core.setP, Core.getP, hn]

end Sys2Proof.Machine
end

