-- ==== Sys2Proof/Laws/Heads.lean ====
section
/-! SUPPORT. What the shared operations of the heads do, once each: issuing at S and at a trailing head, going past a unit, opening the
windows, taking a trap, and reading tile store through the journal. -/

namespace Sys2Proof.Machine

/-! ### Opening windows -/

theorem State.opened_eq (s : State) : s.opened = s.setSlot s.cur (·.setCore (·.closeWindows)) := rfl
@[simp] theorem State.opened_cur (s : State) : s.opened.cur = s.cur := rfl
@[simp] theorem State.opened_mem (s : State) : s.opened.mem = s.mem := rfl
@[simp] theorem State.opened_stc (s : State) : s.opened.stc = s.stc := rfl
@[simp] theorem State.opened_dies (s : State) : s.opened.dies = s.dies := rfl
@[simp] theorem State.opened_draws (s : State) : s.opened.draws = s.draws := rfl
@[simp] theorem State.opened_badWords (s : State) : s.opened.badWords = s.badWords := rfl
@[simp] theorem State.opened_slotAt (s : State) : s.opened.slotAt s.cur = (s.slotAt s.cur).setCore (·.closeWindows) := by
  simp [State.opened_eq]

/-! ### Issue at S (R22, R52, R108) -/

/-- An S instruction that is held back changes nothing. -/
theorem State.issueS_stalled {s : State} {i : Instr} (hold : State → Bool) (body : State → Res) (h : s.stalledS i = true) :
    s.issueS i hold body = .next s := by
  simp [State.issueS, h]

/-- An S instruction that issues gives its effect, unless its own condition holds it back. -/
theorem State.issueS_issues {s : State} {i : Instr} (hold : State → Bool) (body : State → Res) (h : s.IssuesS i) :
    s.issueS i hold body = if hold s.opened then .next s else body s.opened := by
  obtain ⟨h1, h2⟩ := h
  have hg : (i.guard && !(s.setCore (·.closeWindows)).readGuard) = false := by
    cases hi : i.guard
    · rfl
    · simp only [State.opened] at h2
      rw [h2 hi]
      rfl
  unfold State.issueS
  rw [if_neg (by simp [h1])]
  simp only [hg]
  rfl

/-- An S instruction whose guard is false only goes by. -/
theorem State.issueS_skips {s : State} {i : Instr} (hold : State → Bool) (body : State → Res) (h : s.SkipsS i) :
    s.issueS i hold body = .next (s.opened.finishS (words i)) := by
  obtain ⟨h1, h2, h3⟩ := h
  simp only [State.opened] at h3
  unfold State.issueS
  rw [if_neg (by simp [h1])]
  simp only [h2, h3]
  rfl

/-- An instruction with a register result puts it in flight (R52). -/
theorem State.issueResult_issues {s : State} {i : Instr} {r : RegId} (lat : Fin 8) (val : State → Word) (hr : i.dest = some r)
    (h : s.IssuesS i) : s.issueResult i (latClass lat) val = .next (s.lands i r lat (val s.opened)) := by
  unfold State.issueResult
  rw [State.issueS_issues _ _ h]
  simp [hr, State.lands]

/-- The cases of an S issue that answers a next state. -/
theorem State.issueS_cases {s t : State} {i : Instr} {hold : State → Bool} {body : State → Res}
    (h : s.issueS i hold body = .next t) :
    t = s ∨ t = s.opened.finishS (words i) ∨ (hold s.opened = false ∧ body s.opened = .next t) := by
  unfold State.issueS at h
  split at h
  · left; cases h; rfl
  · dsimp only at h
    split at h
    · right; left; cases h; rfl
    · split at h
      · left; cases h; rfl
      · next hh => right; right; exact ⟨by simpa [State.opened] using hh, h⟩

/-- What it is to be past a unit of n words at S. -/
theorem State.finishS_eq (s : State) (n : Nat) : s.finishS n =
    { s.setSlot s.cur (·.setCore fun c => { c.setPath (·.passS n) with cycle := c.cycle + 1 }) with draws := s.draws + 4 } := rfl
@[simp] theorem State.finishS_mem (s : State) (n : Nat) : (s.finishS n).mem = s.mem := rfl
@[simp] theorem State.finishS_cur (s : State) (n : Nat) : (s.finishS n).cur = s.cur := rfl
@[simp] theorem State.finishS_dies (s : State) (n : Nat) : (s.finishS n).dies = s.dies := rfl
@[simp] theorem State.finishS_slotAt (s : State) (n : Nat) : (s.finishS n).slotAt s.cur =
    (s.slotAt s.cur).setCore fun c => { c.setPath (·.passS n) with cycle := c.cycle + 1 } := by
  simp only [State.finishS_eq, State.slotAt, State.setSlot]
  exact aget_amod_same _ _ _ _

/-! ### Issue at a trailing head (R22, R102, R106) -/

theorem State.issueX_stalled {s : State} {h : Head} {i : Instr} (body : State → Res) (hs : s.stalledX h i = true) :
    s.issueX h i body = .next s := by
  simp [State.issueX, hs]

theorem State.issueX_issues {s : State} {h : Head} {i : Instr} (body : State → Res) (hi : s.IssuesX h i) :
    s.issueX h i body = body s := by
  obtain ⟨h1, h2⟩ := hi
  unfold State.issueX
  rw [if_neg (by simp [h1])]
  cases hg : i.guard
  · rfl
  · rw [h2 hg]
    rfl

theorem State.issueX_skips {s : State} {h : Head} {i : Instr} (body : State → Res) (hi : s.SkipsX h i) :
    s.issueX h i body = .next (s.finishX h (words i)) := by
  obtain ⟨h1, h2, h3⟩ := hi
  unfold State.issueX
  rw [if_neg (by simp [h1])]
  simp only [h2, h3]
  rfl

theorem State.issueX_cases {s t : State} {h : Head} {i : Instr} {body : State → Res} (ht : s.issueX h i body = .next t) :
    t = s ∨ t = s.finishX h (words i) ∨ body s = .next t := by
  unfold State.issueX at ht
  split at ht
  · left; cases ht; rfl
  · split at ht
    · right; left; cases ht; rfl
    · right; right; exact ht

theorem State.finishX_eq (s : State) (h : Head) (n : Nat) : s.finishX h n =
    s.setSlot s.cur (·.setCore fun c => { c.setPath (·.passX h n) with arm := none }) := rfl
@[simp] theorem State.finishX_mem (s : State) (h : Head) (n : Nat) : (s.finishX h n).mem = s.mem := rfl
@[simp] theorem State.finishX_cur (s : State) (h : Head) (n : Nat) : (s.finishX h n).cur = s.cur := rfl
@[simp] theorem State.finishX_dies (s : State) (h : Head) (n : Nat) : (s.finishX h n).dies = s.dies := rfl
@[simp] theorem State.finishX_slotAt (s : State) (h : Head) (n : Nat) : (s.finishX h n).slotAt s.cur =
    (s.slotAt s.cur).setCore fun c => { c.setPath (·.passX h n) with arm := none } := by
  rw [State.finishX_eq]
  exact State.slotAt_setSlot_same _ _ _

/-! ### Traps (R114, R118) -/

/-- A restart for an unreadable journal leaves a wound, and touches its slot alone (R335). -/
theorem State.unreadWound_eq (s : State) (ctx : Nat) : s.unreadWound ctx = s ∨
    ∃ (f : Slot → Slot) (ws : List Wound) (n : Nat), s.unreadWound ctx = { s.setSlot ctx f with wounds := ws, draws := n } := by
  unfold State.unreadWound
  dsimp only
  split
  · exact Or.inl rfl
  · exact Or.inr ⟨(·.setCore fun c => { c with woundHeld := true }), _, _, rfl⟩

/-- A bank grant touches its slot alone, and may leave a wound. -/
theorem State.grantBank_eq (s : State) (ctx : Nat) :
    ∃ u, (u = s ∨ u = s.unreadWound ctx) ∧ (s.grantBank ctx = u ∨ ∃ f : Slot → Slot, s.grantBank ctx = u.setSlot ctx f) := by
  unfold State.grantBank
  dsimp only
  split
  · exact ⟨s, Or.inl rfl, Or.inl rfl⟩
  · split
    · exact ⟨s, Or.inl rfl, Or.inr ⟨_, rfl⟩⟩
    · split
      · exact ⟨_, Or.inr rfl, Or.inr ⟨_, rfl⟩⟩
      · exact ⟨s, Or.inl rfl, Or.inr ⟨_, rfl⟩⟩

@[simp] theorem State.unreadWound_mem (s : State) (ctx : Nat) : (s.unreadWound ctx).mem = s.mem := by
  obtain h | ⟨f, ws, n, h⟩ := s.unreadWound_eq ctx <;> rw [h] <;> rfl
@[simp] theorem State.unreadWound_cur (s : State) (ctx : Nat) : (s.unreadWound ctx).cur = s.cur := by
  obtain h | ⟨f, ws, n, h⟩ := s.unreadWound_eq ctx <;> rw [h] <;> rfl
@[simp] theorem State.grantBank_mem (s : State) (ctx : Nat) : (s.grantBank ctx).mem = s.mem := by
  obtain ⟨u, rfl | rfl, h | ⟨f, h⟩⟩ := s.grantBank_eq ctx <;> rw [h] <;> simp
@[simp] theorem State.grantBank_cur (s : State) (ctx : Nat) : (s.grantBank ctx).cur = s.cur := by
  obtain ⟨u, rfl | rfl, h | ⟨f, h⟩⟩ := s.grantBank_eq ctx <;> rw [h] <;> simp
@[simp] theorem State.trapAt_mem (s : State) (ctx next : Nat) (cause v : Word) : (s.trapAt ctx next cause v).mem = s.mem := by
  simp [State.trapAt]
@[simp] theorem State.trapAt_cur (s : State) (ctx next : Nat) (cause v : Word) : (s.trapAt ctx next cause v).cur = s.cur := by
  simp [State.trapAt]

/-- In user mode a synchronous trap is entered. -/
theorem State.syncTrap_user {s : State} (h : Head) (cause : Nat) (v : Word) (sw : Nat) (hu : s.core.sup = false) :
    s.syncTrap h cause v sw =
      let t := s.setCore (·.disarm h)
      t.trapAt s.cur (if h = .s then t.core.user.pcS else t.nextS s.cur) (causeWord sw false (headCode h) cause) v := by
  simp only [State.syncTrap, hu]
  rfl

/-- In supervisor mode it ends the task. -/
theorem State.syncTrap_sup {s : State} (h : Head) (cause : Nat) (v : Word) (sw : Nat) (hu : s.core.sup = true) :
    s.syncTrap h cause v sw = (s.alert s.cur cause).failTask s.cur 0x02 := by
  simp only [State.syncTrap, hu]
  rfl

/-! ### Reading tile store as a word issues -/

/-- A word reads tile store where the journal can be read. -/
theorem State.readTile_readable {s : State} (go : State → Res) (h : s.me.tileUnread = false) : s.readTile go = go s := by
  simp only [State.readTile, h, Bool.not_false, if_true]
/-- In user mode the task restarts where it cannot. -/
theorem State.readTile_unreadable {s : State} (go : State → Res) (h : s.me.tileUnread = true) (hu : s.core.sup = false) :
    s.readTile go = .next (s.restartUnread s.cur) := by
  simp only [State.readTile, h, hu, Bool.not_true, Bool.false_eq_true, if_false]

end Sys2Proof.Machine
end

