-- ==== Sys2Proof/Laws/Memory.lean ====
section
/-! SUPPORT. Laws of bytes: reading after writing, and that every operation keeps the canonical form. -/

namespace Sys2Proof.Machine

/-- A list of bytes, as physical memory and tile store hold it. -/
abbrev Cells := List (Nat × BitVec 8)

theorem cellsFrom_mono {lo lo' : Nat} {m : Cells} (h : lo' ≤ lo) (hm : cellsFrom lo m = true) : cellsFrom lo' m = true := by
  cases m with
  | nil => rfl
  | cons x rest =>
    obtain ⟨a, v⟩ := x
    simp only [cellsFrom, Bool.and_eq_true, decide_eq_true_eq] at hm ⊢
    exact ⟨⟨by omega, hm.1.2⟩, hm.2⟩

theorem cellsFrom_aset {lo a : Nat} {v : BitVec 8} {m : Cells} (hm : cellsFrom lo m = true) (h : lo ≤ a) (hv : v ≠ 0) :
    cellsFrom lo (aset a v m) = true := by
  have hv' : (v != 0) = true := by simpa using hv
  induction m generalizing lo with
  | nil => simp only [aset, cellsFrom, hv', decide_eq_true h, Bool.and_self]
  | cons x rest ih =>
    obtain ⟨b, w⟩ := x
    simp only [cellsFrom, Bool.and_eq_true, decide_eq_true_eq] at hm
    simp only [aset]
    split
    · next hab =>
      simp only [cellsFrom, hv', hm.2, hm.1.2, decide_eq_true h, decide_eq_true (Nat.succ_le_of_lt hab), Bool.and_self]
    · split
      · next hab => subst hab; simp only [cellsFrom, hv', hm.2, decide_eq_true h, Bool.and_self]
      · simp only [cellsFrom, Bool.and_eq_true, decide_eq_true_eq]
        exact ⟨hm.1, ih hm.2 (by omega)⟩

theorem cellsFrom_adel {lo a : Nat} {m : Cells} (hm : cellsFrom lo m = true) : cellsFrom lo (adel a m) = true := by
  induction m generalizing lo with
  | nil => rfl
  | cons x rest ih =>
    obtain ⟨b, w⟩ := x
    simp only [cellsFrom, Bool.and_eq_true, decide_eq_true_eq] at hm
    simp only [adel]
    split
    · exact cellsFrom_mono (by omega) (ih hm.2)
    · simp only [cellsFrom, Bool.and_eq_true, decide_eq_true_eq]
      exact ⟨hm.1, ih hm.2⟩

/-- A byte reads as it was written; every other one as before. -/
theorem getByte_setByte (m : Cells) (a b : Nat) (v : BitVec 8) :
    getByte (setByte m a v) b = if b = a then v else getByte m b := by
  simp only [getByte, setByte]
  split
  · next hv => rw [aget_adel]; simp [hv]
  · rw [aget_aset]

@[simp] theorem wf_nil : Memory.wf [] = true := rfl

theorem wf_setByte {m : Cells} (hm : Memory.wf m = true) (a : Nat) (v : BitVec 8) : Memory.wf (setByte m a v) = true := by
  unfold setByte
  split
  · exact cellsFrom_adel hm
  · next hv => exact cellsFrom_aset hm (Nat.zero_le _) hv

theorem wf_writeLE {m : Cells} (hm : Memory.wf m = true) (a n v : Nat) : Memory.wf (writeLE m a n v) = true := by
  induction n generalizing m a v with
  | zero => exact hm
  | succ n ih => exact ih (wf_setByte hm _ _) _ _

theorem wf_writeBytes {m : Cells} (hm : Memory.wf m = true) (a : Nat) (bs : List (BitVec 8)) :
    Memory.wf (writeBytes m a bs) = true := by
  induction bs generalizing m a with
  | nil => exact hm
  | cons b bs ih => exact ih (wf_setByte hm _ _) _

theorem cellsFrom_filter {lo : Nat} {m : Cells} (p : Nat × BitVec 8 → Bool) (hm : cellsFrom lo m = true) :
    cellsFrom lo (m.filter p) = true := by
  induction m generalizing lo with
  | nil => rfl
  | cons x rest ih =>
    obtain ⟨a, v⟩ := x
    simp only [cellsFrom, Bool.and_eq_true, decide_eq_true_eq] at hm
    simp only [List.filter]
    split
    · simp only [cellsFrom, Bool.and_eq_true, decide_eq_true_eq]
      exact ⟨hm.1, ih hm.2⟩
    · exact cellsFrom_mono (by omega) (ih hm.2)

theorem wf_clearBytes {m : Cells} (hm : Memory.wf m = true) (a n : Nat) : Memory.wf (clearBytes m a n) = true :=
  cellsFrom_filter _ hm

theorem wf_scatter {m : Cells} (hm : Memory.wf m = true) (v : Nat) (as : List Nat) : Memory.wf (scatter m v as) = true := by
  induction as generalizing m v with
  | nil => exact hm
  | cons a as ih => exact ih (wf_setByte hm _ _) _

theorem wf_writeEntry {m : Cells} (hm : Memory.wf m = true) (o : Nat) (e : Entry) : Memory.wf (writeEntry m o e) = true :=
  wf_writeLE (wf_writeLE (wf_writeLE (wf_writeLE hm _ _ _) _ _ _) _ _ _) _ _ _

/-- A fold of operations that each keep the form keeps it. -/
theorem wf_foldl {β : Type} (f : Cells → β → Cells) (hf : ∀ m b, Memory.wf m = true → Memory.wf (f m b) = true) (l : List β)
    {m : Cells} (hm : Memory.wf m = true) : Memory.wf (l.foldl f m) = true := by
  induction l generalizing m with
  | nil => exact hm
  | cons b l ih => exact ih (hf _ _ hm)

/-- A little-endian store changes no byte outside the n it names. -/
theorem getByte_writeLE_other (m : Cells) (a n v b : Nat) (h : b < a ∨ a + n ≤ b) :
    getByte (writeLE m a n v) b = getByte m b := by
  induction n generalizing m a v with
  | zero => rfl
  | succ n ih =>
    simp only [writeLE]
    rw [ih _ _ _ (by omega), getByte_setByte, if_neg (by omega)]

/-- What was stored is what is read back. -/
theorem readLE_writeLE (m : Cells) (a n v : Nat) :
    readLE (writeLE m a n v) a n = v % 2 ^ (8 * n) := by
  induction n generalizing m a v with
  | zero => simp [readLE, Nat.mod_one]
  | succ n ih =>
    simp only [writeLE, readLE]
    rw [ih, getByte_writeLE_other _ _ _ _ _ (by omega), getByte_setByte]
    have h : 2 ^ (8 * (n + 1)) = 256 * 2 ^ (8 * n) := by rw [Nat.mul_add, Nat.pow_add, Nat.mul_comm]
    simp only [↓reduceIte, BitVec.toNat_ofNat]
    rw [h, Nat.mod_mul]

end Sys2Proof.Machine
end

