-- ==== Sys2Proof/Laws/PerInstr.lean ====
section
/-! SUPPORT. For every constructor of `Instr`: an instruction word that stands in memory (R14) is made of
fields that fit their places of R15 to R19, is long exactly when its constructor is, and has no immediate word
otherwise. -/

set_option Elab.async false

namespace Sys2Proof.Laws.Encoding

open Sys2Proof

/-- The fields fit the places that R15 to R19 give them. -/
structure Bounded (f : Fields) : Prop where
  ls : f.ls < 4
  tag : f.tag < 8
  op : f.op < 256
  lat : f.lat < 8
  d : f.d < 32
  a : f.a < 32
  b : f.b < 32
  g : f.g < 2
  imm : f.imm < 2 ^ 32

/-- What the encoding of `i` holds, if `i` has one (an event of the hardware has none). -/
def Statement (i : Instr) : Prop :=
  ∀ f, encodeFields i = some f → Bounded f ∧ (f.ls = 1 ↔ i.long = true) ∧ (f.ls ≠ 1 → f.imm = 0)

theorem bit_lt (g : Bool) : g.toNat < 2 := by cases g <;> decide

theorem add (d a b g lat) : Statement (.add d a b g lat) := by
  rintro _ ⟨⟩
  refine ⟨?_, by simp [Instr.long], by simp⟩
  constructor <;> have := bit_lt g <;> simp only <;> omega

theorem sub (d a b g lat) : Statement (.sub d a b g lat) := by
  rintro _ ⟨⟩
  refine ⟨?_, by simp [Instr.long], by simp⟩
  constructor <;> have := bit_lt g <;> simp only <;> omega

theorem mul (d a b g lat) : Statement (.mul d a b g lat) := by
  rintro _ ⟨⟩
  refine ⟨?_, by simp [Instr.long], by simp⟩
  constructor <;> have := bit_lt g <;> simp only <;> omega

theorem mulh (d a b g lat) : Statement (.mulh d a b g lat) := by
  rintro _ ⟨⟩
  refine ⟨?_, by simp [Instr.long], by simp⟩
  constructor <;> have := bit_lt g <;> simp only <;> omega

theorem mulhu (d a b g lat) : Statement (.mulhu d a b g lat) := by
  rintro _ ⟨⟩
  refine ⟨?_, by simp [Instr.long], by simp⟩
  constructor <;> have := bit_lt g <;> simp only <;> omega

theorem div (d a b g lat) : Statement (.div d a b g lat) := by
  rintro _ ⟨⟩
  refine ⟨?_, by simp [Instr.long], by simp⟩
  constructor <;> have := bit_lt g <;> simp only <;> omega

theorem divu (d a b g lat) : Statement (.divu d a b g lat) := by
  rintro _ ⟨⟩
  refine ⟨?_, by simp [Instr.long], by simp⟩
  constructor <;> have := bit_lt g <;> simp only <;> omega

theorem rem (d a b g lat) : Statement (.rem d a b g lat) := by
  rintro _ ⟨⟩
  refine ⟨?_, by simp [Instr.long], by simp⟩
  constructor <;> have := bit_lt g <;> simp only <;> omega

theorem remu (d a b g lat) : Statement (.remu d a b g lat) := by
  rintro _ ⟨⟩
  refine ⟨?_, by simp [Instr.long], by simp⟩
  constructor <;> have := bit_lt g <;> simp only <;> omega

theorem and (d a b g lat) : Statement (.and d a b g lat) := by
  rintro _ ⟨⟩
  refine ⟨?_, by simp [Instr.long], by simp⟩
  constructor <;> have := bit_lt g <;> simp only <;> omega

theorem or (d a b g lat) : Statement (.or d a b g lat) := by
  rintro _ ⟨⟩
  refine ⟨?_, by simp [Instr.long], by simp⟩
  constructor <;> have := bit_lt g <;> simp only <;> omega

theorem xor (d a b g lat) : Statement (.xor d a b g lat) := by
  rintro _ ⟨⟩
  refine ⟨?_, by simp [Instr.long], by simp⟩
  constructor <;> have := bit_lt g <;> simp only <;> omega

theorem andn (d a b g lat) : Statement (.andn d a b g lat) := by
  rintro _ ⟨⟩
  refine ⟨?_, by simp [Instr.long], by simp⟩
  constructor <;> have := bit_lt g <;> simp only <;> omega

theorem shl (d a b g lat) : Statement (.shl d a b g lat) := by
  rintro _ ⟨⟩
  refine ⟨?_, by simp [Instr.long], by simp⟩
  constructor <;> have := bit_lt g <;> simp only <;> omega

theorem shr (d a b g lat) : Statement (.shr d a b g lat) := by
  rintro _ ⟨⟩
  refine ⟨?_, by simp [Instr.long], by simp⟩
  constructor <;> have := bit_lt g <;> simp only <;> omega

theorem sar (d a b g lat) : Statement (.sar d a b g lat) := by
  rintro _ ⟨⟩
  refine ⟨?_, by simp [Instr.long], by simp⟩
  constructor <;> have := bit_lt g <;> simp only <;> omega

theorem min (d a b g lat) : Statement (.min d a b g lat) := by
  rintro _ ⟨⟩
  refine ⟨?_, by simp [Instr.long], by simp⟩
  constructor <;> have := bit_lt g <;> simp only <;> omega

theorem max (d a b g lat) : Statement (.max d a b g lat) := by
  rintro _ ⟨⟩
  refine ⟨?_, by simp [Instr.long], by simp⟩
  constructor <;> have := bit_lt g <;> simp only <;> omega

theorem minu (d a b g lat) : Statement (.minu d a b g lat) := by
  rintro _ ⟨⟩
  refine ⟨?_, by simp [Instr.long], by simp⟩
  constructor <;> have := bit_lt g <;> simp only <;> omega

theorem maxu (d a b g lat) : Statement (.maxu d a b g lat) := by
  rintro _ ⟨⟩
  refine ⟨?_, by simp [Instr.long], by simp⟩
  constructor <;> have := bit_lt g <;> simp only <;> omega

theorem addi (d a imm g lat) : Statement (.addi d a imm g lat) := by
  rintro _ ⟨⟩
  refine ⟨?_, by simp [Instr.long], by simp⟩
  constructor <;> have := bit_lt g <;> simp only <;> omega

theorem muli (d a imm g lat) : Statement (.muli d a imm g lat) := by
  rintro _ ⟨⟩
  refine ⟨?_, by simp [Instr.long], by simp⟩
  constructor <;> have := bit_lt g <;> simp only <;> omega

theorem andi (d a imm g lat) : Statement (.andi d a imm g lat) := by
  rintro _ ⟨⟩
  refine ⟨?_, by simp [Instr.long], by simp⟩
  constructor <;> have := bit_lt g <;> simp only <;> omega

theorem ori (d a imm g lat) : Statement (.ori d a imm g lat) := by
  rintro _ ⟨⟩
  refine ⟨?_, by simp [Instr.long], by simp⟩
  constructor <;> have := bit_lt g <;> simp only <;> omega

theorem xori (d a imm g lat) : Statement (.xori d a imm g lat) := by
  rintro _ ⟨⟩
  refine ⟨?_, by simp [Instr.long], by simp⟩
  constructor <;> have := bit_lt g <;> simp only <;> omega

theorem shli (d a sh lat) : Statement (.shli d a sh lat) := by
  rintro _ ⟨⟩
  refine ⟨?_, by simp [Instr.long], by simp⟩
  constructor <;> simp only <;> omega

theorem shri (d a sh lat) : Statement (.shri d a sh lat) := by
  rintro _ ⟨⟩
  refine ⟨?_, by simp [Instr.long], by simp⟩
  constructor <;> simp only <;> omega

theorem sari (d a sh lat) : Statement (.sari d a sh lat) := by
  rintro _ ⟨⟩
  refine ⟨?_, by simp [Instr.long], by simp⟩
  constructor <;> simp only <;> omega

theorem li (d imm g lat) : Statement (.li d imm g lat) := by
  rintro _ ⟨⟩
  refine ⟨?_, by simp [Instr.long], by simp⟩
  constructor <;> have := bit_lt g <;> simp only <;> omega

theorem clz (d a g lat) : Statement (.clz d a g lat) := by
  rintro _ ⟨⟩
  refine ⟨?_, by simp [Instr.long], by simp⟩
  constructor <;> have := bit_lt g <;> simp only <;> omega

theorem ctz (d a g lat) : Statement (.ctz d a g lat) := by
  rintro _ ⟨⟩
  refine ⟨?_, by simp [Instr.long], by simp⟩
  constructor <;> have := bit_lt g <;> simp only <;> omega

theorem popc (d a g lat) : Statement (.popc d a g lat) := by
  rintro _ ⟨⟩
  refine ⟨?_, by simp [Instr.long], by simp⟩
  constructor <;> have := bit_lt g <;> simp only <;> omega

theorem ext (d a imm g lat) : Statement (.ext d a imm g lat) := by
  rintro _ ⟨⟩
  refine ⟨?_, by simp [Instr.long], by simp⟩
  constructor <;> have := bit_lt g <;> simp only <;> omega

theorem ins (d a imm g lat) : Statement (.ins d a imm g lat) := by
  rintro _ ⟨⟩
  refine ⟨?_, by simp [Instr.long], by simp⟩
  constructor <;> have := bit_lt g <;> simp only <;> omega

theorem sel (d a b lat) : Statement (.sel d a b lat) := by
  rintro _ ⟨⟩
  refine ⟨?_, by simp [Instr.long], by simp⟩
  constructor <;> simp only <;> omega

theorem madi (d a b imm g lat) : Statement (.madi d a b imm g lat) := by
  rintro _ ⟨⟩
  refine ⟨?_, by simp [Instr.long], by simp⟩
  constructor <;> have := bit_lt g <;> simp only <;> omega

theorem cmp (c p a b g lat) : Statement (.cmp c p a b g lat) := by
  rintro _ ⟨⟩
  refine ⟨?_, by simp [Instr.long], by simp⟩
  constructor <;> have := bit_lt g <;> simp only <;> omega

theorem cmpi (c p a imm g lat) : Statement (.cmpi c p a imm g lat) := by
  rintro _ ⟨⟩
  refine ⟨?_, by simp [Instr.long], by simp⟩
  constructor <;> have := bit_lt g <;> simp only <;> omega

theorem fcmp (c p a b g lat) : Statement (.fcmp c p a b g lat) := by
  rintro _ ⟨⟩
  refine ⟨?_, by simp [Instr.long], by simp⟩
  constructor <;> have := bit_lt g <;> simp only <;> omega

theorem plog (c p i x j y g lat) : Statement (.plog c p i x j y g lat) := by
  rintro _ ⟨⟩
  refine ⟨?_, by simp [Instr.long], by simp⟩
  constructor <;> have := bit_lt i <;> have := bit_lt j <;> have := bit_lt g <;> simp only <;> omega

theorem fadd (d a b g lat) : Statement (.fadd d a b g lat) := by
  rintro _ ⟨⟩
  refine ⟨?_, by simp [Instr.long], by simp⟩
  constructor <;> have := bit_lt g <;> simp only <;> omega

theorem fsub (d a b g lat) : Statement (.fsub d a b g lat) := by
  rintro _ ⟨⟩
  refine ⟨?_, by simp [Instr.long], by simp⟩
  constructor <;> have := bit_lt g <;> simp only <;> omega

theorem fmul (d a b g lat) : Statement (.fmul d a b g lat) := by
  rintro _ ⟨⟩
  refine ⟨?_, by simp [Instr.long], by simp⟩
  constructor <;> have := bit_lt g <;> simp only <;> omega

theorem ffma (d a b g lat) : Statement (.ffma d a b g lat) := by
  rintro _ ⟨⟩
  refine ⟨?_, by simp [Instr.long], by simp⟩
  constructor <;> have := bit_lt g <;> simp only <;> omega

theorem fdiv (d a b g lat) : Statement (.fdiv d a b g lat) := by
  rintro _ ⟨⟩
  refine ⟨?_, by simp [Instr.long], by simp⟩
  constructor <;> have := bit_lt g <;> simp only <;> omega

theorem fsqrt (d a g lat) : Statement (.fsqrt d a g lat) := by
  rintro _ ⟨⟩
  refine ⟨?_, by simp [Instr.long], by simp⟩
  constructor <;> have := bit_lt g <;> simp only <;> omega

theorem fmin (d a b g lat) : Statement (.fmin d a b g lat) := by
  rintro _ ⟨⟩
  refine ⟨?_, by simp [Instr.long], by simp⟩
  constructor <;> have := bit_lt g <;> simp only <;> omega

theorem fmax (d a b g lat) : Statement (.fmax d a b g lat) := by
  rintro _ ⟨⟩
  refine ⟨?_, by simp [Instr.long], by simp⟩
  constructor <;> have := bit_lt g <;> simp only <;> omega

theorem fcvtRint (d a g lat) : Statement (.fcvtRint d a g lat) := by
  rintro _ ⟨⟩
  refine ⟨?_, by simp [Instr.long], by simp⟩
  constructor <;> have := bit_lt g <;> simp only <;> omega

theorem fcvtRound32 (d a g lat) : Statement (.fcvtRound32 d a g lat) := by
  rintro _ ⟨⟩
  refine ⟨?_, by simp [Instr.long], by simp⟩
  constructor <;> have := bit_lt g <;> simp only <;> omega

theorem fcvtToint (d a g lat) : Statement (.fcvtToint d a g lat) := by
  rintro _ ⟨⟩
  refine ⟨?_, by simp [Instr.long], by simp⟩
  constructor <;> have := bit_lt g <;> simp only <;> omega

theorem fcvtTouint (d a g lat) : Statement (.fcvtTouint d a g lat) := by
  rintro _ ⟨⟩
  refine ⟨?_, by simp [Instr.long], by simp⟩
  constructor <;> have := bit_lt g <;> simp only <;> omega

theorem fcvtFromint (d a g lat) : Statement (.fcvtFromint d a g lat) := by
  rintro _ ⟨⟩
  refine ⟨?_, by simp [Instr.long], by simp⟩
  constructor <;> have := bit_lt g <;> simp only <;> omega

theorem fcvtFromuint (d a g lat) : Statement (.fcvtFromuint d a g lat) := by
  rintro _ ⟨⟩
  refine ⟨?_, by simp [Instr.long], by simp⟩
  constructor <;> have := bit_lt g <;> simp only <;> omega

theorem fcvtTofp32 (d a g lat) : Statement (.fcvtTofp32 d a g lat) := by
  rintro _ ⟨⟩
  refine ⟨?_, by simp [Instr.long], by simp⟩
  constructor <;> have := bit_lt g <;> simp only <;> omega

theorem fcvtFromfp32 (d a g lat) : Statement (.fcvtFromfp32 d a g lat) := by
  rintro _ ⟨⟩
  refine ⟨?_, by simp [Instr.long], by simp⟩
  constructor <;> have := bit_lt g <;> simp only <;> omega

theorem fcvtTofp16 (d a g lat) : Statement (.fcvtTofp16 d a g lat) := by
  rintro _ ⟨⟩
  refine ⟨?_, by simp [Instr.long], by simp⟩
  constructor <;> have := bit_lt g <;> simp only <;> omega

theorem fcvtFromfp16 (d a g lat) : Statement (.fcvtFromfp16 d a g lat) := by
  rintro _ ⟨⟩
  refine ⟨?_, by simp [Instr.long], by simp⟩
  constructor <;> have := bit_lt g <;> simp only <;> omega

theorem fcvtTobf16 (d a g lat) : Statement (.fcvtTobf16 d a g lat) := by
  rintro _ ⟨⟩
  refine ⟨?_, by simp [Instr.long], by simp⟩
  constructor <;> have := bit_lt g <;> simp only <;> omega

theorem fcvtFrombf16 (d a g lat) : Statement (.fcvtFrombf16 d a g lat) := by
  rintro _ ⟨⟩
  refine ⟨?_, by simp [Instr.long], by simp⟩
  constructor <;> have := bit_lt g <;> simp only <;> omega

theorem fcvtToe4m3 (d a g lat) : Statement (.fcvtToe4m3 d a g lat) := by
  rintro _ ⟨⟩
  refine ⟨?_, by simp [Instr.long], by simp⟩
  constructor <;> have := bit_lt g <;> simp only <;> omega

theorem fcvtFrome4m3 (d a g lat) : Statement (.fcvtFrome4m3 d a g lat) := by
  rintro _ ⟨⟩
  refine ⟨?_, by simp [Instr.long], by simp⟩
  constructor <;> have := bit_lt g <;> simp only <;> omega

theorem fcvtToe5m2 (d a g lat) : Statement (.fcvtToe5m2 d a g lat) := by
  rintro _ ⟨⟩
  refine ⟨?_, by simp [Instr.long], by simp⟩
  constructor <;> have := bit_lt g <;> simp only <;> omega

theorem fcvtFrome5m2 (d a g lat) : Statement (.fcvtFrome5m2 d a g lat) := by
  rintro _ ⟨⟩
  refine ⟨?_, by simp [Instr.long], by simp⟩
  constructor <;> have := bit_lt g <;> simp only <;> omega

theorem fcvtTotap8 (d a g lat) : Statement (.fcvtTotap8 d a g lat) := by
  rintro _ ⟨⟩
  refine ⟨?_, by simp [Instr.long], by simp⟩
  constructor <;> have := bit_lt g <;> simp only <;> omega

theorem fcvtFromtap8 (d a g lat) : Statement (.fcvtFromtap8 d a g lat) := by
  rintro _ ⟨⟩
  refine ⟨?_, by simp [Instr.long], by simp⟩
  constructor <;> have := bit_lt g <;> simp only <;> omega

theorem fcvtTotap6 (d a g lat) : Statement (.fcvtTotap6 d a g lat) := by
  rintro _ ⟨⟩
  refine ⟨?_, by simp [Instr.long], by simp⟩
  constructor <;> have := bit_lt g <;> simp only <;> omega

theorem fcvtFromtap6 (d a g lat) : Statement (.fcvtFromtap6 d a g lat) := by
  rintro _ ⟨⟩
  refine ⟨?_, by simp [Instr.long], by simp⟩
  constructor <;> have := bit_lt g <;> simp only <;> omega

theorem fmvi (d imm g lat) : Statement (.fmvi d imm g lat) := by
  rintro _ ⟨⟩
  refine ⟨?_, by simp [Instr.long], by simp⟩
  constructor <;> have := bit_lt g <;> simp only <;> omega

theorem fmvfToS (d a g lat) : Statement (.fmvfToS d a g lat) := by
  rintro _ ⟨⟩
  refine ⟨?_, by simp [Instr.long], by simp⟩
  constructor <;> have := bit_lt g <;> simp only <;> omega

theorem fmvfToF (d a g lat) : Statement (.fmvfToF d a g lat) := by
  rintro _ ⟨⟩
  refine ⟨?_, by simp [Instr.long], by simp⟩
  constructor <;> have := bit_lt g <;> simp only <;> omega

theorem br (off n p) : Statement (.br off n p) := by
  rintro _ ⟨⟩
  refine ⟨?_, by simp [Instr.long], by simp⟩
  constructor <;> have := bit_lt n <;> simp only <;> omega

theorem brp (off n p) : Statement (.brp off n p) := by
  rintro _ ⟨⟩
  refine ⟨?_, by simp [Instr.long], by simp⟩
  constructor <;> have := bit_lt n <;> simp only <;> omega

theorem dbrp (a off lat) : Statement (.dbrp a off lat) := by
  rintro _ ⟨⟩
  refine ⟨?_, by simp [Instr.long], by simp⟩
  constructor <;> simp only <;> omega

theorem call (d a imm g lat) : Statement (.call d a imm g lat) := by
  rintro _ ⟨⟩
  refine ⟨?_, by simp [Instr.long], by simp⟩
  constructor <;> have := bit_lt g <;> simp only <;> omega

theorem ret (a g) : Statement (.ret a g) := by
  rintro _ ⟨⟩
  refine ⟨?_, by simp [Instr.long], by simp⟩
  constructor <;> have := bit_lt g <;> simp only <;> omega

theorem nop (g) : Statement (.nop g) := by
  rintro _ ⟨⟩
  refine ⟨?_, by simp [Instr.long], by simp⟩
  constructor <;> have := bit_lt g <;> simp only <;> omega

theorem spld (d cls slot g lat) : Statement (.spld d cls slot g lat) := by
  rintro _ ⟨⟩
  refine ⟨?_, by simp [Instr.long], by simp⟩
  constructor <;> have := bit_lt cls <;> have := bit_lt g <;> simp only <;> omega

theorem spst (d cls slot g) : Statement (.spst d cls slot g) := by
  rintro _ ⟨⟩
  refine ⟨?_, by simp [Instr.long], by simp⟩
  constructor <;> have := bit_lt cls <;> have := bit_lt g <;> simp only <;> omega

theorem ldt (d a b g lat) : Statement (.ldt d a b g lat) := by
  rintro _ ⟨⟩
  refine ⟨?_, by simp [Instr.long], by simp⟩
  constructor <;> have := bit_lt g <;> simp only <;> omega

theorem stt (d a b g) : Statement (.stt d a b g) := by
  rintro _ ⟨⟩
  refine ⟨?_, by simp [Instr.long], by simp⟩
  constructor <;> have := bit_lt g <;> simp only <;> omega

theorem popf (d fifo g lat) : Statement (.popf d fifo g lat) := by
  rintro _ ⟨⟩
  refine ⟨?_, by simp [Instr.long], by simp⟩
  constructor <;> have := bit_lt g <;> simp only <;> omega

theorem pushf (a fifo g) : Statement (.pushf a fifo g) := by
  rintro _ ⟨⟩
  refine ⟨?_, by simp [Instr.long], by simp⟩
  constructor <;> have := bit_lt g <;> simp only <;> omega

theorem sysr (d sys g lat) : Statement (.sysr d sys g lat) := by
  rintro _ ⟨⟩
  refine ⟨?_, by simp [Instr.long], by simp⟩
  constructor <;> have := bit_lt g <;> simp only <;> omega

theorem sysw (d sys g) : Statement (.sysw d sys g) := by
  rintro _ ⟨⟩
  refine ⟨?_, by simp [Instr.long], by simp⟩
  constructor <;> have := bit_lt g <;> simp only <;> omega

theorem syswSlipwin (d g) : Statement (.syswSlipwin d g) := by
  rintro _ ⟨⟩
  refine ⟨?_, by simp [Instr.long], by simp⟩
  constructor <;> have := bit_lt g <;> simp only <;> omega

theorem syswTrappcS (d g) : Statement (.syswTrappcS d g) := by
  rintro _ ⟨⟩
  refine ⟨?_, by simp [Instr.long], by simp⟩
  constructor <;> have := bit_lt g <;> simp only <;> omega

theorem syswTstatus (d g) : Statement (.syswTstatus d g) := by
  rintro _ ⟨⟩
  refine ⟨?_, by simp [Instr.long], by simp⟩
  constructor <;> have := bit_lt g <;> simp only <;> omega

theorem trap (code a g) : Statement (.trap code a g) := by
  rintro _ ⟨⟩
  refine ⟨?_, by simp [Instr.long], by simp⟩
  constructor <;> have := bit_lt g <;> simp only <;> omega

theorem tret (g) : Statement (.tret g) := by
  rintro _ ⟨⟩
  refine ⟨?_, by simp [Instr.long], by simp⟩
  constructor <;> have := bit_lt g <;> simp only <;> omega

theorem pfx (ftz sat rm head) : Statement (.pfx ftz sat rm head) := by
  rintro _ ⟨⟩
  refine ⟨?_, by simp [Instr.long], by simp⟩
  constructor <;> have := bit_lt ftz <;> have := bit_lt sat <;> simp only <;> omega

theorem saff (d a b g) : Statement (.saff d a b g) := by
  rintro _ ⟨⟩
  refine ⟨?_, by simp [Instr.long], by simp⟩
  constructor <;> have := bit_lt g <;> simp only <;> omega

theorem saffw (d a b g) : Statement (.saffw d a b g) := by
  rintro _ ⟨⟩
  refine ⟨?_, by simp [Instr.long], by simp⟩
  constructor <;> have := bit_lt g <;> simp only <;> omega

theorem sind (d a b g) : Statement (.sind d a b g) := by
  rintro _ ⟨⟩
  refine ⟨?_, by simp [Instr.long], by simp⟩
  constructor <;> have := bit_lt g <;> simp only <;> omega

theorem sindw (d a b g) : Statement (.sindw d a b g) := by
  rintro _ ⟨⟩
  refine ⟨?_, by simp [Instr.long], by simp⟩
  constructor <;> have := bit_lt g <;> simp only <;> omega

theorem srec (d a b g) : Statement (.srec d a b g) := by
  rintro _ ⟨⟩
  refine ⟨?_, by simp [Instr.long], by simp⟩
  constructor <;> have := bit_lt g <;> simp only <;> omega

theorem sfill (d a b imm g) : Statement (.sfill d a b imm g) := by
  rintro _ ⟨⟩
  refine ⟨?_, by simp [Instr.long], by simp⟩
  constructor <;> have := bit_lt g <;> simp only <;> omega

theorem smc (d a b g) : Statement (.smc d a b g) := by
  rintro _ ⟨⟩
  refine ⟨?_, by simp [Instr.long], by simp⟩
  constructor <;> have := bit_lt g <;> simp only <;> omega

theorem sgrow (d a b g) : Statement (.sgrow d a b g) := by
  rintro _ ⟨⟩
  refine ⟨?_, by simp [Instr.long], by simp⟩
  constructor <;> have := bit_lt g <;> simp only <;> omega

theorem sred (d a b g) : Statement (.sred d a b g) := by
  rintro _ ⟨⟩
  refine ⟨?_, by simp [Instr.long], by simp⟩
  constructor <;> have := bit_lt g <;> simp only <;> omega

theorem satm (d a b g) : Statement (.satm d a b g) := by
  rintro _ ⟨⟩
  refine ⟨?_, by simp [Instr.long], by simp⟩
  constructor <;> have := bit_lt g <;> simp only <;> omega

theorem scpy (d a b g) : Statement (.scpy d a b g) := by
  rintro _ ⟨⟩
  refine ⟨?_, by simp [Instr.long], by simp⟩
  constructor <;> have := bit_lt g <;> simp only <;> omega

theorem sbar (d a b g) : Statement (.sbar d a b g) := by
  rintro _ ⟨⟩
  refine ⟨?_, by simp [Instr.long], by simp⟩
  constructor <;> have := bit_lt g <;> simp only <;> omega

theorem swinDecl (d a cnt sz g) : Statement (.swinDecl d a cnt sz g) := by
  rintro _ ⟨⟩
  refine ⟨?_, by simp [Instr.long], by simp⟩
  constructor <;> have := bit_lt g <;> simp only <;> omega

theorem swinTake (d cnt g) : Statement (.swinTake d cnt g) := by
  rintro _ ⟨⟩
  refine ⟨?_, by simp [Instr.long], by simp⟩
  constructor <;> have := bit_lt g <;> simp only <;> omega

theorem swinGive (d cnt g) : Statement (.swinGive d cnt g) := by
  rintro _ ⟨⟩
  refine ⟨?_, by simp [Instr.long], by simp⟩
  constructor <;> have := bit_lt g <;> simp only <;> omega

theorem stap (d a b g) : Statement (.stap d a b g) := by
  rintro _ ⟨⟩
  refine ⟨?_, by simp [Instr.long], by simp⟩
  constructor <;> have := bit_lt g <;> simp only <;> omega

theorem sfilt (d a b g) : Statement (.sfilt d a b g) := by
  rintro _ ⟨⟩
  refine ⟨?_, by simp [Instr.long], by simp⟩
  constructor <;> have := bit_lt g <;> simp only <;> omega

theorem smeta (d a b g) : Statement (.smeta d a b g) := by
  rintro _ ⟨⟩
  refine ⟨?_, by simp [Instr.long], by simp⟩
  constructor <;> have := bit_lt g <;> simp only <;> omega

theorem stok (d a b imm g) : Statement (.stok d a b imm g) := by
  rintro _ ⟨⟩
  refine ⟨?_, by simp [Instr.long], by simp⟩
  constructor <;> have := bit_lt g <;> simp only <;> omega

theorem sclose (d g) : Statement (.sclose d g) := by
  rintro _ ⟨⟩
  refine ⟨?_, by simp [Instr.long], by simp⟩
  constructor <;> have := bit_lt g <;> simp only <;> omega

theorem sqryCommand (d g) : Statement (.sqryCommand d g) := by
  rintro _ ⟨⟩
  refine ⟨?_, by simp [Instr.long], by simp⟩
  constructor <;> have := bit_lt g <;> simp only <;> omega

theorem sqryWindrow (d g) : Statement (.sqryWindrow d g) := by
  rintro _ ⟨⟩
  refine ⟨?_, by simp [Instr.long], by simp⟩
  constructor <;> have := bit_lt g <;> simp only <;> omega

theorem sdesc (d a b g) : Statement (.sdesc d a b g) := by
  rintro _ ⟨⟩
  refine ⟨?_, by simp [Instr.long], by simp⟩
  constructor <;> have := bit_lt g <;> simp only <;> omega

theorem acfg (a b imm g) : Statement (.acfg a b imm g) := by
  rintro _ ⟨⟩
  refine ⟨?_, by simp [Instr.long], by simp⟩
  constructor <;> have := bit_lt g <;> simp only <;> omega

theorem arun (b g) : Statement (.arun b g) := by
  rintro _ ⟨⟩
  refine ⟨?_, by simp [Instr.long], by simp⟩
  constructor <;> have := bit_lt g <;> simp only <;> omega

theorem adrn (b g) : Statement (.adrn b g) := by
  rintro _ ⟨⟩
  refine ⟨?_, by simp [Instr.long], by simp⟩
  constructor <;> have := bit_lt g <;> simp only <;> omega

theorem aqui (k b g) : Statement (.aqui k b g) := by
  rintro _ ⟨⟩
  refine ⟨?_, by simp [Instr.long], by simp⟩
  constructor <;> have := bit_lt k <;> have := bit_lt g <;> simp only <;> omega

theorem amrk (a b g) : Statement (.amrk a b g) := by
  rintro _ ⟨⟩
  refine ⟨?_, by simp [Instr.long], by simp⟩
  constructor <;> have := bit_lt g <;> simp only <;> omega

theorem aprt (a b g) : Statement (.aprt a b g) := by
  rintro _ ⟨⟩
  refine ⟨?_, by simp [Instr.long], by simp⟩
  constructor <;> have := bit_lt g <;> simp only <;> omega

theorem chbd (d a g) : Statement (.chbd d a g) := by
  rintro _ ⟨⟩
  refine ⟨?_, by simp [Instr.long], by simp⟩
  constructor <;> have := bit_lt g <;> simp only <;> omega

theorem chord (a b imm g) : Statement (.chord a b imm g) := by
  rintro _ ⟨⟩
  refine ⟨?_, by simp [Instr.long], by simp⟩
  constructor <;> have := bit_lt g <;> simp only <;> omega

theorem chrun (a b g) : Statement (.chrun a b g) := by
  rintro _ ⟨⟩
  refine ⟨?_, by simp [Instr.long], by simp⟩
  constructor <;> have := bit_lt g <;> simp only <;> omega

theorem chsv (a b g) : Statement (.chsv a b g) := by
  rintro _ ⟨⟩
  refine ⟨?_, by simp [Instr.long], by simp⟩
  constructor <;> have := bit_lt g <;> simp only <;> omega

theorem chld (a b g) : Statement (.chld a b g) := by
  rintro _ ⟨⟩
  refine ⟨?_, by simp [Instr.long], by simp⟩
  constructor <;> have := bit_lt g <;> simp only <;> omega

theorem enco (ch a b g) : Statement (.enco ch a b g) := by
  rintro _ ⟨⟩
  refine ⟨?_, by simp [Instr.long], by simp⟩
  constructor <;> have := bit_lt g <;> simp only <;> omega

theorem encf (ch a b g) : Statement (.encf ch a b g) := by
  rintro _ ⟨⟩
  refine ⟨?_, by simp [Instr.long], by simp⟩
  constructor <;> have := bit_lt g <;> simp only <;> omega

theorem encc (ch b g) : Statement (.encc ch b g) := by
  rintro _ ⟨⟩
  refine ⟨?_, by simp [Instr.long], by simp⟩
  constructor <;> have := bit_lt g <;> simp only <;> omega

theorem evsig (d a g) : Statement (.evsig d a g) := by
  rintro _ ⟨⟩
  refine ⟨?_, by simp [Instr.long], by simp⟩
  constructor <;> have := bit_lt g <;> simp only <;> omega

theorem evwait (d a g) : Statement (.evwait d a g) := by
  rintro _ ⟨⟩
  refine ⟨?_, by simp [Instr.long], by simp⟩
  constructor <;> have := bit_lt g <;> simp only <;> omega

theorem evclr (d a g) : Statement (.evclr d a g) := by
  rintro _ ⟨⟩
  refine ⟨?_, by simp [Instr.long], by simp⟩
  constructor <;> have := bit_lt g <;> simp only <;> omega

theorem bari (imm g) : Statement (.bari imm g) := by
  rintro _ ⟨⟩
  refine ⟨?_, by simp [Instr.long], by simp⟩
  constructor <;> have := bit_lt g <;> simp only <;> omega

theorem bara (a b g) : Statement (.bara a b g) := by
  rintro _ ⟨⟩
  refine ⟨?_, by simp [Instr.long], by simp⟩
  constructor <;> have := bit_lt g <;> simp only <;> omega

theorem barw (k a b g) : Statement (.barw k a b g) := by
  rintro _ ⟨⟩
  refine ⟨?_, by simp [Instr.long], by simp⟩
  constructor <;> have := bit_lt k <;> have := bit_lt g <;> simp only <;> omega

theorem barq (a g) : Statement (.barq a g) := by
  rintro _ ⟨⟩
  refine ⟨?_, by simp [Instr.long], by simp⟩
  constructor <;> have := bit_lt g <;> simp only <;> omega

theorem fence (scope g) : Statement (.fence scope g) := by
  rintro _ ⟨⟩
  refine ⟨?_, by simp [Instr.long], by simp⟩
  constructor <;> have := bit_lt g <;> simp only <;> omega

theorem acq (scope g) : Statement (.acq scope g) := by
  rintro _ ⟨⟩
  refine ⟨?_, by simp [Instr.long], by simp⟩
  constructor <;> have := bit_lt g <;> simp only <;> omega

theorem rel (scope g) : Statement (.rel scope g) := by
  rintro _ ⟨⟩
  refine ⟨?_, by simp [Instr.long], by simp⟩
  constructor <;> have := bit_lt g <;> simp only <;> omega

theorem tenq (k a b g) : Statement (.tenq k a b g) := by
  rintro _ ⟨⟩
  refine ⟨?_, by simp [Instr.long], by simp⟩
  constructor <;> have := bit_lt k <;> have := bit_lt g <;> simp only <;> omega

theorem tend (a g) : Statement (.tend a g) := by
  rintro _ ⟨⟩
  refine ⟨?_, by simp [Instr.long], by simp⟩
  constructor <;> have := bit_lt g <;> simp only <;> omega

theorem tyld (g) : Statement (.tyld g) := by
  rintro _ ⟨⟩
  refine ⟨?_, by simp [Instr.long], by simp⟩
  constructor <;> have := bit_lt g <;> simp only <;> omega

theorem tspwn (k a g) : Statement (.tspwn k a g) := by
  rintro _ ⟨⟩
  refine ⟨?_, by simp [Instr.long], by simp⟩
  constructor <;> have := bit_lt k <;> have := bit_lt g <;> simp only <;> omega

theorem tpollTask (g) : Statement (.tpollTask g) := by
  rintro _ ⟨⟩
  refine ⟨?_, by simp [Instr.long], by simp⟩
  constructor <;> have := bit_lt g <;> simp only <;> omega

theorem tpollDie (g) : Statement (.tpollDie g) := by
  rintro _ ⟨⟩
  refine ⟨?_, by simp [Instr.long], by simp⟩
  constructor <;> have := bit_lt g <;> simp only <;> omega

theorem lkprb (a b g) : Statement (.lkprb a b g) := by
  rintro _ ⟨⟩
  refine ⟨?_, by simp [Instr.long], by simp⟩
  constructor <;> have := bit_lt g <;> simp only <;> omega

theorem stamp (k a g) : Statement (.stamp k a g) := by
  rintro _ ⟨⟩
  refine ⟨?_, by simp [Instr.long], by simp⟩
  constructor <;> have := bit_lt k <;> have := bit_lt g <;> simp only <;> omega

theorem dln (a imm g) : Statement (.dln a imm g) := by
  rintro _ ⟨⟩
  refine ⟨?_, by simp [Instr.long], by simp⟩
  constructor <;> have := bit_lt g <;> simp only <;> omega

theorem diag (g) : Statement (.diag g) := by
  rintro _ ⟨⟩
  refine ⟨?_, by simp [Instr.long], by simp⟩
  constructor <;> have := bit_lt g <;> simp only <;> omega

theorem resultLand (k) : Statement (.resultLand k) := by
  rintro _ ⟨⟩

theorem tileStoreBankGrant (conflict) : Statement (.tileStoreBankGrant conflict) := by
  rintro _ ⟨⟩

theorem trapEntry : Statement .trapEntry := by
  rintro _ ⟨⟩

theorem streamDequeue : Statement .streamDequeue := by
  rintro _ ⟨⟩

theorem startStampReached (seq) : Statement (.startStampReached seq) := by
  rintro _ ⟨⟩

theorem saffCommand (seq) : Statement (.saffCommand seq) := by
  rintro _ ⟨⟩

theorem saffwCommand (seq) : Statement (.saffwCommand seq) := by
  rintro _ ⟨⟩

theorem sindCommand (seq) : Statement (.sindCommand seq) := by
  rintro _ ⟨⟩

theorem sindwCommand (seq) : Statement (.sindwCommand seq) := by
  rintro _ ⟨⟩

theorem srecCommand (seq) : Statement (.srecCommand seq) := by
  rintro _ ⟨⟩

theorem sfillCommand (seq) : Statement (.sfillCommand seq) := by
  rintro _ ⟨⟩

theorem smcCommand (seq) : Statement (.smcCommand seq) := by
  rintro _ ⟨⟩

theorem sgrowCommand (seq) : Statement (.sgrowCommand seq) := by
  rintro _ ⟨⟩

theorem sredCommand (seq) : Statement (.sredCommand seq) := by
  rintro _ ⟨⟩

theorem satmCommand (seq) : Statement (.satmCommand seq) := by
  rintro _ ⟨⟩

theorem scpyCommand (seq) : Statement (.scpyCommand seq) := by
  rintro _ ⟨⟩

theorem sbarCommand (seq) : Statement (.sbarCommand seq) := by
  rintro _ ⟨⟩

theorem stapCommand (seq) : Statement (.stapCommand seq) := by
  rintro _ ⟨⟩

theorem sfiltCommand (seq) : Statement (.sfiltCommand seq) := by
  rintro _ ⟨⟩

theorem smetaCommand (seq) : Statement (.smetaCommand seq) := by
  rintro _ ⟨⟩

theorem stokCommand (seq) : Statement (.stokCommand seq) := by
  rintro _ ⟨⟩

theorem streamTokenTransfer (seq) : Statement (.streamTokenTransfer seq) := by
  rintro _ ⟨⟩

theorem streamRetire (seq) : Statement (.streamRetire seq) := by
  rintro _ ⟨⟩

theorem remoteTokenArrival (k) : Statement (.remoteTokenArrival k) := by
  rintro _ ⟨⟩

theorem portTokenEntry (port) : Statement (.portTokenEntry port) := by
  rintro _ ⟨⟩

theorem bareMarkerDiscard (port) : Statement (.bareMarkerDiscard port) := by
  rintro _ ⟨⟩

theorem tokenBufferEntry (k) : Statement (.tokenBufferEntry k) := by
  rintro _ ⟨⟩

theorem groupFiring (group) : Statement (.groupFiring group) := by
  rintro _ ⟨⟩

theorem markerFiring (group) : Statement (.markerFiring group) := by
  rintro _ ⟨⟩

theorem markerThrough (slot opnd) : Statement (.markerThrough slot opnd) := by
  rintro _ ⟨⟩

theorem mms4Phase (slot) : Statement (.mms4Phase slot) := by
  rintro _ ⟨⟩

theorem matrixStepLand (slot) : Statement (.matrixStepLand slot) := by
  rintro _ ⟨⟩

theorem irregularEmit (slot) : Statement (.irregularEmit slot) := by
  rintro _ ⟨⟩

theorem engineCommandDequeue (queue) : Statement (.engineCommandDequeue queue) := by
  rintro _ ⟨⟩

theorem cfg : Statement .cfg := by
  rintro _ ⟨⟩

theorem run : Statement .run := by
  rintro _ ⟨⟩

theorem drn : Statement .drn := by
  rintro _ ⟨⟩

theorem regionDrained : Statement .regionDrained := by
  rintro _ ⟨⟩

theorem qui : Statement .qui := by
  rintro _ ⟨⟩

theorem quiAnswer : Statement .quiAnswer := by
  rintro _ ⟨⟩

theorem mrk : Statement .mrk := by
  rintro _ ⟨⟩

theorem prt : Statement .prt := by
  rintro _ ⟨⟩

theorem ord : Statement .ord := by
  rintro _ ⟨⟩

theorem crun : Statement .crun := by
  rintro _ ⟨⟩

theorem chainStepKeep : Statement .chainStepKeep := by
  rintro _ ⟨⟩

theorem chainStepSumInput : Statement .chainStepSumInput := by
  rintro _ ⟨⟩

theorem chainStepPair : Statement .chainStepPair := by
  rintro _ ⟨⟩

theorem csav : Statement .csav := by
  rintro _ ⟨⟩

theorem clod : Statement .clod := by
  rintro _ ⟨⟩

theorem eopn (channel) : Statement (.eopn channel) := by
  rintro _ ⟨⟩

theorem efrm (channel) : Statement (.efrm channel) := by
  rintro _ ⟨⟩

theorem ecls (channel) : Statement (.ecls channel) := by
  rintro _ ⟨⟩

theorem evwaitComplete : Statement .evwaitComplete := by
  rintro _ ⟨⟩

theorem barwComplete : Statement .barwComplete := by
  rintro _ ⟨⟩

theorem stampComplete : Statement .stampComplete := by
  rintro _ ⟨⟩

theorem tenqPlaced : Statement .tenqPlaced := by
  rintro _ ⟨⟩

theorem barrierArrival (k) : Statement (.barrierArrival k) := by
  rintro _ ⟨⟩

theorem homeRmwApply (k) : Statement (.homeRmwApply k) := by
  rintro _ ⟨⟩

theorem roundBufferApply : Statement .roundBufferApply := by
  rintro _ ⟨⟩

theorem granuleTouch (k) : Statement (.granuleTouch k) := by
  rintro _ ⟨⟩

theorem wound (k) : Statement (.wound k) := by
  rintro _ ⟨⟩

theorem faultRepair (k) : Statement (.faultRepair k) := by
  rintro _ ⟨⟩

theorem shootDown (k) : Statement (.shootDown k) := by
  rintro _ ⟨⟩

theorem repatch (k) : Statement (.repatch k) := by
  rintro _ ⟨⟩

theorem invalidation (k) : Statement (.invalidation k) := by
  rintro _ ⟨⟩

theorem drainLimitExpiry : Statement .drainLimitExpiry := by
  rintro _ ⟨⟩

theorem configScrub : Statement .configScrub := by
  rintro _ ⟨⟩

theorem stationFailure (die station) : Statement (.stationFailure die station) := by
  rintro _ ⟨⟩

theorem tail (queue value) : Statement (.tail queue value) := by
  rintro _ ⟨⟩

theorem registerWrite (reg value) : Statement (.registerWrite reg value) := by
  rintro _ ⟨⟩

theorem packetFetch (queue) : Statement (.packetFetch queue) := by
  rintro _ ⟨⟩

theorem enqueuePacketArrival (k) : Statement (.enqueuePacketArrival k) := by
  rintro _ ⟨⟩

theorem rackPacketArrival (queue packet) : Statement (.rackPacketArrival queue packet) := by
  rintro _ ⟨⟩

theorem switchOut (queue) : Statement (.switchOut queue) := by
  rintro _ ⟨⟩

theorem switchIn (queue) : Statement (.switchIn queue) := by
  rintro _ ⟨⟩

theorem batchHandout : Statement .batchHandout := by
  rintro _ ⟨⟩

theorem taskDispatch (die) : Statement (.taskDispatch die) := by
  rintro _ ⟨⟩

theorem taskBind : Statement .taskBind := by
  rintro _ ⟨⟩

theorem taskEntry : Statement .taskEntry := by
  rintro _ ⟨⟩

theorem preemptionRequest (die) : Statement (.preemptionRequest die) := by
  rintro _ ⟨⟩

theorem sourceGating : Statement .sourceGating := by
  rintro _ ⟨⟩

theorem gatingLimitExpiry : Statement .gatingLimitExpiry := by
  rintro _ ⟨⟩

theorem taskRestore : Statement .taskRestore := by
  rintro _ ⟨⟩

theorem deadlineExpiry : Statement .deadlineExpiry := by
  rintro _ ⟨⟩

theorem abort : Statement .abort := by
  rintro _ ⟨⟩

theorem remoteEventIncrement (k) : Statement (.remoteEventIncrement k) := by
  rintro _ ⟨⟩

theorem sessionRelease (sid) : Statement (.sessionRelease sid) := by
  rintro _ ⟨⟩

theorem powerGood : Statement .powerGood := by
  rintro _ ⟨⟩

theorem firmwareVerify (die) : Statement (.firmwareVerify die) := by
  rintro _ ⟨⟩

theorem hbmTrainingComplete (die) : Statement (.hbmTrainingComplete die) := by
  rintro _ ⟨⟩

theorem linkTrainingComplete : Statement .linkTrainingComplete := by
  rintro _ ⟨⟩

theorem firmwareUpdate : Statement .firmwareUpdate := by
  rintro _ ⟨⟩

theorem attestationRequest (nonce) : Statement (.attestationRequest nonce) := by
  rintro _ ⟨⟩

theorem ageingSample : Statement .ageingSample := by
  rintro _ ⟨⟩

theorem retirement (k) : Statement (.retirement k) := by
  rintro _ ⟨⟩

theorem softTemperatureLimit (die) : Statement (.softTemperatureLimit die) := by
  rintro _ ⟨⟩

theorem hardTemperatureLimit : Statement .hardTemperatureLimit := by
  rintro _ ⟨⟩

theorem packageLeavesPod (pkg) : Statement (.packageLeavesPod pkg) := by
  rintro _ ⟨⟩

end Sys2Proof.Laws.Encoding
end

