-- ==== Sys2Proof/Tests/Slice0.lean ====
section
/-! SUPPORT. Tests: the checks of WellFormed on ill-formed terms, words written out from the spec's encodings, worked examples of the
spec, and for the statements a state and operands that meet their hypotheses. -/

set_option Elab.async false

namespace Sys2Proof.Tests

open Sys2Proof Sys2Proof.Machine

/-! ### Ill-formed terms are refused (R20, R31) -/

theorem test_wf_refuses_a_class_below_the_least : (Instr.mul 1 2 3 false 0).wf = false := by decide
theorem test_wf_takes_the_least_class : (Instr.mul 1 2 3 false 2).wf = true := by decide
theorem test_wf_refuses_a_compare_to_p0 : (Instr.cmp 0 0 1 2 false 0).wf = false ∧ (Instr.cmpi 0 0 1 0 false 0).wf = false
    ∧ (Instr.fcmp 0 0 1 2 false 1).wf = false ∧ (Instr.plog 0 0 false 1 false 2 false 0).wf = false := by decide
theorem test_wf_refuses_plog_function_3 : (Instr.plog 3 1 false 1 false 2 false 0).wf = false := by decide
theorem test_wf_refuses_a_field_past_bit_63 : (Instr.ext 1 2 (60 + 4 * 64) false 0).wf = false
    ∧ (Instr.ext 1 2 (60 + 3 * 64) false 0).wf = true := by decide
theorem test_wf_refuses_ins_with_sgn : (Instr.ins 1 2 0x1000 false 0).wf = false := by decide
theorem test_wf_refuses_a_forward_brp : (Instr.brp 2047 false 1).wf = false ∧ (Instr.brp 2048 false 1).wf = true := by decide
theorem test_wf_refuses_dbrp_of_s0 : (Instr.dbrp 0 2 0).wf = false := by decide
theorem test_wf_refuses_f16_in_spill : (Instr.spld 16 true 0 false 0).wf = false ∧ (Instr.spst 16 true 0 false).wf = false := by decide
theorem test_wf_refuses_the_wrong_fifos : (Instr.popf 1 0 false 1).wf = false ∧ (Instr.pushf 1 3 false).wf = false := by decide
theorem test_wf_refuses_absent_system_registers : (Instr.sysr 1 16 false 0).wf = false ∧ (Instr.sysw 1 0 false).wf = false := by decide
theorem test_wf_refuses_a_prefix_of_y : (Instr.pfx false false 0 3).wf = false ∧ (Instr.pfx false false 5 0).wf = false := by decide
theorem test_wf_refuses_windrow_sizes : (Instr.swinDecl 0 1 0 0 false).wf = false ∧ (Instr.swinDecl 0 1 0 1025 false).wf = false := by
  decide
theorem test_wf_refuses_stok_reserved_bits : (Instr.stok 1 2 3 0x20 false).wf = false := by decide
theorem test_wf_refuses_chord_counts : (Instr.chord 1 2 0 false).wf = false ∧ (Instr.chord 1 2 33 false).wf = false := by decide
theorem test_wf_refuses_bari_scope_and_count : (Instr.bari 1 false).wf = false ∧ (Instr.bari 0x20000000 false).wf = false
    ∧ (Instr.bari 0x20000001 false).wf = true := by decide
theorem test_wf_refuses_fence_scopes : (Instr.fence 0 false).wf = false ∧ (Instr.acq 6 false).wf = false
    ∧ (Instr.rel 7 false).wf = false := by decide

/-! ### Words written out from R15 to R35, R55, R163, R216 and R236 -/

/-- The first word of layout T, field by field (R16, R21). -/
def wordT (d a b g lat op tag ls : Nat) : Nat :=
  d * 2 ^ 27 + a * 2 ^ 22 + b * 2 ^ 17 + g * 2 ^ 16 + lat * 2 ^ 13 + op * 2 ^ 5 + tag * 2 ^ 2 + ls

-- R24's worked examples.
theorem test_word_add : (decode 0x190A2020 0).toOption = some (.add 3 4 5 false 1) := by decide +kernel
theorem test_word_li : (decode 0x30000401 0xFFFFFFFE).toOption = some (.li 6 0xFFFFFFFE false 0) := by decide +kernel
-- R29's worked example: a prefix and its FADD, and a prefix, SCLOSE and BR.
theorem test_word_fadd : (decode 0x08866600 0).toOption = some (.fadd 1 2 3 false 3) := by decide +kernel
theorem test_word_pfx : (decode 0x00000182 0).toOption = some (.pfx false true 4 0) := by decide +kernel
theorem test_word_sclose : (decode 0x10000E24 0).toOption = some (.sclose 2 false) := by decide +kernel
theorem test_word_br : (decode 0xFFE00800 0).toOption = some (.br 0xFFE false 0) := by decide +kernel
-- R31: the all-zero word and the all-ones word.
theorem test_word_zero : (decode 0 0).toOption = none ∧ (decode 0xFFFFFFFF 0).toOption = none := by decide +kernel
-- One word of every group of the opcode map of R32.
theorem test_word_shli : (decode (wordT 1 2 31 1 0 0x1D 0 0) 0).toOption = some (.shli 1 2 63 0) := by decide +kernel
theorem test_word_popc : (decode (wordT 1 2 0 1 0 0x23 0 0) 0).toOption = some (.popc 1 2 true 0) := by decide +kernel
theorem test_word_plog : (decode (wordT 9 0 0 0 0 0x2B 0 0) 0).toOption = some (.plog 1 1 false 0 false 0 false 0) := by decide +kernel
theorem test_word_ret : (decode (wordT 0 7 0 1 0 0x44 0 0) 0).toOption = some (.ret 7 true) := by decide +kernel
theorem test_word_ldt : (decode (wordT 1 2 3 0 3 0x4A 0 0) 0).toOption = some (.ldt 1 2 3 false 3) := by decide +kernel
theorem test_word_popf : (decode (wordT 1 0 8 0 1 0x4C 0 0) 0).toOption = some (.popf 1 8 false 1) := by decide +kernel
theorem test_word_sysr : (decode (wordT 4 0 3 0 0 0x50 0 0) 0).toOption = some (.sysr 4 3 false 0) := by decide +kernel
theorem test_word_saff : (decode (wordT 2 3 4 1 0 0x60 1 0) 0).toOption = some (.saff 2 3 4 true) := by decide +kernel
theorem test_word_stok : (decode (wordT 2 3 4 0 0 0x70 1 1) 5).toOption = some (.stok 2 3 4 5 false) := by decide +kernel
theorem test_word_acfg : (decode (wordT 0 3 4 0 0 0x80 2 1) 0x40).toOption = some (.acfg 3 4 0x40 false) := by decide +kernel
theorem test_word_chbd : (decode (wordT 7 3 0 0 0 0x88 2 0) 0).toOption = some (.chbd 7 3 false) := by decide +kernel
theorem test_word_enco : (decode (wordT 3 1 2 0 0 0x90 2 0) 0).toOption = some (.enco 3 1 2 false) := by decide +kernel
theorem test_word_evsig : (decode (wordT 4 5 0 0 0 0xA0 3 0) 0).toOption = some (.evsig 4 5 false) := by decide +kernel
theorem test_word_bari : (decode (wordT 0 0 0 0 0 0xA4 3 1) 0x20000002).toOption = some (.bari 0x20000002 false) := by decide +kernel
theorem test_word_tend : (decode (wordT 0 6 0 1 0 0xAD 3 0) 0).toOption = some (.tend 6 true) := by decide +kernel
theorem test_word_diag : (decode (wordT 0 0 0 0 0 0xBF 3 0) 0).toOption = some (.diag false) := by decide +kernel
-- R34: an opcode under another head's tag; R23: a field that is not used; R24: a wrong length; R20: a class where there is no result.
theorem test_words_refused : (decode (wordT 1 2 3 0 0 0x01 1 0) 0).toOption = none ∧ (decode (wordT 1 2 3 0 0 0x21 0 0) 0).toOption = none
    ∧ (decode (wordT 1 2 0 0 0 0x20 0 0) 0).toOption = none ∧ (decode (wordT 0 7 0 0 1 0x44 0 0) 0).toOption = none := by decide +kernel

/-! ### Small states -/

/-- A task with the age 5 of the record 1. -/
def task : Task := { epoch := 1, ord := 0, iter := [0, 0, 0, 0], age := 5, pkt := {}, decl := {} }
/-- A slot in which it runs, with S two words ahead of the trailing heads. -/
def slot : Slot := { stage := .running, task := some task, core := { user := { pcS := 8, lagM := 2, lagA := 2, lagY := 2 } } }
/-- The package in stage 2 with a slot 0, and that slot with a control core, a stream engine or a region. -/
def with0 (l : Slot) : State := { dies := [{ stage := 2 }, { stage := 2 }, { stage := 2 }, { stage := 2 }], slots := [(0, l)] }
def withCore (c : Core) : State := with0 { slot with core := { c with user := slot.core.user } }
def run : State := with0 slot
/-- A core whose s1 and s2 hold two values. -/
def core2 (x y : Word) : Core := { sreg := ((Vector.replicate 32 0).set 1 x).set 2 y }
def answers (o : Host.Outcome State Fault Refusal) (p : State → Bool) : Bool :=
  match o with
  | .next t => p t
  | _ => false
/-- The first result in flight. -/
def inFlight (s : State) : Option Word := s.core.flights.head?.map (·.val)
def result (i : Instr) (x y : Word) : Option Word :=
  match exec i (withCore (core2 x y)) with
  | .next t => inFlight t
  | _ => none

/-! ### Results computed by hand -/

theorem test_add_wraps : result (.add 3 1 2 false 0) (BitVec.allOnes 64) 2 = some 1 := by decide +kernel
theorem test_mulh_signed : result (.mulh 3 1 2 false 2) (BitVec.allOnes 64) 2 = some (BitVec.allOnes 64) := by decide +kernel
theorem test_mulhu : result (.mulhu 3 1 2 false 2) (BitVec.allOnes 64) 2 = some 1 := by decide +kernel
theorem test_div_rounds_to_zero : result (.div 3 1 2 false 7) (-7) 2 = some (-3) := by decide +kernel
theorem test_rem_sign : result (.rem 3 1 2 false 7) (-7) 2 = some (-1) := by decide +kernel
theorem test_div_by_zero : result (.divu 3 1 2 false 7) 9 0 = some (BitVec.allOnes 64)
    ∧ result (.remu 3 1 2 false 7) 9 0 = some 9 := by decide +kernel
theorem test_div_overflow : result (.div 3 1 2 false 7) 0x8000000000000000 (-1) = some 0x8000000000000000 := by decide +kernel
theorem test_andn : result (.andn 3 1 2 false 0) 0b1100 0b1010 = some 0b0100 := by decide +kernel
theorem test_sar : result (.sar 3 1 2 false 0) 0x8000000000000000 65 = some 0xC000000000000000 := by decide +kernel
theorem test_min_is_signed : result (.min 3 1 2 false 0) (-1) 1 = some (-1) ∧ result (.minu 3 1 2 false 0) (-1) 1 = some 1 := by
  decide +kernel
theorem test_ori_zero_extends : result (.ori 3 1 0xFFFFFFFF false 0) 0 0 = some 0xFFFFFFFF
    ∧ result (.andi 3 1 0xFFFFFFFF false 0) 0x10000000000 0 = some 0x10000000000 := by decide +kernel
theorem test_clz_of_zero : result (.clz 3 1 false 0) 0 0 = some 64 ∧ result (.ctz 3 1 false 0) 8 0 = some 3 := by decide +kernel
theorem test_ext_signed : result (.ext 3 1 (4 + 3 * 64 + 0x1000) false 0) 0xA5 0 = some (-6) := by decide +kernel
theorem test_cmp_ltu : result (.cmp 2 1 1 2 false 0) 1 (-1) = some 1 ∧ result (.cmp 1 1 1 2 false 0) 1 (-1) = some 0 := by
  decide +kernel
/-- FP64 values: f1 holds x and f2 holds y. -/
def fresult (i : Instr) (x y : Word) : Option Word :=
  match exec i (withCore { freg := ((Vector.replicate 16 0).set 1 x).set 2 y }) with
  | .next t => inFlight t
  | _ => none
theorem test_fadd : fresult (.fadd 3 1 2 false 3) 0x3FF0000000000000 0x4000000000000000 = some 0x4008000000000000 := by decide +kernel
theorem test_fdiv_by_zero : fresult (.fdiv 3 1 2 false 6) 0x3FF0000000000000 0 = some 0x7FF0000000000000 := by decide +kernel
theorem test_fmin_of_zeros : fresult (.fmin 3 1 2 false 1) 0 0x8000000000000000 = some 0x8000000000000000 := by decide +kernel
theorem test_fsqrt : fresult (.fsqrt 3 1 false 7) 0x4010000000000000 0 = some 0x4000000000000000 := by decide +kernel
theorem test_toint_rounds_to_even : fresult (.fcvtToint 3 1 false 3) 0x4004000000000000 0 = some 2 := by decide +kernel
-- The worked examples of R57 and R73.
/-- S at the target of a prefix that saturates, with a core. -/
def underSatOf (c : Core) : State :=
  with0 { slot with core := { c with user := { slot.core.user with pfx := some ⟨0, true, false, 4, 8⟩ } } }
theorem test_add_sat : inFlight (match exec (.add 3 1 2 false 0) (underSatOf (core2 0x7FFFFFFFFFFFFFF0 0x20)) with
    | .next t => t | _ => {}) = some 0x7FFFFFFFFFFFFFFF := by decide +kernel
theorem test_fcvt_tobf16 : fresult (.fcvtTobf16 4 1 false 3) 0x3FD5555555555555 0 = some 0x3EAB := by decide +kernel
theorem test_fcvt_round32 : fresult (.fcvtRound32 5 1 false 3) 0x3FD5555555555555 0 = some 0x3FD5555560000000 := by decide +kernel
-- R78, with the worked example of R81: DBRP at 0x118 goes back two words.
theorem test_dbrp : (match exec (.dbrp 1 0x7FE 0) (with0 { slot with core := { core2 3 0 with
    user := { pcS := 0x118 }, arenabound := 0x200 } }) with
    | .next t => (t.core.path.pcS, inFlight t, t.core.path.boq) | _ => (0, none, []))
    = (0x110, some 2, [⟨0x110, 0x118, true, .first⟩]) := by decide +kernel

/-! ### The statements can be met: the hypotheses of each, at a concrete state -/

theorem issuesS_of {s : State} {i : Instr} (h : (!s.stalledS i && (!i.guard || s.opened.readGuard)) = true) : s.IssuesS i := by
  simp only [Bool.and_eq_true, Bool.not_eq_true', Bool.or_eq_true] at h
  exact ⟨h.1, fun g => h.2.resolve_left (by simp [g])⟩
theorem skipsS_of {s : State} {i : Instr} (h : (!s.stalledS i && i.guard && !s.opened.readGuard) = true) : s.SkipsS i := by
  simp only [Bool.and_eq_true, Bool.not_eq_true'] at h
  exact ⟨h.1.1, h.1.2, h.2⟩
theorem issuesX_of {s : State} {h : Head} {i : Instr} (w : (!s.stalledX h i && (!i.guard || s.core.getP 1)) = true) :
    s.IssuesX h i := by
  simp only [Bool.and_eq_true, Bool.not_eq_true', Bool.or_eq_true] at w
  exact ⟨w.1, fun g => w.2.resolve_left (by simp [g])⟩
theorem skipsX_of {s : State} {h : Head} {i : Instr} (w : (!s.stalledX h i && i.guard && !s.core.getP 1) = true) : s.SkipsX h i := by
  simp only [Bool.and_eq_true, Bool.not_eq_true'] at w
  exact ⟨w.1.1, w.1.2, w.2⟩

-- Obligations.RegisterRegisterArithmetic, SaturatingArithmetic, ImmediateForms, BitCounts, FieldsAndSelection,
-- FloatingPointArithmetic, Conversions, PrivateBranch, SpillMemory, SystemRegisters and SoftwareTrapAndReturn: IssuesS of each word.
/-- Words that S issues at `run`. -/
def wordsS : List Instr :=
  [.add 3 1 2 false 0, .sub 3 1 2 false 0, .mul 3 1 2 false 2, .mulh 3 1 2 false 2, .mulhu 3 1 2 false 2, .and 3 1 2 false 0,
    .or 3 1 2 false 0, .xor 3 1 2 false 0, .andn 3 1 2 false 0, .shl 3 1 2 false 0, .shr 3 1 2 false 0, .sar 3 1 2 false 0,
    .min 3 1 2 false 0, .max 3 1 2 false 0, .minu 3 1 2 false 0, .maxu 3 1 2 false 0, .div 3 1 2 false 7, .divu 3 1 2 false 7,
    .rem 3 1 2 false 7, .remu 3 1 2 false 7, .li 3 5 false 0, .addi 3 1 5 false 0, .muli 3 1 5 false 2, .andi 3 1 5 false 0]
  ++ [.ori 3 1 5 false 0, .xori 3 1 5 false 0, .shli 3 1 63 0, .shri 3 1 63 0, .sari 3 1 63 0, .clz 3 1 false 0, .ctz 3 1 false 0,
    .popc 3 1 false 0, .ext 3 1 0 false 0, .ins 3 1 0 false 0, .sel 3 1 2 0, .madi 3 1 2 5 false 2, .cmp 0 1 1 2 false 0,
    .cmp 3 1 1 2 false 0, .cmpi 0 1 1 5 false 0, .cmpi 3 1 1 5 false 0, .fcmp 0 1 1 2 false 1, .fcmp 3 1 1 2 false 1,
    .plog 0 2 false 1 true 3 false 0, .plog 2 2 false 1 true 3 false 0]
  ++ [.fadd 3 1 2 false 3, .fsub 3 1 2 false 3, .fmul 3 1 2 false 3, .ffma 3 1 2 false 3, .fdiv 3 1 2 false 6, .fsqrt 3 1 false 7,
    .fmin 3 1 2 false 1, .fmax 3 1 2 false 1, .fcvtRint 3 1 false 3, .fcvtRound32 3 1 false 3, .fcvtToint 3 1 false 3,
    .fcvtTouint 3 1 false 3, .fcvtFromint 3 1 false 3, .fcvtFromuint 3 1 false 3, .fcvtTofp32 3 1 false 3, .fcvtFromfp32 3 1 false 3,
    .fcvtTofp16 3 1 false 3, .fcvtFromfp16 3 1 false 3, .fcvtTobf16 3 1 false 3, .fcvtFrombf16 3 1 false 3, .fcvtToe4m3 3 1 false 3]
  ++ [.fcvtFrome4m3 3 1 false 3, .fcvtToe5m2 3 1 false 3, .fcvtFrome5m2 3 1 false 3, .fcvtTotap8 3 1 false 3, .fcvtFromtap8 3 1 false 3,
    .fcvtTotap6 3 1 false 3, .fcvtFromtap6 3 1 false 3, .fmvi 3 5 false 0, .fmvfToS 3 1 false 0, .fmvfToF 3 1 false 0, .br 2 false 0,
    .brp 0xFFE false 0, .dbrp 1 2 0, .call 3 0 2 false 0, .ret 1 false, .nop false, .spld 3 false 511 false 0, .spst 3 true 0 false,
    .ldt 3 1 2 false 3, .stt 3 1 2 false, .sysr 3 0 false 0, .sysw 3 5 false, .syswSlipwin 3 false, .syswTrappcS 3 false,
    .syswTstatus 3 false, .trap 7 1 false, .tret false]
theorem test_s_words_issue : ∀ i ∈ wordsS, run.IssuesS i ∧ i.wf = true := by
  have h : (wordsS.all fun i => (!run.stalledS i && (!i.guard || run.opened.readGuard)) && i.wf) = true := by decide +kernel
  intro i hi
  have := List.all_eq_true.mp h i hi
  rw [Bool.and_eq_true] at this
  exact ⟨issuesS_of this.1, this.2⟩
/-- The same words issue in supervisor mode, and with a SAT prefix. -/
def inFirm : State := withCore { sup := true }
def underSat : State := underSatOf {}
theorem test_s_words_issue_elsewhere : (∀ i ∈ wordsS, inFirm.IssuesS i) ∧ (∀ i ∈ wordsS, underSat.IssuesS i) := by
  have h : (wordsS.all fun i => (!inFirm.stalledS i && (!i.guard || inFirm.opened.readGuard))
    && (!underSat.stalledS i && (!i.guard || underSat.opened.readGuard))) = true := by decide +kernel
  constructor <;> intro i hi <;> have := List.all_eq_true.mp h i hi <;> rw [Bool.and_eq_true] at this
  · exact issuesS_of this.1
  · exact issuesS_of this.2
-- The other hypotheses of those statements, and of DoubleTrap and FencesComplete.
theorem test_modes_in_firmware : inFirm.me.task = some task ∧ inFirm.dies.length = 4 ∧ run.core.bank = none
    ∧ run.IssuesX .y (.fence 1 false) := ⟨by decide +kernel, by decide +kernel, by decide +kernel, issuesX_of (by decide +kernel)⟩
theorem test_modes : run.satOn = false ∧ underSat.satOn = true ∧ run.core.sup = false ∧ inFirm.core.sup = true
    ∧ run.core.arm = none ∧ run.boqFull = false ∧ run.opened.boqFull = false ∧ run.opened.acquirePending = false := by decide +kernel
-- Obligations.GuardedOff.
theorem test_guarded_words_are_skipped : run.SkipsS (.add 3 1 2 true 0) ∧ run.SkipsS (.call 3 0 2 true 0) ∧ run.SkipsS (.ret 1 true)
    ∧ run.SkipsX .m (.sclose 1 true) ∧ run.SkipsX .y (.evsig 1 0 true) ∧ run.SkipsX .a (.arun 1 true) :=
  ⟨skipsS_of (by decide +kernel), skipsS_of (by decide +kernel), skipsS_of (by decide +kernel), skipsX_of (by decide +kernel),
    skipsX_of (by decide +kernel), skipsX_of (by decide +kernel)⟩
/-- Words that the trailing heads issue at `run`. -/
def wordsX : List (Head × Instr) :=
  [(.m, .saff 1 1 2 false), (.m, .saffw 1 1 2 false), (.m, .sind 1 1 2 false), (.m, .sindw 1 1 2 false), (.m, .srec 1 1 2 false),
    (.m, .sfill 1 1 2 5 false), (.m, .smc 1 1 2 false), (.m, .sgrow 1 1 2 false), (.m, .sred 1 1 2 false), (.m, .satm 1 1 2 false),
    (.m, .scpy 1 1 2 false), (.m, .sbar 1 1 2 false), (.m, .stap 1 1 2 false), (.m, .sfilt 1 1 2 false), (.m, .smeta 1 1 2 false),
    (.m, .stok 1 1 2 5 false), (.m, .sdesc 1 1 2 false), (.m, .swinDecl 1 1 3 1 false), (.m, .swinTake 1 3 false),
    (.m, .swinGive 1 3 false), (.m, .sclose 1 false), (.m, .sqryCommand 1 false), (.m, .sqryWindrow 1 false)]
  ++ [(.a, .acfg 1 2 0 false), (.a, .arun 2 false), (.a, .adrn 2 false), (.a, .aqui false 2 false), (.a, .amrk 1 2 false),
    (.a, .aprt 1 2 false), (.a, .chbd 1 1 false), (.a, .chord 1 2 1 false), (.a, .chrun 1 2 false), (.a, .chsv 1 2 false),
    (.a, .chld 1 2 false), (.a, .enco 1 1 2 false), (.a, .encf 1 1 2 false), (.a, .encc 1 2 false)]
  ++ [(.y, .evsig 1 1 false), (.y, .evwait 1 0 false), (.y, .evclr 1 1 false), (.y, .bari 0x20000002 false), (.y, .bara 1 2 false),
    (.y, .barw true 1 2 false), (.y, .barq 1 false), (.y, .fence 1 false), (.y, .acq 1 false), (.y, .rel 1 false),
    (.y, .tenq true 1 2 false), (.y, .tspwn false 1 false), (.y, .tpollTask false), (.y, .tpollDie false), (.y, .lkprb 1 2 false),
    (.y, .stamp true 1 false), (.y, .dln 1 5 false), (.y, .diag false)]
theorem test_trailing_words_issue : ∀ x ∈ wordsX, run.IssuesX x.1 x.2 := by
  have h : (wordsX.all fun x => !run.stalledX x.1 x.2 && (!x.2.guard || run.core.getP 1)) = true := by decide +kernel
  intro x hx
  exact issuesX_of (List.all_eq_true.mp h x hx)

-- Obligations.IllegalWordsTrap: a word of each kind at offset 0 of the arena.
def code (w : Nat) : State := { with0 { slot with core := { arenabound := 64 } } with mem := writeLE [] 0 8 w }
theorem test_illegal_words : (∀ w ∈ [3, 0x10, 0xE, 0], (code w).me.stage = .running ∧ (code w).core.sup = false
      ∧ (code w).userHold = false ∧ (code w).offBeat (code w).cur = false ∧ (code w).core.bank = none ∧ (code w).core.arm = none
      ∧ (code w).fetch (code w).cur (code w).core.path.pcS = .word w)
    ∧ 3 % 4 = 3 ∧ 4 ≤ wordTag 0x10 ∧ (0xE % 4 = 2 ∧ prefixBad 0xE = true) ∧ wordTag 0 = 0 ∧ (decode 0 0).toOption = none := by
  decide +kernel
-- Obligations.StepRunsTheDecodedInstruction: ADD at S, and EVSIG at Y, two words behind S.
def turnOf (h : Head) (w : Nat) : State :=
  { with0 { slot with core := { arenabound := 64, user := if h = .s then {} else { pcS := 8, lagM := 2, lagA := 2, lagY := 2 } } } with
    mem := writeLE [] 0 8 w
    agenda := [⟨3, .head 0 h⟩] }
theorem test_step_hypotheses : ∀ x ∈ [(Head.s, 0x190A2020, 0), (Head.y, 0x2140140C, 3)],
    let s := { ({ turnOf x.1 x.2.1 with agenda := [] } : State).pass 3 with cur := 0 }
    (turnOf x.1 x.2.1).agenda = [⟨3, .head 0 x.1⟩] ∧ s.me.stage = .running ∧ s.userHold = false ∧ s.offBeat 0 = false
    ∧ s.core.bank = none ∧ s.core.path.lost x.1 = none ∧ s.core.path.replay = none
    ∧ (x.1 ≠ .s → s.core.path.left x.1 (wordLen x.2.1) ≤ s.core.path.lag x.1) ∧ s.core.slipHalf = false ∧ s.core.arm = none
    ∧ s.fetch 0 (s.core.path.pc x.1) = .word x.2.1 ∧ x.2.1 % 4 = 0 ∧ wordTag x.2.1 = headCode x.1
    ∧ ((decode x.2.1 0).toOption.map Instr.wf) = some true ∧ s.stc = 3 := by decide +kernel
theorem test_step_runs_add : answers (step (turnOf .s 0x190A2020)) (fun t => t.core.path.pcS == 4 && inFlight t == some 0) = true := by
  decide +kernel
theorem test_step_runs_evsig : answers (step (turnOf .y 0x2140140C)) (fun t => t.core.path.pcY == 4 && t.core.ereg[4] == 0) = true := by
  decide +kernel
-- Obligations.DecodeOfEncode, StepKeepsMemoryCanonical.
theorem test_encode_of_well_formed : (Instr.add 3 4 5 false 1).wf = true ∧ encode (.add 3 4 5 false 1) = some (0x190A2020, none)
    ∧ encode (.li 6 0xFFFFFFFE false 0) = some (0x30000401, some 0xFFFFFFFE) := by decide +kernel
theorem test_a_step_answers : Memory.wf run.mem = true ∧ answers (step { run with agenda := [⟨1, .write 0x100 [1, 0, 2]⟩] })
    (fun t => t.mem == [(0x100, 1), (0x102, 2)] && t.stc == 1) = true := by decide +kernel
-- Obligations.HardWiredRegisters.
def stsFull (n : Nat) : State := withCore { sts := List.replicate n 7 }
theorem test_hard_wired_hypotheses : run.IssuesS (.add 0 1 2 false 0) ∧ run.IssuesS (.ldt 0 1 2 false 3)
    ∧ (stsFull 1).IssuesS (.popf 0 4 false 1) :=
  ⟨issuesS_of (by decide +kernel), issuesS_of (by decide +kernel), issuesS_of (by decide +kernel)⟩
theorem test_hard_wired_clauses : run.opened.core.windrowEmpty (run.opened.tileAddr 1 2).toNat = false
    ∧ (stsFull 1).opened.core.fifo 4 = [7] ∧ (stsFull 1).opened.acquirePending = false
    ∧ (∀ f ∈ [(⟨0, 0, 0x30, 0, 16, 0, 0, 0, 0⟩ : Fields), ⟨0, 0, 0x38, 3, 0, 16, 0, 0, 0⟩, ⟨1, 0, 0x39, 0, 16, 0, 0, 0, 0⟩],
      f.tag = 0 ∧ f.ls ≤ 1) := by decide +kernel
-- Obligations.Division: both cases of the divisor, with and without DZT.
def zeroDiv : State := withCore { core2 9 0 with dzt := true }
theorem test_division_hypotheses : zeroDiv.IssuesS (.div 3 1 2 false 7) ∧ zeroDiv.rs 2 2 = 0 ∧ zeroDiv.rs 1 1 = 9
    ∧ zeroDiv.core.dzt = true ∧ zeroDiv.core.sup = false ∧ zeroDiv.core.arm = none ∧ run.core.dzt = false
    ∧ (withCore (core2 9 4)).rs 2 2 ≠ 0 :=
  ⟨issuesS_of (by decide +kernel), by decide +kernel⟩
theorem test_minus_2_63 : (0x8000000000000000 : Word).toInt = -2 ^ 63 ∧ (-1 : Word).toInt = -1 := by decide +kernel
-- Obligations.Predicates, FloatingPointArithmetic, RoundingKeepsRepresentable: NaN operands, a subnormal and a normal pattern.
theorem test_float_hypotheses : Fmt.fp64.operand false 0x7FF8000000000000 = .nan ∧ Fmt.fp64.value 1 ≠ .nan ∧ Fmt.fp64.subnormal 1 = true
    ∧ Fmt.fp64.value (2 ^ 63) ≠ .nan ∧ FVal.inf false ≠ .nan := by decide +kernel
-- Obligations.BranchesTakenAndNot, PrivateBranch: a taken and a fallen branch, a good target and a bad one.
def inArena (pc : Nat) : State := with0 { slot with core := { user := { pcS := pc }, arenabound := 64 } }
theorem test_branch_clauses : (inArena 8).IssuesS (.brp 0xFFE false 0) ∧ (inArena 8).opened.badTarget 0 = false
    ∧ (inArena 8).opened.badTarget 64 = true ∧ (inArena 8).opened.badTarget 60 = false ∧ (inArena 8).opened.badTarget 2 = true
    ∧ ((inArena 8).rp 1 0 != false) = true ∧ ((inArena 8).rp 1 0 != true) = false :=
  ⟨issuesS_of (by decide +kernel), by decide +kernel⟩
-- Obligations.TileStoreAccess: the last word of the share, and the first address beyond it.
def addr (a : Word) : State := withCore (core2 a 0)
theorem test_tile_addresses : (addr 524280).IssuesS (.ldt 3 1 2 false 3) ∧ (addr 524280).IssuesS (.stt 3 1 2 false)
    ∧ (addr 524280).opened.core.windrowEmpty 524280 = false ∧ (addr 524280).opened.storeBlocked = false
    ∧ (addr 524280).me.pkt.inJournal 524280 = false ∧ ((addr 524280).rs 1 1 + (addr 524280).rs 2 2).toNat < 524288
    ∧ ¬ ((addr 524288).rs 1 1 + (addr 524288).rs 2 2).toNat < 524288 ∧ ((addr 4).rs 1 1 + (addr 4).rs 2 2).toNat % 8 ≠ 0 :=
  ⟨issuesS_of (by decide +kernel), issuesS_of (by decide +kernel), by decide +kernel⟩
-- Obligations.EngineFifos: a part of a record, its last part, and a full `xo` FIFO.
def part (n : Nat) : State := withCore { asmM := List.replicate n 1 }
def xoFull (n : Nat) : State := withCore { xo := Vector.replicate 4 (List.replicate n 1) }
theorem test_fifo_words : (stsFull 1).IssuesS (.popf 3 4 false 1) ∧ run.IssuesS (.popf 3 4 false 1)
    ∧ (part 14).IssuesS (.pushf 1 0 false) ∧ (part 15).IssuesS (.pushf 1 0 false) ∧ (xoFull 15).IssuesS (.pushf 1 12 false)
    ∧ (xoFull 16).IssuesS (.pushf 1 15 false) :=
  ⟨issuesS_of (by decide +kernel), issuesS_of (by decide +kernel), issuesS_of (by decide +kernel), issuesS_of (by decide +kernel),
    issuesS_of (by decide +kernel), issuesS_of (by decide +kernel)⟩
theorem test_fifo_clauses : (part 14).opened.me.pushWaits 0 = false ∧ ((part 14).opened.me.assembly 0).length = 14
    ∧ (part 15).opened.me.pushWaits 0 = false ∧ ((part 15).opened.me.assembly 0).length = 15 ∧ (xoFull 15).opened.me.pushWaits 12 = false
    ∧ (xoFull 16).opened.me.pushWaits 15 = true ∧ run.opened.core.fifo 4 = [] := by decide +kernel
-- Obligations.TakingATrap, DoubleTrap.
theorem test_trap_hypotheses : run.core.sup = false ∧ run.core.arm = none ∧ inFirm.core.sup = true ∧ inFirm.me.task = some task
    ∧ inFirm.dies.length = 4 ∧ inFirm.cur < 4096 := by decide +kernel
-- Obligations.PrefixAndDiag: a prefix and its FADD, with and without M words between, an orphan, and a refused modifier.
def prefixed (p t : Nat) : State := { inArena 0 with mem := writeLE (writeLE [] 0 4 p) 4 4 t }
def targetOf (x : Scan) : Option (Nat × Instr) := match x with | .target n i => some (n, i) | _ => none
def orphanOf (x : Scan) : Option (Nat × Nat) := match x with | .orphan w o => some (w, o) | _ => none
theorem test_prefix_hypotheses : targetOf ((prefixed 0x182 0x08866600).scan 0 16 4 1) = some (1, .fadd 1 2 3 false 3)
    ∧ accepts (.fadd 1 2 3 false 3) = some (true, true, true) ∧ accepts (.fmin 1 2 3 false 1) = some (false, false, true)
    ∧ orphanOf ((prefixed 0x182 0xFFE00800).scan 0 16 4 1) = some (0xFFE00800, 4) ∧ ((prefixed 0x182 0).arena 0).2 / 4 = 16 := by decide +kernel
-- A prefix at 0 and its FADD at 4: S steps past the prefix, and the next step issues the unit; under slipwin 0 S waits.
theorem test_prefix_of_s : (prefixed 0x182 0x08866600).core.slipOk 1 = true
    ∧ answers (exec (.pfx false true 4 0) (prefixed 0x182 0x08866600)) (fun t => t.core.path.pcS == 4 && t.core.mods == ⟨.rna, true, false⟩
        && t.nextS 0 == 0 && t.core.cycle == 0) = true
    ∧ (let s := (prefixed 0x182 0x08866600).setCore (·.setPath fun p => { p with lagM := 64 })
      s.core.slipOk 1 = false ∧ answers (exec (.pfx false true 4 0) s) (· == s) = true) := by decide +kernel
def diagOn : State := withCore { diagen := true }
theorem test_diag_hypotheses : run.IssuesX .y (.diag false) ∧ run.core.diagen = false ∧ diagOn.IssuesX .y (.diag false)
    ∧ diagOn.core.diagen = true :=
  ⟨issuesX_of (by decide +kernel), by decide +kernel, issuesX_of (by decide +kernel), by decide +kernel⟩
-- Obligations.LatencyWindow, ResultFrame.
def flying : State := withCore { flights := [⟨.s 3, 9, 0, 1, false, false⟩], cycle := 1 }
theorem test_window_hypotheses : (RegId.s 3).wired = false ∧ flying.core.flights[0]? = some ⟨.s 3, 9, 0, 1, false, false⟩
    ∧ (∀ f ∈ flying.core.flights, f.start + f.cls ≤ flying.core.cycle) := by decide +kernel
theorem test_result_frame_hypotheses : (Instr.add 3 1 2 false 0).resultOnly = true ∧ (Instr.div 3 1 2 false 7).divides = true
    ∧ run.core.dzt = false ∧ answers (exec (.add 3 1 2 false 0) run) (fun t => t != run) = true := by decide +kernel
-- The M head: a template at 64, 63 and 64 commands queued, and a template that is not aligned.
def cmd (l : List (Fin 16 × Word)) : Cmd := { raw := l.foldl (fun v x => v.set x.1 x.2) (Vector.replicate 16 0), seq := 0, head := 1 }
def queue (n : Nat) (a : Word) : State :=
  with0 { slot with
    core := { core2 a 0 with user := slot.core.user }
    eng := { queue := List.replicate n (cmd []) }
    queueA := List.replicate n (cmd [])
    queueE := List.replicate n (cmd []) }
theorem test_stream_word_clauses : ((queue 63 524160).core.getS 1).toNat % 64 = 0 ∧ ((queue 63 524160).core.getS 1).toNat + 128 ≤ 524288
    ∧ (queue 63 524160).me.eng.queue.length < 64 ∧ 64 ≤ (queue 64 64).me.eng.queue.length
    ∧ ¬ ((queue 0 524224).core.getS 1).toNat + 128 ≤ 524288 := by decide +kernel
theorem test_queue_words_issue : (queue 63 524160).IssuesX .m (.saff 1 1 2 false) ∧ (queue 64 64).IssuesX .m (.sdesc 1 1 2 false)
    ∧ (queue 63 64).IssuesX .a (.chsv 1 2 false) ∧ (queue 64 64).IssuesX .a (.enco 1 1 2 false) :=
  ⟨issuesX_of (by decide +kernel), issuesX_of (by decide +kernel), issuesX_of (by decide +kernel), issuesX_of (by decide +kernel)⟩
-- Obligations.Windrows: the last slot free and none filled, and the other way.
def windrow (free filled : Nat) : State := withCore { core2 1024 0 with windrows := [(1, ⟨0, 64, 4, free, filled, 3, 3, 0, 0⟩)] }
theorem test_windrow_hypotheses : (windrow 4 0).IssuesX .m (.swinDecl 2 1 3 1 false) ∧ (windrow 0 4).IssuesX .m (.swinTake 1 3 false)
    ∧ (windrow 4 0).IssuesX .m (.swinGive 1 3 false) ∧ (windrow 3 1).IssuesX .m (.swinTake 1 3 false) :=
  ⟨issuesX_of (by decide +kernel), issuesX_of (by decide +kernel), issuesX_of (by decide +kernel), issuesX_of (by decide +kernel)⟩
theorem test_windrow_clauses : (windrow 0 4).core.windrow 1 = some ⟨0, 64, 4, 0, 4, 3, 3, 0, 0⟩ ∧ (windrow 0 4).me.windrowNamed 2 = false
    ∧ (windrow 0 4).core.windrow 2 = none ∧ (windrow 3 1).core.windrow 1 = some ⟨0, 64, 4, 3, 1, 3, 3, 0, 0⟩
    ∧ ((windrow 4 0).core.getS 1).toNat % 64 = 0 := by decide +kernel
theorem test_take_wraps : answers (exec (.swinTake 1 3 false) (windrow 0 4)) (fun t =>
    t.core.windrow 1 == some ⟨0, 64, 4, 4, 0, 3, 3, 0, 0⟩) = true := by decide +kernel
-- Obligations.ClosingAndQuerying: a valid handle and one with V = 0; the last place of `sts`, and none.
def handle (h : BitVec 32) (n : Nat) : State := withCore { hreg := (Vector.replicate 16 0).set 1 h, sts := List.replicate n 0 }
theorem test_query_hypotheses : (handle 0x80000000 31).IssuesX .m (.sclose 1 false) ∧ (handle 0x80000000 31).IssuesX .m (.sqryCommand 1 false)
    ∧ (handle 5 32).IssuesX .m (.sqryWindrow 1 false) :=
  ⟨issuesX_of (by decide +kernel), issuesX_of (by decide +kernel), issuesX_of (by decide +kernel)⟩
theorem test_query_clauses : ((handle 0x80000000 31).core.hreg[1]).getLsbD 31 = true ∧ ((handle 5 32).core.hreg[1]).getLsbD 31 = false
    ∧ (handle 5 31).core.sts.length < 32 ∧ 32 ≤ (handle 5 32).core.sts.length := by decide +kernel
-- Obligations.EngineWordsQueueTheirCommands: operands at the ends of their ranges.
theorem test_engine_word_clauses : ((2 ^ 48 - 1 : Nat) < 2 ^ 48) ∧ ((queue 0 127).core.getS 1).toNat < 128
    ∧ ¬ ((queue 0 128).core.getS 1).toNat < 128 ∧ ((queue 0 16).core.getS 1).toNat % 16 = 0 ∧ ((queue 0 8).core.getS 1).toNat % 16 ≠ 0
    ∧ (queue 63 0).me.queueA.length < 64 ∧ 64 ≤ (queue 64 0).me.queueA.length ∧ (queue 63 0).me.queueE.length < 64
    ∧ 64 ≤ (queue 64 0).me.queueE.length := by decide +kernel
theorem test_arun_queues : answers (exec (.arun 2 false) (queue 63 0)) (fun t => t.me.queueA.length == 64 && t.core.seqA == 1) = true := by
  decide +kernel
-- Obligations.BondRegisters: 1, 1,024, and the values beside them.
theorem test_bond_clauses : (queue 0 1).IssuesX .a (.chbd 7 1 false) ∧ (queue 0 1024).IssuesX .a (.chbd 7 1 false) ∧ (1 : Word).toNat = 1 ∧ (1025 : Word).toNat = 1025
    ∧ ((⟨0, 2, 0x88, 0, 8, 1, 0, 0, 0⟩ : Fields).tag = 2) ∧ (∀ j : BdReg, (run.core.bdreg[j]).toNat ≤ 1024) :=
  ⟨issuesX_of (by decide +kernel), issuesX_of (by decide +kernel), by decide +kernel⟩
theorem test_chbd_1024 : answers (exec (.chbd 7 1 false) (queue 0 1024)) (fun t => t.core.bdreg[7] == 1024) = true
    ∧ answers (exec (.chbd 7 1 false) (queue 0 1025)) (fun t => t.core.trapcause == 0x0206) = true := by decide +kernel
-- Obligations.CountedEvents: a wait for more than the event holds, and for as many.
def waitEvent (n have' : Nat) : State := withCore { ywait := some (.event 4 n), ereg := (Vector.replicate 32 0).set 4 (BitVec.ofNat 16 have') }
theorem test_event_hypotheses : (waitEvent 2 2).core.ywait = some (.event 4 2) ∧ (waitEvent 2 2).yReady = true
    ∧ 2 ≤ ((waitEvent 2 2).core.ereg[4]).toNat ∧ ((waitEvent 2 1).core.ereg[4]).toNat < 2 := by decide +kernel
theorem test_evsig_saturates : answers (exec (.evsig 4 0 false) (withCore { ereg := Vector.replicate 32 0xFFFF })) (fun t =>
    t.core.ereg[4] == 0xFFFF) = true := by decide +kernel
theorem test_evwait_takes : answers (exec .evwaitComplete (waitEvent 2 3)) (fun t => t.core.ereg[4] == 1 && t.core.path.pcY == 4) = true := by
  decide +kernel
-- Obligations.Barriers: a granted object and one that is not; a wait behind the phase, and a poisoned one.
def granted : Decl := { objects := [1, 0, 0, 0, 0] }
def barrier (b : Barrier) (w : Option YWait) : State :=
  { with0 { slot with
      task := some { task with decl := granted }
      core := { slot.core with ywait := w } } with
    barriers := [b]
    arrivals := [⟨1, 1, scopePlace 1 (nodeOf 0), 0, 1⟩] }
/-- A reference of scope 1, BID 0. -/
def bref : Word := 0x8100000000000000
def bar1 : Barrier := { epoch := 1, scope := 1, place := scopePlace 1 (nodeOf 0), bid := 0, count := 3, arrived := 2 }
theorem test_barrier_hypotheses : (barrier bar1 none).IssuesX .y (.bari 0x20000002 false)
    ∧ 0x20000002 / 2 ^ 16 % 64 < (barrier bar1 none).me.decl.granted (0x20000002 / 2 ^ 29) ∧ run.me.decl.granted 1 ≤ 0
    ∧ (barrier bar1 none).refOk bref = true ∧ run.refOk bref = false ∧ (barrier bar1 none).arrivals.length = 1
    ∧ bar1.spoilt ≠ some 3 :=
  ⟨issuesX_of (by decide +kernel), by decide +kernel⟩
theorem test_barw_hypotheses : ∀ b ∈ [{ bar1 with phase := 8 }, { bar1 with poison := true }, { bar1 with phase := 32774 }],
    (barrier b (some (.barrier bref 7 true))).core.ywait = some (.barrier bref 7 true) ∧ (barrier b (some (.barrier bref 7 true))).yReady = true
    ∧ (b.poison = true ∨ (1 ≤ (b.phase + 2 ^ 16 - 7) % 2 ^ 16 ∧ (b.phase + 2 ^ 16 - 7) % 2 ^ 16 ≤ 32767))
    ∧ (barrier b (some (.barrier bref 7 true))).core.sts.length < 32 := by decide +kernel
theorem test_third_arrival_completes : answers (exec (.barrierArrival 0) (barrier bar1 none)) (fun t =>
    (t.barrier 1 1 bar1.place 0).phase == 1 && (t.barrier 1 1 bar1.place 0).arrived == 0) = true := by decide +kernel
-- Obligations.EnqueuePackets: an offset at the end of the share and one beyond it; a destination of this package.
def inJournal : State := withCore { jnl := true }
theorem test_packet_clauses : (524224 % 64 = 0 ∧ 524224 + 64 ≤ 524288) ∧ ¬ (524288 + 64 ≤ 524288) ∧ inJournal.core.jnl = true
    ∧ run.core.jnl = false ∧ destOwn (2 ^ 57 + 256) = false ∧ run.yReady = true := by decide +kernel
-- Obligations.PollsAndProbes: a declared set of 4 granules.
def probing (n : Nat) (a b : Word) : State :=
  with0 { slot with
    task := some { task with decl := { sets := [none, some ⟨0, 6, 0, 4⟩] } }
    core := { core2 a b with
      user := slot.core.user
      sts := List.replicate n 0 } }
theorem test_probe_hypotheses : (probing 31 1 3).IssuesX .y (.lkprb 1 2 false) ∧ (probing 31 1 3).me.decl.setCount 1 = some 4
    ∧ (probing 31 0 0).me.decl.setCount 0 = none ∧ (probing 32 0 0).IssuesX .y (.tpollTask false)
    ∧ 32 ≤ (probing 32 0 0).core.sts.length ∧ (probing 31 0 0).core.sts.length < 32 :=
  ⟨issuesX_of (by decide +kernel), by decide +kernel, by decide +kernel, issuesX_of (by decide +kernel), by decide +kernel⟩
-- Obligations.StampAndDeadline: STC before, at and beyond the stamp 5.
def atTime (n : Nat) (w : Option YWait) : State := { withCore { core2 5 0 with ywait := w } with stc := n }
theorem test_stamp_hypotheses : (atTime 4 none).IssuesX .y (.stamp true 1 false) ∧ (atTime 4 none).stc < ((atTime 4 none).core.getS 1).toNat
    ∧ ((atTime 5 none).core.getS 1).toNat ≤ (atTime 5 none).stc ∧ (atTime 5 (some (.stamp 5 true))).yReady = true
    ∧ (atTime 6 none).core.restamp = false :=
  ⟨issuesX_of (by decide +kernel), by decide +kernel⟩
theorem test_dln_clamps : answers (exec (.dln 0 (-9) false) (atTime 4 none)) (fun t => t.core.deadline == 0 && t.core.pend == [⟨0x10, 7, 0⟩])
    = true := by decide +kernel
theorem test_packet_destination : destOk 0x0002000000000101 = true ∧ destOwn 0x0002000000000101 = true ∧ destOk 0x0002000000010101 = false
    ∧ ({ run with enqQueues := [(257, { accept := 1 })] } : State).queueAnswer (destQueue 0x0002000000000101) false = 0 := by decide +kernel
/-! ### Stream commands -/

/-- A started command of a kind with 4 × 1 elements of 32 bits, from ep0 to ep1, with DIM0 and DIM1 of stride 1 and 16. -/
def moving (kind : Nat) (ep0 ep1 : Word) : Cmd :=
  { cmd [(0, BitVec.ofNat 64 (256 + kind)), (1, BitVec.ofNat 64 (4 ^ 3 + 4 ^ 4 + 4 ^ 5 + 4 ^ 6 + 4 ^ 9 + 4 ^ 10 + 4 ^ 11)), (4, ep0), (5, ep1),
      (6, 0x100000004), (7, 0x1000000001), (10, 0x1000A), (12, 0x10003)] with
    st := .running
    started := true }
def tileEp (o : Nat) : Word := BitVec.ofNat 64 (2 ^ 60 + o)
def xiEp : Word := 0x3000000000000008
def xoEp : Word := 0x300000000000000C
def noneEp : Word := 0x7000000000000000
/-- The package with a command in flight at slot 0, a word in xo0, and the indices that command 3 has supplied. -/
def streaming (c : Cmd) : State :=
  with0 { slot with
    core := { slot.core with xo := (Vector.replicate 4 []).set 0 [9] }
    eng := { flying := [c], links := [(3, { vals := [5], ended := false })] } }
theorem running_of {s : State} {c : Cmd} (h : (s.cmdAt s.cur c.seq == some c && s.me.eng.holdsSides s.cur c && s.me.stage == .running
    && c.started && c.st == .running && !c.closing) = true) : s.Running c := by
  simp only [Bool.and_eq_true, beq_iff_eq, Bool.not_eq_true'] at h
  exact ⟨h.1.1.1.1.1, h.1.1.1.1.2, h.1.1.1.2, h.1.1.2, h.1.2, h.2⟩
theorem clear_of {c : Cmd} (h : (c.filt == none && c.pack == [] && c.unpack == [] && c.ready == [] && c.outBits == (0, 0) && c.notice == none
    && c.skipTo == 0 && decide (c.cursor < c.count)) = true) : c.Clear := by
  simp only [Bool.and_eq_true, beq_iff_eq, decide_eq_true_eq] at h
  exact ⟨h.1.1.1.1.1.1.1, h.1.1.1.1.1.1.2, h.1.1.1.1.1.2, h.1.1.1.1.2, h.1.1.1.2, h.1.1.2, h.1.2, h.2⟩
/-- One command of every moving kind. -/
def movers : List Cmd :=
  [moving 1 (tileEp 0) xiEp, moving 3 (tileEp 0) xiEp, moving 8 (tileEp 0) xiEp, moving 2 xoEp (tileEp 0), moving 4 xoEp (tileEp 0),
    moving 9 xoEp (tileEp 0), moving 0x0A xoEp 0x0000000000000000, moving 0x0B (tileEp 0) (tileEp 64), moving 6 noneEp (tileEp 0),
    { moving 7 (tileEp 0) (tileEp 64) with peers := [(0, 0, 0)] }, moving 0x0F (tileEp 0) 0x2000000000000005]
theorem test_movers_run : ∀ c ∈ movers, (streaming c).Running c ∧ c.Clear ∧ (kindEvent c.seq c.kind).isSome = true := by
  have h : (movers.all fun c => ((streaming c).cmdAt (streaming c).cur c.seq == some c && (streaming c).me.eng.holdsSides (streaming c).cur c
      && (streaming c).me.stage == .running && c.started
      && c.st == .running && !c.closing)
    && (c.filt == none && c.pack == [] && c.unpack == [] && c.ready == [] && c.outBits == (0, 0) && c.notice == none && c.skipTo == 0
      && decide (c.cursor < c.count)) && (kindEvent c.seq c.kind).isSome) = true := by decide +kernel
  intro c hc
  have := List.all_eq_true.mp h c hc
  rw [Bool.and_eq_true, Bool.and_eq_true] at this
  exact ⟨running_of this.1.1, clear_of this.1.2, this.2⟩
-- What the clauses ask of endpoints, elements, FIFOs and links.
theorem test_mover_clauses :
    let c := moving 1 (tileEp 0) xiEp
    let s := streaming c
    c.ep1 = 3 * 2 ^ 60 + 8 + 0 ∧ s.core.xi[0].length < 16 ∧ epType c.ep0 = 1 ∧ inShare 32 (c.enumerate (epOff c.ep0) 0) = true
    ∧ touchesBad s.me.badWords (shareBytes 32 0) = false ∧ c.efmt.width = 32 ∧ (∀ k, k < 32 → bitAt s.me.store (32 * 0 + k) = (0 : Nat).testBit k)
    ∧ (moving 2 xoEp (tileEp 0)).ep0 = 3 * 2 ^ 60 + 12 + 0 ∧ s.core.xo[0] = [9] ∧ s.core.jnl = false
    ∧ (aget ({} : IndexLink) ((moving 3 (tileEp 0) xiEp).link.getD 0) s.me.eng.links).vals[0]? = some 5
    ∧ epType (moving 6 noneEp (tileEp 0)).ep0 = 7 ∧ epType (moving 0x0F (tileEp 0) 0x2000000000000005).ep1 = 2 := by decide +kernel
theorem test_satm_element : (⟨true, true, true, false, 0, [⟨true, false, 0, 0x10000, 65536⟩]⟩ : Region).place true 32 0
    = .at [0x10000, 0x10001, 0x10002, 0x10003] := by decide +kernel
theorem test_saff_delivers : answers (exec (.saffCommand 0) (with0 { slot with
      store := writeLE [] 0 4 0xFFFFFFFE
      eng := { flying := [moving 1 (tileEp 0) xiEp] } }))
    (fun t => t.core.xi[0] == [0xFFFFFFFFFFFFFFFE] && ((t.cmdAt 0 0).map (·.cursor)) == some 1) = true := by decide +kernel
-- Obligations.CommandsLeaveTheStreamQueue: 255 in flight and 256; a good command, and ones of VER 2 and KIND 0 and 0x11.
def queued (n : Nat) (c : Cmd) : State := with0 { slot with eng := { queue := [c], flying := List.replicate n (cmd []) } }
theorem test_dequeue_hypotheses : (queued 255 (moving 1 (tileEp 0) xiEp)).me.eng.queue = [moving 1 (tileEp 0) xiEp]
    ∧ (queued 255 (cmd [])).me.eng.flying.length < 256 ∧ 256 ≤ (queued 256 (cmd [])).me.eng.flying.length
    ∧ (queued 255 (cmd [])).me.stage = .running ∧ (cmd [(0, 0x201)]).ver ≠ 1 ∧ (cmd [(0, 0x100)]).ver = 1 ∧ (cmd [(0, 0x100)]).kind = 0
    ∧ 0x10 < (cmd [(0, 0x111)]).kind ∧ run.rejects 0 (cmd [(0, 0x111)]) = some ⟨0x0F, 2, (cmd [(0, 0x111)]).formatVal 2⟩ := by decide +kernel
theorem test_good_command_is_accepted : run.rejects 0
    (cmd [(0, 0x101), (1, BitVec.ofNat 64 (4 ^ 3 + 4 ^ 4 + 4 ^ 5 + 4 ^ 9)), (4, tileEp 0), (5, xiEp), (6, 0x100000004), (10, 0x0A)]) = none := by
  decide +kernel
-- Obligations.StreamCommandsStart: its waits met and not; a stamp to come, reached, and past.
def starting (stamp : Option Word) (late : Bool) : Cmd :=
  { cmd [(0, BitVec.ofNat 64 (0x101 + if late then 2 ^ 16 else 0)),
      (1, BitVec.ofNat 64 (1 + 4 ^ 3 + 4 ^ 4 + 4 ^ 9 + if stamp.isSome then 16 else 0)), (2, 1), (3, stamp.getD 0), (4, tileEp 0), (5, xiEp),
      (10, 0x1000A)] with
    st := .waiting }
def started (n : Nat) (e : BitVec 16) (c : Cmd) : State :=
  { with0 { slot with
      core := { slot.core with ereg := Vector.replicate 32 e }
      eng := { flying := [c] } } with stc := n }
theorem test_start_hypotheses : ∀ late ∈ [false, true],
    let c := starting none late
    let d := starting (some 5) late
    kindEvent c.seq c.kind = some (.saffCommand 0) ∧ (started 0 1 c).cmdAt 0 0 = some c ∧ c.stamp = none ∧ c.waitMask = 1
    ∧ (started 0 1 c).me.eng.holdsSides 0 c = true ∧ (started 0 1 c).core.waitsMet c.waitMask = true
    ∧ (started 0 0 c).core.waitsMet c.waitMask = false ∧ d.stamp = some 5 ∧ d.lateBit = late ∧ (started 5 1 d).stampOf 0 5 = 5
    ∧ (started 4 1 d).stc < (started 4 1 d).stampOf 0 5 ∧ (started 6 1 d).stampOf 0 5 < (started 6 1 d).stc
    ∧ (started 5 1 d).sourceReady 0 { d with waited := true } = true := by decide +kernel
theorem test_schedule_miss : answers (exec (.startStampReached 0) (started 6 1 (starting (some 5) false)))
    (fun t => t.cmdAt 0 0 == none || ((t.cmdAt 0 0).map (·.cause)) == some 0x0A) = true := by decide +kernel
-- Obligations.LoopsBarriersTapsAndTokens: an SREC with a free input port and a token at its output, SBAR, STAP, STOK.
def plain (op : Nat) : BSlot := ⟨0, false, false, 63, 0, 0, 0, 127, 0, 127, 0, false, op⟩
def block1 (op : Nat) (ports : List PortEntry) : Block := ⟨0, 7, true, [plain op], [0x0A0A0A], ports, { pes := [0] }⟩
def io : List PortEntry := [⟨false, 5, 0, 0, 0, 0⟩, ⟨true, 3, 0, 0, 0, 0⟩]
def region (q : Quad) : State := with0 { slot with quad := q }
def inRun (op : Nat) (ports : List PortEntry) : Quad := { Quad.load (block1 op ports) 0 with st := .run }
def loop (held : List (Nat × Tok)) (n : Nat) : Cmd :=
  { cmd [(0, 0x105), (1, BitVec.ofNat 64 (4 ^ 3 + 4 ^ 4 + 4 ^ 5 + 4 ^ 9 + 4 ^ 10)), (4, 0x2000000000000003), (5, 0x2000000000000005),
      (6, 0x100000004), (10, 0x1000A), (11, 1)] with
    st := .running
    started := true
    held := held
    sent := n }
def looping (c : Cmd) (out : List (Tok × Bool)) : State :=
  with0 { slot with
    quad := { inRun 0x01 io with outPorts := [(3, out)] }
    eng := { flying := [c] } }
theorem test_loop_hypotheses : (looping (loop [] 0) []).Running (loop [] 0)
    ∧ (looping (loop [] 1) [(⟨9, 0, false, false⟩, false)]).Running (loop [] 1) :=
  ⟨running_of (by decide +kernel), running_of (by decide +kernel)⟩
theorem test_loop_clauses :
    let s := looping (loop [] 1) [(⟨9, 0, false, false⟩, false)]
    let c := loop [] 1
    c.kind = 5 ∧ epType c.ep1 = 2 ∧ s.me.quad.portRoom (epPort c.ep1) = true ∧ s.me.quad.mapsIn (epPort c.ep1) = true
    ∧ s.me.quad.inPlane (epPort c.ep1) = epCpl c.ep1 ∧ c.cursor < c.loopTotal ∧ (loop [] 0).sent < (loop [] 0).initial ∧ c.initial ≤ c.sent
    ∧ s.me.quad.outPort (epPort c.ep0) = [(⟨9, 0, false, false⟩, false)] ∧ s.me.quad.mapsOut (epPort c.ep0) = true
    ∧ s.me.quad.outPlane (epPort c.ep0) = epCpl c.ep0 ∧ 0 < (loop [(0, ⟨9, 0, false, false⟩)] 1).count := by decide +kernel
theorem test_bar_tap_token_run : (streaming (moving 0x0C noneEp noneEp)).Running (moving 0x0C noneEp noneEp)
    ∧ (streaming (moving 0x0D noneEp noneEp)).Running (moving 0x0D noneEp noneEp)
    ∧ (streaming (moving 0x10 noneEp 0x4002001140000000)).Running (moving 0x10 noneEp 0x4002001140000000)
    ∧ (streaming (moving 0x0E noneEp noneEp)).Running (moving 0x0E noneEp noneEp) :=
  ⟨running_of (by decide +kernel), running_of (by decide +kernel), running_of (by decide +kernel), running_of (by decide +kernel)⟩
theorem test_bar_tap_token_clauses :
    let b := moving 0x0C noneEp noneEp
    let w := { moving 2 xoEp (tileEp 0) with seq := 0xFFFF }
    let t := moving 0x0D noneEp noneEp
    let k := moving 0x10 noneEp 0x4002001140000000
    (streaming b).me.eng.barred b = false ∧ (with0 { slot with eng := { flying := [w, b] } }).me.eng.barred b = true ∧ t.link = some 3 ∧ t.fin = false
    ∧ epType k.ep1 = 4 ∧ epOwn k.ep1 = true ∧ epRemotePort k.ep1 < 48 ∧ (streaming k).remoteRoom (epCtx k.ep1) (epRemotePort k.ep1) = true
    ∧ ((streaming k).slotAt (epCtx k.ep1)).quad.mapsIn (epRemotePort k.ep1) = false
    ∧ (with0 { slot with eng := { flying := [t, { cmd [] with seq := 3 }] } }).me.eng.taps.length = 0 := by decide +kernel
-- Obligations.RetirementAndArrival: a complete command; a token for a running slot and for a lender.
def overCmd : Cmd := { moving 1 (tileEp 0) xiEp with cursor := 4, lemSent := true }
def arriving (saved : Bool) : State :=
  { run with
    remotes := [⟨4096, 0, 0, 60, false, ⟨9, 0, false, false⟩, some 4, none⟩]
    dies := if saved then [{ queues := [[{ task := task, saved := some slot, left := 0 }], [], [], []] }, {}, {}, {}] else run.dies }
theorem test_retire_hypotheses : (streaming overCmd).cmdAt 0 0 = some overCmd ∧ (streaming overCmd).complete 0 overCmd = true
    ∧ (streaming overCmd).buffered 0 0 = false ∧ overCmd.onPort 0 = false ∧ (streaming overCmd).core.sts.length < 32 := by decide +kernel
theorem test_arrival_hypotheses : (arriving false).firstOf 0 ⟨4096, 0, 0, 60, false, ⟨9, 0, false, false⟩, some 4, none⟩ = true
    ∧ (arriving false).lender 0 = none ∧ ((arriving false).slotAt 0).runs = true ∧ ((arriving false).slotAt 0).core.xi[0].length < 16
    ∧ (arriving true).lender 0 = some 5 := by decide +kernel
theorem test_token_arrives : answers (exec (.remoteTokenArrival 0) (arriving false)) (fun t => t.core.xi[0] == [9] && t.core.ereg[4] == 1
    && t.remotes == []) = true := by decide +kernel
/-! ### The sward -/

def outOnly : List PortEntry := [⟨true, 3, 0, 0, 63, 0⟩]
def tok (pay : Nat) : Tok := ⟨pay, 0, false, false⟩
/-- A region of one slot with tokens in its operand buffers. -/
def holding (op : Nat) (a b : List Tok) : Quad := { inRun op outOnly with bufs := [(0, a), (1, b)] }
-- Obligations.SwardPortsAndBuffers: the last place of a port, a bare marker at its head, and a result that is due.
def portState (ip : InPort) (links : List Transit) : State := region { inRun 0x01 io with inPorts := [(5, ip)], links := links }
theorem test_port_hypotheses :
    let s := portState { q := List.replicate 7 (tok 1), incoming := [⟨0, tok 2, (0, 0), 1, false⟩], pr := 15 } []
    let m := portState { q := [⟨0, 0, true, true⟩] } []
    let q := (portState {} [⟨0, .buf 1, tok 3, 0, false⟩, ⟨0, .out 3, tok 4, 0, false⟩]).quadNow 0
    ((s.quadNow 0).port 5).incoming = [⟨0, tok 2, (0, 0), 1, false⟩] ∧ ((s.quadNow 0).port 5).q.length < 8 ∧ (s.quadNow 0).frozen = false
    ∧ ((m.quadNow 0).port 5).q = [⟨0, 0, true, true⟩] ∧ q.links[0]? = some ⟨0, .buf 1, tok 3, 0, false⟩
    ∧ q.overtaken 0 ⟨0, .buf 1, tok 3, 0, false⟩ = false ∧ (q.buf 1).length < q.capacity (.buf 1)
    ∧ q.links[1]? = some ⟨0, .out 3, tok 4, 0, false⟩ ∧ q.overtaken 1 ⟨0, .out 3, tok 4, 0, false⟩ = false ∧ (q.outPort 3).length < 8 := by
  decide +kernel
theorem test_marker_advances_the_round : answers (exec (.portTokenEntry 5) (portState { incoming := [⟨0, ⟨0, 0, false, true⟩, (0, 0), 0, false⟩], pr := 15 } []))
    (fun t => (t.me.quad.port 5).pr == 16 && (t.me.quad.port 5).q == [⟨0, 15, false, true⟩]) = true := by decide +kernel
-- Obligations.SwardFirings: a group with both operands, one with the markers of a round, and a matrix step.
theorem test_firing_hypotheses :
    let q := (holding 0x01 [tok 1] [tok 2]).settleBefore 0
    q.members 63 = [0] ∧ q.groupPicks (q.members 63) = some [(0, 0, 1), (0, 1, 1)] ∧ q.groupBusy 63 = false ∧ q.queuesFree 63 = true
    ∧ q.live = true ∧ (q.fireValue 0 63).isSome = true := by decide +kernel
theorem test_marker_firing_hypotheses :
    let q := (holding 0x01 [⟨0, 0, false, true⟩] [⟨0, 0, false, true⟩]).settleBefore 0
    q.markerKeys 63 = [(0, 0), (0, 1)] ∧ (∀ k ∈ q.markerKeys 63, q.headTok k.1 k.2 = some ⟨0, 0, false, true⟩) ∧ q.groupBusy 63 = false
    ∧ q.queuesFree 63 = true ∧ q.live = true ∧ 0 < q.cuts + 2 ∧ (q.fireMarker 0 63).isSome = true := by decide +kernel
def throughSlot : Quad :=
  let b : Block := { block1 0x39 outOnly with slots := [{ plain 0x39 with mt := true }] }
  { Quad.load b 0 with
    st := .run
    ops := [{ passed := [(0, [0])] }]
    bufs := [(1, [⟨0, 0, false, true⟩])] }
theorem test_marker_through_hypotheses :
    let q := (region throughSlot).quadNow 0
    q.headTok 0 1 = some ⟨0, 0, false, true⟩ ∧ (q.slot 0).mt = true ∧ q.live = true ∧ 1 ∈ q.waited 0 ∧ (q.op 0).hasPassed 0 1 = true
    ∧ q.portOf 0 1 = none ∧ (q.op 0).hasPassed 1 1 = false ∧ 0 < q.cuts + 2 := by decide +kernel
def matrix (op : Nat) (p : MatStep) : Quad := { holding op [] [tok 7] with ops := [{ OpState.atCfg (plain op) 0x0A0A0A with step := some p }] }
theorem test_matrix_hypotheses :
    let q := (region (matrix 0x21 ⟨0, [], [], [], [], none, 1, none, 0⟩)).quadNow 0
    let r := ({ region (matrix 0x20 ⟨0, [], [], [], [], none, 2, some 1, 0⟩) with stc := 2 }).me.quad
    ((q.op 0).step.map (·.phase)) = some 1 ∧ ((q.op 0).step.bind (·.land)) = none ∧ ((q.op 0).step.map (·.nextAt)) = some 0 ∧ (q.slot 0).op = 0x21 ∧ q.frozen = false
    ∧ q.headValue 0 1 = some (tok 7) ∧ 0 < q.ops.length ∧ ((r.op 0).step.bind (·.land)) = some 1 ∧ (r.slot 0).op = 0x20 := by decide +kernel
def emitting : Quad := { inRun 0x48 outOnly with ops := [{ queue := [⟨tok 9, 0, false⟩] }] }
theorem test_emit_hypotheses :
    let q := (region emitting).quadNow 0
    (q.op 0).run = none ∧ (q.op 0).queue = [⟨tok 9, 0, false⟩] ∧ (q.op 0).emitFrom ≤ 0 ∧ q.frozen = false ∧ 0 < q.ops.length
    ∧ answers (exec (.irregularEmit 0) (region emitting)) (fun t => (t.me.quad.op 0).queue == []) = true := by decide +kernel
-- Obligations.LaneOperators: a configuration word of INT32, the last lane, and the runs of a loop header.
theorem test_lane_hypotheses : CfgWord.inf 0x0A000A00 = .int32 ∧ CfgWord.of 0x0A000A00 = .int32
    ∧ elementwise (plain 0x01) 0x0A000A00 (2 ^ 31 * 2 ^ 480) (2 ^ 31 * 2 ^ 480) 0 / 2 ^ 480 % 2 ^ 32 = 2 ^ 31
    ∧ Quad.runNext ⟨0, 3, 3, 1, false, 2, false, 0, false⟩ = (2 ^ 63 + 2, none)
    ∧ (Quad.runNext ⟨0, 2, 3, 1, false, 2, false, 0, false⟩).1 = 2 := by decide +kernel

/-! ### The array, chain and encode engines -/

/-- A command of an engine, as it waits in its lane: KIND, AUX0 and AUX1, answering with DONE. -/
def lane (kind aux0 aux1 : Nat) : Cmd :=
  { queuedCmd (engineRecord kind 0 [(10, BitVec.ofNat 64 aux0), (11, BitVec.ofNat 64 aux1)]) 0 2 (some (kindEng kind)) with st := .waiting }
def array (c : Cmd) (q : Quad) : State := with0 { slot with array := some c, quad := q }
def chaining (c : Cmd) : State := with0 { slot with core := { slot.core with arenabound := 64 }, chain := { cmd := some c } }
def encoding (c : Cmd) (h : Channel) : State := with0 { slot with channels := [{ h with cmd := some c }, {}, {}, {}] }
theorem laneReady_of {s : State} {n : Nat} {c : Cmd} (h : (s.me.lane n == some c && s.me.stage == .running && c.st == .waiting && !c.started
    && !c.waited && !c.acted && !s.me.countDue s.cur c ((s.me.eng.flying ++ s.me.laneCmds).filter (·.leftFirst c))
    && s.core.waitsMet c.waitMask && c.stamp == none && !c.late && !s.core.countedNow (s.acStart s.cur) c.signalMask) = true) : s.LaneReady n c := by
  simp only [Bool.and_eq_true, beq_iff_eq, Bool.not_eq_true'] at h
  exact ⟨h.1.1.1.1.1.1.1.1.1.1, h.1.1.1.1.1.1.1.1.1.2, h.1.1.1.1.1.1.1.1.2, h.1.1.1.1.1.1.1.2, h.1.1.1.1.1.1.2, h.1.1.1.1.1.2,
    h.1.1.1.1.2, h.1.1.1.2, h.1.1.2, h.1.2, h.2⟩
theorem test_lanes_are_ready : (array (lane 0x41 0 0) (inRun 0x01 io)).LaneReady 0 (lane 0x41 0 0)
    ∧ (chaining (lane 0x48 0 1)).LaneReady 1 (lane 0x48 0 1) ∧ (encoding (lane 0x82 0 0) {}).LaneReady 2 (lane 0x82 0 0) :=
  ⟨laneReady_of (by decide +kernel), laneReady_of (by decide +kernel), laneReady_of (by decide +kernel)⟩
theorem test_array_clauses :
    let s := array (lane 0x44 0x20 0) (inRun 0x01 io)
    let q := s.quadNow 0
    s.core.sts.length < 32 ∧ (lane 0x40 0 0).kind = 0x40 ∧ s.cfgCode 0 0 ≠ none ∧ (lane 0x42 0 0).kind = 0x42 ∧ s.me.quad.st = .run
    ∧ (array (lane 0x42 0 0) (Quad.load (block1 1 io) 0)).me.quad.st = .loaded ∧ (lane 0x43 1 0).aux0.testBit 0 = true
    ∧ (lane 0x43 0 0).aux0.testBit 0 = false ∧ (lane 0x44 0x20 0).aux0 = 2 ^ 5 ∧ q.mapsIn 5 = true
    ∧ (q.port 5).q.length + (q.port 5).incoming.length < 8 ∧ (lane 0x45 47 0).aux0 < 48 ∧ q.quiescent (s.acOf 0) = false
    ∧ ({ q with rested := [(1, 8)] } : Quad).quiescent 8 = true ∧ ({ q with rested := [(1, 8)] } : Quad).quiescent 12 = true
    ∧ ({ q with rested := [(1, 8)] } : Quad).quiescent 13 = false := by
  decide +kernel
/-- A block of one slot at offset 0 of the arena, which the slot's list has as usable. -/
def listedOk : State :=
  { with0 { slot with
      array := some (lane 0x40 0 0)
      blocks := [⟨0, 0, none, some { pes := [0] }⟩]
      core := { slot.core with arenabound := 64 } } with
    mem := writeLE (writeLE [] 0 8 0x101B7) 8 8 (crc32c [0, 0, 0, 0, 0, 0, 0, 0] * 2 ^ 32) }
theorem test_crc32c : crc32c [0x31, 0x32, 0x33, 0x34, 0x35, 0x36, 0x37, 0x38, 0x39] = 0xE3069283 := by decide +kernel
theorem test_cfg_hypotheses : listedOk.cfgCode 0 (lane 0x40 0 0).aux0 = none ∧ listedOk.me.quad.st ≠ .draining
    ∧ (∀ e ∈ (listedOk.quadNow 0).inPorts, e.2.incoming = [])
    ∧ answers (exec .cfg listedOk) (fun t => t.me.quad.st == .loaded) = true := by decide +kernel
theorem test_drained_hypotheses :
    let c := { lane 0x42 0 0 with started := true, st := .running }
    let s : State := { array c { Quad.load (block1 1 io) 0 with st := .draining, rested := [(1, 64)] } with stc := 64 }
    s.me.array = some c ∧ c.started = true ∧ c.late = false ∧ (s.quadNow 0).quiescent (s.acOf 0) = true
    ∧ (s.quadNow 0).st = .draining ∧ (s.quadNow 0).resting (s.acOf 0) = true ∧ (s.quadNow 0).stepsDone = true
    ∧ answers (exec .regionDrained s) (fun t => t.me.quad.st == .drained) = true := by decide +kernel
theorem test_engine_dequeue_hypotheses :
    let s := with0 { slot with queueA := [lane 0x43 1 0] }
    s.me.queueA = [lane 0x43 1 0] ∧ (lane 0x43 1 0).lane = some 0 ∧ s.me.lane 0 = none
    ∧ (s.setMe fun l => { l with queueA := [] }).engineRejects 0 (queuedCmd (engineRecord 0x43 0 [(10, 1)]) 0 2 (some 0)) false = none := by decide +kernel
-- Obligations.ChainEngine: an ORD of the last place, a CRUN, a step of one element, and both boundary transfers.
theorem test_chain_clauses :
    let s := chaining (lane 0x49 0 0)
    (lane 0x48 0 (1 + 31 * 2 ^ 16)).aux1 = 1 + 31 * 2 ^ 16 ∧ 0 + 16 * 1 ≤ s.core.arenabound.toNat ∧ s.me.chain.prog.length = 32
    ∧ (lane 0x49 0 0).cursorW = 0 ∧ s.core.jnl = false ∧ (lane 0x4A 64 0).aux0 + s.me.chain.bnd.image.length ≤ 524288
    ∧ s.me.badWords = [] ∧ readLE (writeLE (writeLE [] 64 8 (1 + 2 ^ 32)) 72 8 1) 64 8 = 1 + 1 * 2 ^ 32
    ∧ readLE (writeLE (writeLE [] 64 8 (1 + 2 ^ 32)) 72 8 1) 80 48 = 0 := by decide +kernel
/-- CRUN with extents of 0, which fails its first check, and traps. -/
def badRun : Cmd := { lane 0x49 0 0 with raw := (lane 0x49 0 0).raw.set 0 0x20149 }
theorem test_crun_is_bad : badRun.kind = 0x49 ∧ badRun.runBad.isSome = true ∧ badRun.trapf = true ∧ badRun.bound = false
    ∧ (chaining badRun).me.lane 1 = some badRun
    ∧ answers (exec .crun (chaining badRun)) (fun t => t.core.pend.length == 1 && t.me.chain.bnd == ⟨1, 1, 1, [0x3F800000]⟩) = true := by
  decide +kernel
theorem test_crun_is_good : (queuedCmd (engineRecord 0x49 0 ((List.range 4).map (fun k => (5 + k, 0x10001)) ++ [(10, 0x100)])) 0 2
    (some 1)).runBad = none := by decide +kernel
-- Obligations.EncodeChannels: the last byte of a coded frame, and a block that breaks R453.
theorem test_encode_clauses : (encoding (lane 0x80 0 0) {}).me.channels.length = 4
    ∧ (encoding (lane 0x80 0 0) {}).me.blockBad (lane 0x80 0 0).aux1 = none
    ∧ paramsOk ((encoding (lane 0x80 0 0) {}).me.block128 (lane 0x80 0 0).aux1) = false ∧ (lane 0x82 0 0).kind = 0x82
    ∧ (encoding (lane 0x81 0 0) { engine := some 0 }).me.channels[0]? = some ⟨some (lane 0x81 0 0), some 0, [], []⟩ := by decide +kernel

/-! ### Homes, fault service, queues and dispatch -/

-- Obligations.HomesAndLocks: an update without a round, one of round 0 before and after its cut, and touches by four tasks.
def update (round : Option Nat) : Update := ⟨0, 0, 0, .phys 0x10000, 0, 0, 0, 0x0A, 1, 0, false, false, 5, false, round⟩
def homing (round : Option Nat) (cuts : Nat) : State :=
  { with0 { slot with quad := { cuts := cuts, cutTold := false } } with
    updates := [update round]
    buffers := [update (some 0)] }
theorem test_update_hypotheses : ∀ r ∈ [none, some 0], (homing r 0).updates[0]? = some (update r)
    ∧ (homing r 0).firstUpdate 0 (update r) = true ∧ (homing r 0).badLoc (update r) = false ∧ (homing r 0).bufferFull (update r) = false
    ∧ ((homing r 0).slotAt 0).quad.cuts ≤ 0 := by decide +kernel
theorem test_round_hypotheses : (homing none 1).buffers = [update (some 0)] ∧ (update (some 0)).ctx = (homing none 1).cur
    ∧ 0 < (homing none 1).me.quad.cuts ∧ (homing none 1).me.quad.cutTold = false ∧ (homing none 1).me.eng.delayed = [] := by decide +kernel
theorem test_rmw_adds : answers (exec (.homeRmwApply 0) (homing none 0)) (fun t => readLE t.mem 0x10000 4 == 5) = true
    ∧ answers (exec (.homeRmwApply 0) (homing (some 0) 0)) (fun t => readLE t.mem 0x10000 4 == 0) = true := by decide +kernel
/-- The slot, with the age of its task in AGE. -/
def aged : Slot := { slot with core := { slot.core with age := 5 } }
def touching (locks : List Lock) : State :=
  { with0 aged with
    touches := [⟨0, 5, 3, 0x10000, 12⟩]
    locks := locks
    wounds := [⟨0, 5, 2, false, 0⟩]
    stc := 1 }
def lockBy (age : Word) : Lock := { addr := 0x10000, log2g := 12, holder := some (age, 4) }
theorem test_touch_hypotheses : ((touching []).slotAt 0).age = 5 ∧ (touching []).lockAt 0x10000 12 = none
    ∧ (touching [lockBy 9]).lockAt 0x10000 12 = some (lockBy 9) ∧ (9 : Word) ≠ 5 ∧ older 5 9 = true ∧ older 5 3 = false
    ∧ (touching [lockBy 5]).lockAt 0x10000 12 = some (lockBy 5) ∧ ((touching []).locks.filter fun l => homeOf l.addr == homeOf 0x10000).length < 8192 := by
  decide +kernel
def committing : State := { with0 { aged with core := { aged.core with commit := true } } with
  wounds := [⟨0, 5, 2, false, 0⟩]
  stc := 1 }
theorem test_wound_hypotheses : (touching []).slotOf 5 = some 0 ∧ committing.slotOf 5 = some 0 ∧ (committing.slotAt 0).core.commit = true
    ∧ ((touching []).slotAt 0).core.commit = false ∧ ((touching []).slotAt 0).task = some task
    ∧ task.pkt.cls < ((touching []).die 0).queues.length := by decide +kernel
theorem test_wound_restarts : answers (exec (.wound 0) (touching [])) (fun t => (t.slotAt 0).stage == .free
    && (t.die 0).queues.map (·.map (·.task.restarts)) == [[1], [], [], []]) = true := by decide +kernel
-- Obligations.FaultService: a withheld SAFF whose region 0 has an absent extent of two 64 KiB pages, with a page table or none.
def notice : Notice := ⟨0, 0x4000, 32, false, 0⟩
def withheld : Cmd := { moving 1 0 xiEp with st := .withheld, notice := some notice }
def absent : Region := ⟨true, true, true, false, 0, [⟨false, false, 0, 0, 131072⟩]⟩
/-- Page tables at 0x40000 for address space 0: the page of virtual address 0x10000 is at 0x100000. -/
def tables : List Host.Cell :=
  writeLE (writeLE (writeLE (writeLE (writeLE [] 0x40000 8 (2 ^ 63 + 0x50000)) 0x50000 8 (2 ^ 63 + 0x60000)) 0x60000 8 (2 ^ 63 + 0x70000))
    0x70000 8 (2 ^ 63 + 0x80000)) 0x80008 8 (2 ^ 63 + 2 ^ 62 + 2 ^ 61 + 0x100000)
def serving (mapped : Bool) (p : List Patch) (stc : Nat) (sup : Bool) : State :=
  { with0 { aged with
      core := { aged.core with sup := sup }
      regions := absent :: List.replicate 15 {}
      eng := { flying := [withheld] } } with
    stc := stc
    mem := if mapped then tables else []
    roots := if mapped then [(0, 0x40000)] else []
    notices := [⟨5, 0, 0⟩]
    patches := p }
theorem test_service_hypotheses : (serving true [] 0 false).slotOf 5 = some 0
    ∧ ((serving true [] 0 false).slotAt 0).noticeOf ⟨5, 0, 0⟩ = some notice
    ∧ (serving true [] 0 false).repair 0 {} absent notice
      = .patch 0 131072 [⟨false, false, 0, 0, 65536⟩, ⟨true, true, 0, 0x100000, 65536⟩]
    ∧ (serving false [] 0 false).repair 0 {} absent notice = .fatal 0x20
    ∧ (serving false [] 0 false).repair 0 {} absent ⟨0, 0x8000, 32, true, 0⟩ = .fatal 0x21
    ∧ (serving false [] 0 false).cmdAt 0 0 = some withheld ∧ withheld.trapf = false ∧ (serving false [] 0 false).invalids = [] := by
  decide +kernel
theorem test_fatal_traps : (with0 { slot with
      regions := absent :: List.replicate 15 {}
      eng := { flying := [{ withheld with raw := withheld.raw.set 0 (0x101 + 2 ^ 17) }] } }).cmdAt 0 0
    = some { withheld with raw := withheld.raw.set 0 (0x101 + 2 ^ 17) } := by decide +kernel
def patch (down : Bool) : Patch := ⟨5, 0, 0, 131072, [⟨true, true, 0, 0x100000, 131072⟩], down, none⟩
theorem test_patch_hypotheses : ∀ d ∈ [false, true], (serving false [patch d] 0 false).patches[0]? = some (patch d)
    ∧ ((serving false [patch d] 0 false).patches.take 0).all (fun x => x.age != (patch d).age) = true
    ∧ (serving false [patch d] 0 false).accessBelow 0 (patch d) = false := by decide +kernel
theorem test_overdue_hypotheses : (serving false [] 200000 false).me.stage = .running ∧ (serving false [] 200000 false).overdue 0 = some (0, 0)
    ∧ (serving false [] 199999 false).overdue 0 = none ∧ (serving false [] 200000 true).core.sup = true
    ∧ (serving false [] 200000 true).overdue 0 = some (0, 0) ∧ (serving false [] 200000 true).me.drainHeld = false := by decide +kernel
def moved (sent : Bool) : Invalid := { id := 0, old := 0x100000, size := 65536, new := some 0x120000, sent := sent }
def moving2 (sent : Bool) : State := { run with invalids := [moved sent], mem := [⟨0x100003, 7⟩] }
theorem test_invalidation_hypotheses : (moving2 false).invalids[0]? = some (moved false) ∧ (moving2 true).invalids[0]? = some (moved true)
    ∧ (∀ x ∈ (moving2 false).invalids, x.id = 0 → x = moved false) ∧ Memory.wf (moving2 true).mem = true
    ∧ (moving2 true).patches.all (fun p => p.inv != some 0) = true := by decide +kernel
theorem test_scrub_hypotheses : (region (inRun 1 io)).me.runs = true ∧ (inRun 1 io).st ≠ .empty ∧ (inRun 1 io).frozen = false
    ∧ (0 : Nat) ∉ (run.die 0).stations ∧ run.dies.length = 4 := by decide +kernel
/-- An arena at address 0 that holds one valid block (R37 to R50, R187): VABS in FP32 from input port 0 to output port 0. -/
def arena : List Host.Cell :=
  let slots := writeLE (writeLE [] 0 8 0x101B7) 16 8 (7 + 127 * 2 ^ 16 + 2 ^ 34)
  let crc := crc32c ((List.range 8).map fun k => (7 + 127 * 2 ^ 16 + 2 ^ 34) / 256 ^ k % 256)
  let ports := writeLE (writeLE (writeLE slots 8 8 (24 + crc * 2 ^ 32)) 24 8 2) 36 4 0x80000000
  writeLE (writeLE ports 48 8 1) 64 8 0x01000100
def frozenRegion : State :=
  { with0 { slot with
      task := some { task with pkt := { cfgtab := 48 } }
      quad := { inRun 1 io with
        frozen := true
        copy := some ⟨0, 0, false, [], [], [], { pes := [0] }⟩ }
      core := { slot.core with arenabound := 2048 } } with mem := arena }
theorem test_a_block_is_valid : blockCheck (frozenRegion.arenaByte 0) 2048 48 0 = none := by decide +kernel
theorem test_reload_hypotheses : (frozenRegion.arenaCopy 0).isSome = true := by decide +kernel
-- Obligations.QueuesAndRegisters: a queue that is in and one that is out, its ring at 0x10000, with a good packet and a bad one.
def hosting (inn : Bool) (ver : Nat) : State :=
  { run with
    hostQueues := [(3, { ring := 0x10000, inn := inn, tail := 1 })]
    mem := if ver = 0 then [] else writeLE [] 0x10000 8 0 }
theorem test_queue_hypotheses : ((hosting true 0).hostQueue 3).inn = true ∧ ((hosting false 0).hostQueue 3).inn = false
    ∧ ((hosting false 0).hostQueues.filter fun x => x.2.inn).length < 64 ∧ ((hosting true 0).hostQueue 3).err = false
    ∧ backedRun 0x10000 256 = true ∧ (hosting true 0).servedRun 0x10000 256 = true ∧ ((hosting true 0).die 0).stage ≠ 0
    ∧ (((hosting true 0).setHost 3 fun h => { h with head := 1 }).packetRefused ((hosting true 0).memWords 0x10000 32)).isSome = true := by
  decide +kernel
def enq : Enq := ⟨[0, 0, 0, 0, 0, 0, 0, 0], 257, none, false, none⟩
def enqueued : State := { run with enqs := [enq], enqQueues := [(257, { accept := 1 })] }
theorem test_arrivals_hypotheses : enqueued.enqs[0]? = some enq ∧ enq.words ≠ [] ∧ enqueued.queueAnswer 257 false = 0
    ∧ (aget [] 512 run.rackQueues).length < 64 ∧ 64 ≤ (aget [] 543 ({ run with rackQueues := [(543, List.replicate 64 0)] } : State).rackQueues).length
    ∧ ({ run with increments := [31] } : State).lender 0 = none ∧ (run.slotAt 0).runs = true ∧ (31 : Word).toNat % 32 = 31 := by decide +kernel
theorem test_limits_at_their_ends : answers (exec (.registerWrite 4 (2 ^ 32 - 1)) run) (fun t => t.gatingLimit == 2 ^ 32 - 1) = true
    ∧ answers (exec (.registerWrite 4 (2 ^ 32)) run) (fun t => t.gatingLimit == 20000) = true := by decide +kernel
def holdingSession : State := { run with sessions := [⟨7, 65536, [⟨true, false, 0, 2 ^ 40, 65536⟩]⟩] }
theorem test_session_hypotheses : (holdingSession.sessions.any fun x => x.sid == 7) = true
    ∧ (holdingSession.records.all fun x => !x.2.decl.names 7) = true ∧ (holdingSession.savedTasks.all fun w => !w.task.decl.names 7) = true := by
  decide +kernel
-- Obligations.FromRecordToTask: a record of two tasks; its front task; binding and bound slots; a deadline; a victim.
def record : Record := { pkt := { dims := [2, 1, 1, 1], cls := 1 }, decl := {} }
def resident : State := { run with records := [(1, record)], last := 1 }
theorem test_batch_hypotheses : leastBy resident.recordKey (resident.records.filter fun x => resident.eligible x.2) = some (1, record)
    ∧ (leastBy (resident.dieKey record) (resident.diesFor record)).isSome = true := by decide +kernel
def waiting : Waiting := { task := { task with age := 6, pkt := { cls := 1 } }, left := 0 }
def queueing (slots : List (Nat × Slot)) : State :=
  { run with
    slots := slots
    dies := [{ stage := 2, queues := [[], [waiting], [], []] }, { stage := 2 }, { stage := 2 }, { stage := 2 }] }
theorem test_dispatch_hypotheses : ((queueing [(0, slot)]).die 0).front = some waiting ∧ waiting.saved = none
    ∧ ((queueing [(0, slot)]).chooseSlot 0 waiting).isSome = true := by decide +kernel
def entering (stage : Stage) (deadline stc : Nat) : State :=
  { with0 { slot with stage := stage, task := some { task with pkt := { deadline := deadline, startv := true, start := 4 } }
                      core := { slot.core with deadline := BitVec.ofNat 64 deadline } } with stc := stc }
theorem test_entry_hypotheses : (entering .bound 5 4).me.stage = .bound ∧ (entering .bound 5 4).stampOf 0 4 ≤ 4
    ∧ (entering .running 5 5).me.runs = true ∧ (entering .running 5 5).core.dued = false ∧ (entering .running 5 5).core.deadline.toNat ≤ 5
    ∧ 4 < (entering .running 5 4).core.deadline.toNat ∧ (entering .binding 5 4).me.stage = .binding := by decide +kernel
theorem test_bind_hypotheses : (((entering .binding 5 4).setMe fun l => { l with regions := List.replicate 16 {} }).formRegions 0 0 0
      task.decl.regions).map (·.cur) = some 0
    ∧ (match (entering .binding 5 4).entryQuad 0 task.pkt with | .ok q => q == {} | .error _ => false) = true := by decide +kernel
-- A bind that completed after START, and one that had completed before it.
theorem test_late_entry : answers (exec .taskEntry ((entering .bound 5 5).setMe fun l => { l with boundAt := 5 }))
      (fun t => t.core.pend == [⟨0x0A, 7, 4⟩, ⟨0x10, 7, 5⟩] && t.me.stage == .running) = true
    ∧ answers (exec .taskEntry (entering .bound 5 5)) (fun t => t.core.pend == [⟨0x10, 7, 5⟩]) = true := by decide +kernel
def lowly : Slot := { slot with task := some { task with pkt := { cls := 2 } } }
def fullDie : State := queueing ((run.freeCtxs 0).map fun c => (c, lowly))
theorem test_victim_hypotheses : fullDie.freeCtxs 0 = [] ∧ (victimOf (fullDie.victims 0 1)).isSome = true := by decide +kernel
-- Obligations.SavingAndRestoring: a request GRACE ago; a gated slot at rest and at its limit; a saved task at the front.
def requested (sup : Bool) : State :=
  { with0 { slot with core := { slot.core with sup := sup }, preq := some 0 } with stc := 2000 }
theorem test_gating_hypotheses : ∀ b ∈ [false, true], (requested b).me.stage = .running ∧ (requested b).core.commit = false
    ∧ (requested b).me.preq = some 0 ∧ 0 + (requested b).grace ≤ (requested b).acOf 0 ∧ (requested b).core.sup = b
    ∧ (requested b).me.gateHeld = false := by decide +kernel
def gatedAt (stc : Nat) : State := { with0 { slot with stage := .gating } with stc := stc }
theorem test_save_hypotheses : (gatedAt 0).gatedRest 0 = true ∧ (gatedAt 20000).stopped 0 = true
    ∧ (gatedAt 20000).me.gated + (gatedAt 20000).gatingLimit ≤ (gatedAt 20000).acOf 0 ∧ (gatedAt 0).buffers = []
    ∧ answers (exec .sourceGating (gatedAt 0)) (fun t => t.me.stage == .free && (t.die 0).queues.map List.length == [1, 0, 0, 0]) = true := by
  decide +kernel
def savedHere : State :=
  { run with
    slots := []
    dies := [{ stage := 2, queues := [[{ task := task, saved := some slot, left := 0 }], [], [], []] }, { stage := 2 }, { stage := 2 }, { stage := 2 }] }
theorem test_restore_hypotheses : (savedHere.die 0).front = some { task := task, saved := some slot, left := 0 } ∧ savedHere.restores 0 = true
    ∧ (savedHere.chooseSlot 0 { task := task, saved := some slot, left := 0 }).isSome = true
    ∧ (savedHere.formRegions 0 0 0 task.decl.regions).isSome = true ∧ (match savedHere.restoredQuad 0 slot.quad {} with | .ok q => q == slot.quad | .error _ => false) = true
    ∧ (savedHere.held.all fun h => h.1 != task.age) = true := by decide +kernel
theorem test_restore_runs_on : answers (exec .taskRestore savedHere) (fun t => t.slots.any fun x => x.2.stage == .running
    && x.2.core.path == slot.core.path) = true := by decide +kernel
-- Obligations.EndingATask: together, no sets, the last task of a record of a host queue and not the last; a pending cause.
def ending (tasks : Nat) (core : Core) : State :=
  { with0 { slot with core := { core with user := Path.allAt 8 } } with
    records := [(1, { pkt := { dims := [tasks, 1, 1, 1] }, decl := {}, host := some (3, 0) })]
    hostQueues := [(3, { ring := 0x10000 })] }
theorem test_end_hypotheses : ∀ n ∈ [1, 2], ((ending n {}).core.path.mayEnd && !(ending n {}).core.jnl && (ending n {}).commandsOver 0
    && ((ending n {}).records.all fun e => decide (e.2.pkt.tasks ≤ e.2.ended + 1) == decide (n = 1)) && !(ending n {}).me.missed) = true
    ∧ (ending n { jnl := true }).me.journalBad = false ∧ (ending n {}).core.ywait = none ∧ (ending n {}).core.bank = none
    ∧ (Instr.tend 1 true).trailReads.any (ending n {}).core.unlanded = false := by decide +kernel
theorem test_tend_writes_done : answers (exec (.tend 1 false) (ending 1 { core2 7 0 with sup := false })) (fun t =>
    readLE t.mem 0x100F0 8 == 0x10007 && t.me.stage == .free) = true := by decide +kernel
theorem test_trap_entry_hypotheses : (withCore { pend := [⟨0x0A, 1, 4⟩, ⟨0x10, 7, 5⟩] }).core.pend = [⟨0x0A, 1, 4⟩, ⟨0x10, 7, 5⟩]
    ∧ (withCore { pend := [⟨0x0A, 1, 4⟩, ⟨0x10, 7, 5⟩] }).core.sup = false := by decide +kernel
-- Obligations.PowerAndService: dies verified, trained and linked; a marked part of a free slot; an image that is not accepted.
def powered : State := { dies := [{ verified := true, stage := 1 }, { stage := 2 }, { stage := 2 }, { stage := 2 }], powered := true }
theorem test_power_hypotheses : ({} : State).powered = false ∧ ({ powered := true } : State).dies.length = 4
    ∧ (({ powered := true } : State).die 0).verified = false ∧ (powered.die 0).verified = true ∧ (powered.die 0).stage < 2
    ∧ powered.d0Empty = true ∧ run.linked = false ∧ 2 ≤ (run.die 0).stage ∧ imageAccepted [] = false
    ∧ ({ run with marked := [.pe 1 63] } : State).marked[0]? = some (.pe 1 63) ∧ (run.slotAt (4 * 1 + 63 / 64)).stage = .free := by decide +kernel

-- R469: D0 in stage 1, the others in stage 2, as the table of the status word gives it.
theorem test_status_word : powered.bridge = true
    ∧ powered.windowRead (2 ^ 21 * powered.groupIndex + 0x1F0000) = some 0xA901 := by decide

/-! ### Further clauses of the statements, each with a state that meets it -/

-- StepRuns: a TEND at which all heads stand together, and a trailing head within a loop that S repeats.
def endTogether : State :=
  { with0 { slot with core := { arenabound := 64, user := Path.allAt 0 } } with
    mem := writeLE [] 0 8 (wordT 0 0 0 0 0 0xAD 3 0)
    agenda := [⟨3, .head 0 .y⟩] }
theorem test_step_at_the_end :
    let s := { ({ endTogether with agenda := [] } : State).pass 3 with cur := 0 }
    s.me.stage = .running ∧ s.userHold = false ∧ s.offBeat 0 = false ∧ s.core.path.lost .y = none ∧ s.core.path.replay = none
    ∧ endsTask (wordT 0 0 0 0 0 0xAD 3 0) = true ∧ s.core.path.together = true
    ∧ s.fetch 0 (s.core.path.pc .y) = .word (wordT 0 0 0 0 0 0xAD 3 0)
    ∧ ((decode (wordT 0 0 0 0 0 0xAD 3 0) 0).toOption.map Instr.wf) = some true
    ∧ answers (step endTogether) (fun t => t.me.stage == .free) = true
    ∧ 1 < ({ Path.allAt 0 with pcS := 8, lagY := 2, replay := some ⟨16, 4, 0⟩ } : Path).whole .y := by decide +kernel
-- TileStoreAccess: a store and a load that wait for their bank, refused at most once and twice; an address in the journal.
def bankOf (q : BankReq) (bad : List Nat) : State :=
  with0 { slot with
    core := { slot.core with bank := some q, flights := [⟨.s 3, 9, 0, 1, false, true⟩] }
    store := writeLE [] 64 8 7
    badWords := bad }
theorem test_bank_hypotheses : (bankOf ⟨64, true, 5, 0⟩ []).core.bank = some ⟨64, true, 5, 0⟩
    ∧ answers (exec (.tileStoreBankGrant true) (bankOf ⟨64, true, 5, 1⟩ [])) (fun t => t.core.bank == some ⟨64, true, 5, 2⟩) = true
    ∧ answers (exec (.tileStoreBankGrant true) (bankOf ⟨64, true, 5, 2⟩ [])) (fun t => readLE t.me.store 64 8 == 5) = true
    ∧ answers (exec (.tileStoreBankGrant false) (bankOf ⟨64, false, 0, 0⟩ [])) (fun t => inFlight t == some 7) = true
    ∧ answers (exec (.tileStoreBankGrant false) (bankOf ⟨64, false, 0, 0⟩ [64])) (fun t => inFlight t == some 0
      && t.core.pend == [⟨0x12, 0, 64⟩]) = true := by decide +kernel
-- TileStoreAccess, EngineFifos: an ACQ of Y, a SAFF of M and an empty windrow hold S; an address in the journal.
def behindS (i : Instr) (c : Core) : State :=
  { with0 { slot with core := { c with user := slot.core.user, arenabound := 64 } } with
    mem := writeLE [] 0 4 ((encode i).getD (0, none)).1 }
theorem test_tile_waits : (behindS (.acq 1 false) (core2 64 0)).IssuesS (.ldt 3 1 2 false 3)
    ∧ (behindS (.acq 1 false) (core2 64 0)).IssuesS (.pushf 1 12 false)
    ∧ (behindS (.saff 1 3 3 false) (core2 64 0)).IssuesS (.stt 3 1 2 false)
    ∧ (behindS (.acq 1 false) (core2 64 0)).opened.acquirePending = true
    ∧ (behindS (.saff 1 3 3 false) (core2 64 0)).opened.storeBlocked = true
    ∧ (behindS (.saff 1 3 3 false) (core2 64 0)).opened.acquirePending = false
    ∧ (withCore { windrows := [(1, ⟨0, 64, 4, 4, 0, 0, 0, 0, 0⟩)] }).opened.core.windrowEmpty 0 = true :=
  ⟨issuesS_of (by decide +kernel), issuesS_of (by decide +kernel), issuesS_of (by decide +kernel), by decide +kernel⟩
def withJournal (a : Word) : State :=
  with0 { slot with
    task := some { task with pkt := { ts := 4, jnl := 1 } }
    core := { core2 a 0 with user := slot.core.user, jnl := true } }
theorem test_store_into_the_journal : (withJournal 3072).IssuesS (.stt 3 1 2 false) ∧ (withJournal 3072).me.pkt.inJournal 3072 = true
    ∧ (withJournal 3064).me.pkt.inJournal 3064 = false ∧ (withJournal 3072).opened.acquirePending = false
    ∧ (withJournal 3072).opened.storeBlocked = false :=
  ⟨issuesS_of (by decide +kernel), by decide +kernel⟩
-- EngineFifos: queues whose 64 are reached, with a command in execution; the last word for the array and the encode engine.
def fullQueues (n : Nat) : Slot := { slot with
    core := { slot.core with asmM := List.replicate 15 1, asmA := List.replicate 15 1, asmE := List.replicate 15 1 }
    eng := { queue := List.replicate 64 (cmd []) }
    queueA := List.replicate n (cmd [])
    array := some (cmd [])
    queueE := List.replicate n (cmd [])
    channels := [{ cmd := some (cmd []) }, {}, {}, {}] }
theorem test_push_waits : (∀ k ∈ [0, 1, 2], (fullQueues 63).pushWaits k = true) ∧ (∀ k ∈ [1, 2], (fullQueues 62).pushWaits k = false)
    ∧ ∀ k ∈ [0, 1, 2], ((fullQueues 62).assembly k).length = 15 := by decide +kernel
theorem test_pushf_queues_a_command : answers (exec (.pushf 1 1 false) (with0 (fullQueues 62))) (fun t => t.me.queueA.length == 63
    && t.core.asmA == []) = true := by decide +kernel
-- ClosingAndQuerying: a command in the queue, one in flight, one among the last 64, and none.
def known : State := withCore { hreg := (Vector.replicate 16 0).set 1 0x80000003 }
def knowing (q f : List Cmd) (r : List (Nat × Word)) : State :=
  known.setMe fun l => { l with eng := { queue := q, flying := f, retired := r } }
theorem test_query_finds : ((knowing [{ cmd [] with seq := 3 }] [] []).me.eng.queue ++ []).find? (fun c => c.seq == 3)
      = some { cmd [] with seq := 3 }
    ∧ (([] : List Cmd) ++ (knowing [] [{ cmd [] with seq := 3 }] []).me.eng.flying).find? (fun c => c.seq == 3) = some { cmd [] with seq := 3 }
    ∧ ((knowing [] [] [(3, 7)]).me.eng.retired.find? fun x => x.1 == 3) = some (3, 7)
    ∧ ((knowing [] [] [(4, 7)]).me.eng.retired.find? fun x => x.1 == 3) = none
    ∧ (known.core.hreg[1]).toNat % 2 ^ 16 = 3 ∧ (known.core.hreg[1]).getLsbD 31 = true := by decide +kernel
theorem test_query_of_a_retired : answers (exec (.sqryCommand 1 false) (knowing [] [] [(3, 7)])) (fun t => t.core.sts == [7]) = true
    ∧ answers (exec (.sclose 1 false) (knowing [] [{ cmd [] with seq := 3 }] [])) (fun t => t.me.eng.flying.map (·.closing) == [true]) = true := by
  decide +kernel
-- EnqueuePackets: a queue of this package that accepts and one that does not; another package, reachable or not; sts full.
def enqueuing (dest : Word) (ack reserved : Bool) (n accept : Nat) (linked : Bool) : State :=
  { withCore { ywait := some (.enqueue 0 dest ack reserved), sts := List.replicate n 0 } with
    enqQueues := [(257, { accept := accept })]
    linked := linked }
theorem test_enqueue_hypotheses :
    let own := enqueuing 0x0002000000000101 true false 31 1 false
    let far := enqueuing 0x0020000000000101 true false 31 1 true
    own.yReady = true ∧ destOwn 0x0002000000000101 = true ∧ own.queueAnswer (destQueue 0x0002000000000101) false = 0
    ∧ (enqueuing 0x0002000000000101 true false 32 0 false).queueAnswer (destQueue 0x0002000000000101) false ≠ 0
    ∧ destOk 0x0020000000000101 = true ∧ destOwn 0x0020000000000101 = false ∧ destPkg 0x0020000000000101 ≠ far.pkgId
    ∧ far.reaches (destPkg 0x0020000000000101) = true ∧ far.stationsUp far.cur = true ∧ run.reaches (destPkg 0x0020000000000101) = false
    ∧ far.core.sts.length < 32 := by decide +kernel
theorem test_enqueue_answers : answers (exec .tenqPlaced (enqueuing 0x0002000000000101 true false 31 1 false))
      (fun t => t.core.ywait == some (.enqueue 0 0x0002000000000101 true true)) = true
    ∧ answers (exec .tenqPlaced (enqueuing 0x0002000000000101 true true 31 1 false))
      (fun t => t.core.ywait == none && t.core.acks == 1 && t.enqQueues.map (fun e => e.2.packets.length) == [1]) = true := by decide +kernel
-- PollsAndProbes: a granule of a declared set that the task holds, that another holds, and that none holds.
def probed (locks : List Lock) : State :=
  { with0 { slot with
      task := some { task with decl := { sets := [none, some ⟨0, 12, 0, 4⟩] } }
      core := { core2 1 3 with user := slot.core.user, age := 5 }
      regions := ⟨true, true, true, false, 0, [⟨true, false, 0, 0x10000, 65536⟩]⟩ :: List.replicate 15 {} } with locks := locks }
theorem test_probe_clauses :
    let t : DeclSet := ⟨0, 12, 0, 4⟩
    ((probed []).me.decl.sets[1]?).getD none = some t ∧ (((probed []).me.regions[t.region]?).getD {}).byteAt false (t.first 3) = .at [0x13000]
    ∧ (probed [{ addr := 0x13000, log2g := 12, holder := some (5, 0) }]).probe 0 1 3 = (true, false)
    ∧ (probed [{ addr := 0x13000, log2g := 12, holder := some (9, 4) }]).probe 0 1 3 = (false, true)
    ∧ (probed [{ addr := 0x13000, log2g := 12, holder := none }]).lockAt 0x13000 12 = some { addr := 0x13000, log2g := 12, holder := none }
    ∧ (probed []).lockAt 0x13000 12 = none ∧ (with0 slot).probe 0 1 3 = (false, false) := by decide +kernel
theorem test_poll_task : answers (exec (.tpollTask false) (atTime 4 none)) (fun t =>
    t.core.sts == [BitVec.ofNat 64 (3 * 2 ^ 62 + 2 * 2 ^ 58 + 0xFFFFFFFF)]) = true := by decide +kernel
-- StreamCommandsStart: no earlier command waits for the same event; one that does.
theorem test_counts_free : (started 0 1 (starting none false)).CountsFree (starting none false)
    ∧ (started 5 1 (starting (some 5) false)).CountsFree (starting (some 5) false)
    ∧ ¬ ((started 0 1 (starting none false)).setMe fun l => { l with
        eng := { l.eng with flying := [{ starting none false with seq := 9 }, starting none false] } }).CountsFree (starting none false) := by
  unfold State.CountsFree; decide +kernel
-- StreamKindsMoveElements, its last clause: what a SAFF takes and puts, and an SCPY to a region of memory.
theorem test_general_element :
    let c := { moving 0x0B (tileEp 0) 0x0000000000000000 with
      exts := [(0, ⟨true, true, true, false, 0, [⟨true, false, 0, 0x10000, 65536⟩]⟩)] }
    let s := streaming c
    (match s.take 0 c with | .ok _ _ v => some v | _ => none) = some 0
    ∧ (match s.put 0 c 0 with | .ok _ _ _ => true | _ => false) = true
    ∧ answers (exec (.scpyCommand 0) s) (fun t => ((t.cmdAt 0 0).map (·.cursor)) == some 1) = true := by decide +kernel
-- LoopsBarriersTapsAndTokens: the command that a STAP names is in flight, has faulted, or has retired; a STOK to an own port and xi FIFO.
def tapping (l : List Cmd) (r : List (Nat × Word)) : State :=
  with0 { slot with eng := { flying := moving 0x0D noneEp noneEp :: l, retired := r } }
def three (st : CState) : Cmd := { cmd [] with
  seq := 3
  st := st }
def doneStatus : Word := 0x400000000
theorem test_tap_hypotheses :
    let t := moving 0x0D noneEp noneEp
    let named (s : State) := (s.me.eng.queue ++ s.me.eng.flying).find? fun (y : Cmd) => y.seq == 3
    t.link = some 3 ∧ t.told = false ∧ named (tapping [three .running] []) = some (three .running)
    ∧ named (tapping [three .faulted] []) = some (three .faulted)
    ∧ named (tapping [] [(3, doneStatus)]) = none ∧ ((tapping [] [(3, doneStatus)]).me.eng.retired.find? fun (q, _) => q == 3) = some (3, doneStatus)
    ∧ statusState doneStatus = 4 ∧ statusState 0x500000000 ≠ 4 := by decide +kernel
theorem test_taps_run : (tapping [three .running] []).Running (moving 0x0D noneEp noneEp)
    ∧ (tapping [] [(3, doneStatus)]).Running (moving 0x0D noneEp noneEp) := ⟨running_of (by decide +kernel), running_of (by decide +kernel)⟩
def stok (ep1 : Word) : Cmd := moving 0x10 noneEp ep1
def controlPort (c : Cmd) : State := (streaming c).setMe fun l => { l with quad := inRun 0x50 io }
theorem test_stok_clauses :
    let c := stok 0x2000000000000005
    epType c.ep1 = 2 ∧ epPort c.ep1 = 5 ∧ (controlPort c).me.quad.inPlane 5 = true ∧ (controlPort c).remoteRoom 0 5 = true
    ∧ epType (stok xiEp).ep1 = 3 ∧ 60 + (epFifo (stok xiEp).ep1 - 8) = 60 ∧ (streaming (stok xiEp)).remoteRoom 0 60 = true
    ∧ c.lemSent = false ∧ c.closed = false ∧ c.told = false := by
  decide +kernel
theorem test_stoks_run : (streaming (stok xiEp)).Running (stok xiEp) ∧ (controlPort (stok 0x2000000000000005)).Running (stok 0x2000000000000005) :=
  ⟨running_of (by decide +kernel), running_of (by decide +kernel)⟩
theorem test_stok_leaves : answers (exec (.stokCommand 0) (streaming (stok xiEp))) (fun t => t.remotes.map (fun r => (r.dst, r.port)) == [(0, 60)])
    = true := by decide +kernel
theorem test_filter_hypotheses :
    let c := moving 0x0E noneEp noneEp
    let s := streaming c
    c.fin = false ∧ s.filterInUse s.cur c (s.cmdRoute s.cur c) = false
    ∧ (∀ n ∈ s.cmdRoute s.cur c, s.otherEntries n (planeOf s.cur) c.vc c.filter < 16) := by decide +kernel
-- RetirementAndArrival: an input port with room on its plane; a destination that does not run, for a sender with a command.
def toPort (l : Slot) : State :=
  { with0 l with remotes := [⟨0, 0, 0, 5, false, tok 9, none, none⟩] }
theorem test_port_arrival : ((toPort { slot with quad := inRun 0x01 io }).slotAt 0).quad.portRoom 5 = true
    ∧ ((toPort { slot with quad := inRun 0x01 io }).slotAt 0).quad.inPlane 5 = false
    ∧ (toPort { slot with quad := inRun 0x01 io }).lender 0 = none
    ∧ ((toPort { slot with stage := .bound, eng := { flying := [stok xiEp] } }).slotAt 0).runs = false
    ∧ (toPort { slot with stage := .bound, eng := { flying := [stok xiEp] } }).cmdAt 0 0 = some (stok xiEp)
    ∧ (stok xiEp).st ≠ .faulted := by decide +kernel
-- SwardPortsAndBuffers, SwardFirings: a frozen region; no firing in this ac, and no round beyond the next.
theorem test_frozen : ((region { inRun 0x01 io with frozen := true }).quadNow 0).frozen = true := by decide +kernel
theorem test_fires_once :
    let q := (holding 0x01 [tok 1] [tok 2]).settleBefore 0
    q.firedNow 0 63 = false ∧ ((Quad.firedNow { q with firedAt := [(63, 0)] } 0 63)) = true
    ∧ answers (exec (.groupFiring 63) (region (holding 0x01 [tok 1] [tok 2]))) (fun t => t.me.quad.firedNow 0 63) = true := by decide +kernel
-- ChainEngine: a step of one element, on the boundary 1 × 1 × 1 of 1.0 with a core element 1.0.
def stepping (push : Bool) : State :=
  let c : Cmd := { queuedCmd (engineRecord 0x49 0 ((List.range 4).map (fun k => (5 + k, 0x10001)) ++ [(10, 0x101)])) 0 2 (some 1) with
    st := .running
    started := true
    acted := true }
  { with0 { slot with
      regions := ⟨true, true, true, false, 0, [⟨true, false, 0, 0x10000, 65536⟩]⟩ :: List.replicate 15 {}
      task := some { task with pkt := { chb := 1 } }
      chain := { cmd := some c, prog := (0, BitVec.ofNat 64 (1 + 4096 + if push then 2 ^ 56 else 0)) :: List.replicate 31 (0, 0) } } with
    mem := writeLE [] 0x10000 2 0x3F80 }
def stepCmd : Cmd := ((stepping true).me.chain.cmd).getD (cmd [])
theorem test_step_clauses : ∀ push ∈ [false, true],
    let s := stepping push
    let c := stepCmd
    let p := ChainStep.ofWords ((s.me.chain.prog[c.stepAt]?).getD (0, 0))
    let b := s.me.chain.bnd
    s.me.chain.cmd = some c ∧ c.kind = 0x49 ∧ c.acted = true ∧ c.st = .running ∧ c.notice = none ∧ c.waitGranule = none
    ∧ c.stepAt < c.lastStep ∧ s.me.chain.begun = false ∧ s.me.stepBad c p = none ∧ p.shape b.k b.t (c.bond p.bond) = (1, 1, 1) ∧ p.mode = 0
    ∧ c.pushedAt = 0 ∧ p.push = push ∧ s.core.chf.length + 1 ≤ 64 ∧ s.core.jnl = false
    ∧ answers (exec .chainStepKeep s) (fun t => t.me.chain.bnd.elems == [0x3F800000]
      && t.core.chf == if push then [0x3F800000] else []) = true := by decide +kernel
-- ArrayEngine: a mask whose port has a full queue is left out by MRK's hypothesis; a port that is not mapped.
theorem test_mark_enters : answers (exec .mrk (array (lane 0x44 0x20 0) (inRun 0x01 io))) (fun t => (t.me.quad.port 5).pr == 1) = true
    ∧ ((array (lane 0x44 0x40 0) (inRun 0x01 io)).quadNow 0).mapsIn 6 = false
    ∧ ((array (lane 0x44 0x20 0) (inRun 0x01 io)).quadNow 0).frozen = false := by decide +kernel
-- EncodeChannels: a block that R453 accepts, an engine with room and one without, and a coded frame that is written.
def goodBlock : List Host.Cell :=
  writeLE (writeLE (writeLE (writeLE (writeLE [] 0 8 0x080001) 8 8 (16 + 16 * 65536)) 16 8 (1 + 2 ^ 32)) 24 8 0) 40 8 1
def opening (taken : Nat) : State :=
  { (encoding (lane 0x80 0 0) {}).setMe fun l => { l with store := goodBlock } with
    encodes := (List.range 4).map fun e => ⟨e, 9, 0, taken, 1⟩ }
theorem test_open_clauses : paramsOk ((opening 0).me.block128 0) = true
    ∧ (let s := opening 0
       rateLt (engineRate, 1) (addRate (s.reserved (s.freest 0)) (256, 1)) = false)
    ∧ (let s := opening 4200000000
       rateLt (engineRate, 1) (addRate (s.reserved (s.freest 0)) (256, 1)) = true)
    ∧ (encWidth ((opening 0).me.block128 0) * encHeight ((opening 0).me.block128 0) * encNum ((opening 0).me.block128 0),
        encDen ((opening 0).me.block128 0)) = (256, 1) := by decide +kernel
/-- The instruction waits: it leaves the state as it is. -/
def stays (i : Instr) (s : State) : Bool := answers (exec i s) (· == s)

-- HomesAndLocks: a younger holder of this ac and of an earlier one; a free granule; a wound in the ac it was sent, later, and in firmware.
def lockSince (n : Nat) : State := { touching [{ lockBy 9 with since := n }] with wounds := [] }
theorem test_touch_clauses : (lockSince 1).lockAt 0x10000 12 = some { lockBy 9 with since := 1 } ∧ (lockSince 1).stc = 1
    ∧ stays (.granuleTouch 0) (lockSince 1) = true ∧ (lockSince 0).isWounded 9 = false
    ∧ answers (exec (.granuleTouch 0) (lockSince 0)) (fun t => t.wounds == [⟨4, 9, 5, false, 1⟩] && t.touches == []) = true
    ∧ (touching [{ lockBy 9 with holder := none }]).lockAt 0x10000 12 = some { lockBy 9 with holder := none } := by decide +kernel
def woundedIn (sup arrived : Bool) (at' : Nat) : State :=
  { with0 { aged with core := { aged.core with sup := sup } } with
    wounds := [⟨0, 5, 2, arrived, at'⟩]
    stc := 1 }
theorem test_wound_clauses : stays (.wound 0) (woundedIn false false 1) = true
    ∧ (woundedIn true false 0).slotOf 5 = some 0 ∧ stays (.wound 0) (woundedIn true true 0) = true
    ∧ answers (exec (.wound 0) (woundedIn true false 0)) (fun t => t.core.woundHeld) = true := by decide +kernel
-- FaultService: a page that no table maps; two marks on one run of invalidations; an arena copy that fails its checks.
theorem test_unmapped_page : (serving false [] 0 false).page 0 0 = none ∧ absent.missing 32 0x4000 < absent.length
    ∧ (serving true [] 0 false).patches.all (fun p => !(p.age == 5 && p.region == 0)) = true := by decide +kernel
theorem test_no_arena_copy : ({ frozenRegion with mem := [] } : State).arenaCopy 0 = none ∧ ({ frozenRegion with mem := [] } : State).me.quad.frozen = true
    ∧ frozenRegion.me.runs = true ∧ frozenRegion.me.quad.st ≠ .empty ∧ frozenRegion.core.commit = false
    ∧ (moving2 false).invalids.all (fun x => !x.sent) = true ∧ 0x120000 + 65536 ≤ 0x100000 ∨ 0x100000 + 65536 ≤ 0x120000 := by decide +kernel
-- QueuesAndRegisters: offsets of the own window, of no register, and of another package; a rack packet; a spawned and a queued packet.
theorem test_window_offsets : run.groupIndex < 32 ∧ 2 ^ 21 * run.groupIndex + 64 * 3 = 192 ∧ (192 % 64 = 0 ∧ 192 % 2 ^ 21 / 64 = 3)
    ∧ answers (exec (.tail 192 5) (hosting true 0)) (fun t => (t.hostQueue 3).tail == 5 && !(t.hostQueue 3).err) = true
    ∧ answers (exec (.tail 192 18) (hosting true 0)) (fun t => (t.hostQueue 3).err) = true
    ∧ 256 ≤ 0x4000 % 2 ^ 21 / 64 ∧ stays (.tail 0x4000 5) (hosting true 0) = true
    ∧ (2 ^ 21 + 64) / 2 ^ 21 ≠ run.groupIndex
    ∧ answers (exec (.tail (2 ^ 21 + 64) 5) { run with bridge := true, linked := true }) (fun t => t.sent == [.window (2 ^ 21 + 64) 5]) = true := by
  decide +kernel
def racked : State := { run with rackQueues := [(512, [2 ^ 48])] }
theorem test_rack_hypotheses : aget [] 512 racked.rackQueues = [2 ^ 48] ∧ (racked.die 0).stage ≠ 0
    ∧ answers (exec (.packetFetch 512) racked) (fun t => aget [] 512 t.rackQueues == [] && t.sent.length == 1) = true := by decide +kernel
theorem test_spawned_and_queued : ({ run with enqs := [{ enq with spawn := some 0 }] } : State).enqs[0]? = some { enq with spawn := some 0 }
    ∧ (aget ({} : EnqQueue) 257 ({ run with enqQueues := [(257, { accept := 1, packets := [enq] })] } : State).enqQueues).packets = [enq] := by
  decide +kernel
/-- A packet of version 2 with a task of 1 KiB, whose declaration block at 0x20000 names session 7 of n bytes as its region 0. -/
def goodPacket (n : Nat) : List Host.Cell :=
  let hd := writeLE (writeLE (writeLE (writeLE [] 0x10000 8 0x201) 0x10010 8 64) 0x10028 16 (1 + 2 ^ 32 + 2 ^ 64 + 2 ^ 96)) 0x10058 8 0x20000
  let pk := writeLE (writeLE hd 0x10060 8 1) 0x10078 8 7
  writeLE (writeLE pk 0x20048 8 n) 0x20050 8 (0x3 + 8 + 7 * 2 ^ 32)
/-- Session 7 is pinned with 64 KiB. -/
def launching (n : Nat) : State := { hosting true 1 with
  mem := goodPacket n
  sessions := [⟨7, 65536, [⟨true, false, 0, 2 ^ 51, 65536⟩]⟩] }
theorem test_good_packet :
    let u (n : Nat) := (launching n).setHost 3 fun h => { h with head := 1 }
    let ws (n : Nat) := (launching n).memWords 0x10000 32
    let d (n : Nat) := Decl.ofWords ((launching n).memWords (Packet.ofWords (ws n)).decl 88) (Packet.ofWords (ws n)).ver
    (u 65536).packetRefused (ws 65536) = none ∧ ((u 65536).pinAll (d 65536).regions).toBool = true
    ∧ (u 131072).packetRefused (ws 131072) = none ∧ ((u 131072).pinAll (d 131072).regions).toBool = false := by
  decide +kernel
-- FromRecordToTask: a record of three tasks of which the second was aborted; an abort of a pending task.
theorem test_ordinals : ({ record with aborted := [1], pkt := { dims := [3, 1, 1, 1] } } : Record).ordinals 3 2 0 = [0, 2]
    ∧ ({ record with pkt := { dims := [3, 1, 1, 1] } } : Record).ordinals 2 2 1 = [1, 2] := by decide +kernel
def pendingAbort : State := { resident with cur := 8192 + 1 + 2 ^ 30 * 1 }
theorem test_pending_abort : (pendingAbort.records.find? fun x => x.1 == 1) = some (1, record) ∧ record.handed ≤ 1 ∧ 1 < record.pkt.tasks
    ∧ 1 ∉ record.aborted ∧ record.ended + 1 < record.pkt.tasks
    ∧ answers (exec .abort pendingAbort) (fun t => (aget record 1 t.records).aborted == [1] && (aget record 1 t.records).ended == 1) = true := by
  decide +kernel
-- EndingATask: a wound on its way from before; a TYLD in firmware.
def woundedEnd : State := { ending 2 {} with wounds := [⟨0, 0, 2, false, 0⟩], stc := 1 }
theorem test_end_clauses : (ending 1 {}).woundedBefore (ending 1 {}).cur = false ∧ woundedEnd.woundedBefore woundedEnd.cur = true
    ∧ stays (.tend 0 false) woundedEnd = true ∧ (ending 1 { sup := true }).core.path.mayEnd = true
    ∧ answers (exec (.tyld false) (ending 1 {})) (fun t => t.me.stage == .gating && t.me.yielded && t.core.trappcS == 12) = true
    ∧ answers (exec (.tend 0 false) (ending 1 { jnl := true })) (fun t => t.core.commit) = true := by decide +kernel
-- PrefixAndDiag: a prefix of M at 0 whose SRED S has passed, and one that S stands before.
def prefixM (lag : Nat) : State := (prefixed 0x106 ((encode (.sred 1 1 2 false)).getD (0, none)).1).setMe fun l => { l with
    core := { l.core with user := { pcS := 4 * lag, lagM := lag, lagA := lag, lagY := lag } } }
theorem test_prefix_of_m : targetOf ((prefixM 2).scan 1 16 4 1) = some (1, .sred 1 1 2 false) ∧ 1 < (prefixM 2).core.path.lag .m
    ∧ (prefixM 1).core.path.lag .m ≤ 1 ∧ (prefixM 2).core.path.pc .m = 0
    ∧ answers (exec (.pfx true false 0 1) (prefixM 2)) (fun t => t.core.arm.map (·.dist) == some 1) = true
    ∧ stays (.pfx true false 0 1) (prefixM 1) = true := by decide +kernel

/-! ### Graphs (R464), the bridge window's memory (R360) -/

-- Two blocks with an edge from output port 0 to input port 0, on the first two canonical slots; an edge from a port that is not there; and
-- blocks that fail their checks.
def graph (out : Nat) : Graph := { blocks := [⟨0, 2048, 48, 0⟩, ⟨0, 2048, 48, 0⟩], edges := [⟨0, out, 1, 0⟩], levels := [[0, 1]], fields := [⟨.word, 0x400, 1⟩] }
def graphHost : State := { run with slots := [], mem := arena }
theorem test_graph_loads : (graphHost.graphLoad 0 [] (graph 0)).code = none
    ∧ (graphHost.graphLoad 0 [] (graph 0)).places.map (fun p => (p.cx, p.cy, p.slot)) = [(0, 0, 0), (0, 0, 1)]
    ∧ (graphHost.graphLoad 0 [] (graph 0)).streams = [⟨0, 1, 256, 257, 0x2000000000000000, 0x4002101000000000⟩]
    ∧ (graphHost.graphLoad 0 [] (graph 0)).scopes = [1, 1, 1, 1, 1] := by decide +kernel
theorem test_graphs_refused : (graphHost.graphLoad 0 [] (graph 1)).code = some 0x05 ∧ (run.graphLoad 0 [] (graph 0)).code = some 0x06 := by decide +kernel

/-! ### Values of R198 worked out outside the model, to nearest: 2^0.5, log2 3, sin of an eighth of a turn, tanh 0.5 -/
theorem test_special_values : near32 (exp2Near (Fmt.fp32.value 0x3F000000)) = 0x3FB504F3
    ∧ near32 (log2Near (Fmt.fp32.value 0x40400000)) = 0x3FCAE00D ∧ near32 (fixTurn (fixFrac (Fmt.fp32.value 0x3E000000))) = 0x3F3504F3
    ∧ near32 (tanhNear (Fmt.fp32.value 0x3F000000)) = 0x3EEC9A9F := by decide +kernel

/-! ### The save record (R449's worked example) -/

def savedSession : Waiting :=
  let srec : Cmd := { cmd [(0, 0x105)] with
    seq := 4
    st := .cut
    cursor := 4
    sent := 1
    held := [(3, tok 0x425C0000)] }
  { task := { task with pkt := { ts := 4 } }
    left := 0x2AB
    saved := some { slot with
      quad := { inRun 1 io with
        blk := some { block1 1 io with off := 0x90 }
        inPorts := [(1, { q := List.replicate 8 (tok 0x3F000000) }), (2, { q := [tok 0x42200000, tok 0x42480000] })] }
      eng := { flying := [cmd [], cmd [], cmd [], cmd [], srec, cmd [], cmd []] } } }
theorem test_save_header : savedSession.recordNum 0x8000 8 = 0x0000000700200000 ∧ savedSession.recordNum 0x8008 8 = 0x0000009000001000
    ∧ savedSession.recordNum 0x8018 8 = 0x02AB := by decide +kernel
theorem test_save_ports : savedSession.recordNum (0x22000 + 640 * 2) 8 = 2 ∧ savedSession.recordNum (0x22000 + 640) 8 = 8
    ∧ savedSession.recordNum 0x22000 8 = 0 ∧ savedSession.recordNum 0x2E800 8 = 0x20401 ∧ savedSession.recordNum 0x2E808 8 = 0x425C0000
    ∧ savedSession.recordNum (0x9000 + 128 * 4 + 112) 8 = 0x0001000000000004 := by decide +kernel
theorem test_save_core : savedSession.recordNum 0x180 8 = 1 ∧ savedSession.recordNum 0x1C8 2 = 1 ∧ savedSession.recordNum 0x228 8 = 2 ^ 64 - 1 := by
  decide +kernel

/-! ### Clauses of this form of the statements: events and barriers of one ac, records that await storage, entries that fail -/

-- CountedEvents: an event that a wait took in this ac and that EVCLR, EVSIG and EVWAIT leave for later, and one it did not.
theorem test_clear_waits_for_the_take : (withCore { evTake := [(4, 0)] }).core.takenNow 0 4 = true
    ∧ (withCore { evTake := [(4, 0)] }).core.countedNow 0 (2 ^ 4) = true ∧ run.core.countedNow 0 (2 ^ 4) = false
    ∧ stays (.evsig 4 0 false) (withCore { evTake := [(4, 0)] }) = true ∧ stays (.evwait 4 0 false) (withCore { evTake := [(4, 0)] }) = true
    ∧ stays (.evclr 4 0 false) (withCore { evTake := [(4, 0)] }) = true ∧ run.core.takenNow 0 4 = false
    ∧ answers (exec (.evclr 4 0 false) (withCore { ereg := Vector.replicate 32 9 })) (fun t => t.core.ereg[4] == 0 && t.core.ereg[5] == 9) = true := by
  decide +kernel
-- Barriers: arrivals of the ac 3, seen only after it, and made void by a poisoning in it.
def barNow : Barrier := { bar1 with undo := some (3, 2, 0) }
theorem test_barrier_of_one_ac : (∀ x, bar1.undo = some x → x.1 ≠ 3) ∧ (∀ x, barNow.undo = some x → x.1 ≠ 4)
    ∧ ((bar1.arriveIn 3 1).seen 3).phase = 0 ∧ ((bar1.arriveIn 3 1).seen 4).phase = 1
    ∧ ((bar1.arriveIn 3 1).poisoned 3).phase = 0 ∧ ((bar1.arriveIn 3 1).poisoned 4).phase = 1
    ∧ ((bar1.arriveIn 3 1).poisoned 3).poison = true ∧ (((bar1.arriveIn 3 1).setCount 3).poisoned 3).phase = 0
    ∧ (((bar1.poisoned 3).setCount 3).arriveIn 3 1).phase = 0 ∧ (((bar1.poisoned 3).setCount 3).arriveIn 4 1).phase = 1 := by decide +kernel
-- EnqueuePackets: a reserved packet for another package, reachable or not, with no station of the die left.
theorem test_far_packets :
    let far := enqueuing 0x0020000000000101 true true 31 1 true
    let cut : State := { far with dies := [{ stage := 2, stations := [0, 1, 2, 3] }, { stage := 2 }, { stage := 2 }, { stage := 2 }] }
    far.yReady = true ∧ far.core.ywait = some (.enqueue 0 0x0020000000000101 true true) ∧ (destOwn 0x0020000000000101 || destPkg 0x0020000000000101 == far.pkgId) = false
    ∧ far.reaches (destPkg 0x0020000000000101) = true ∧ far.stationsUp far.cur = true ∧ cut.stationsUp cut.cur = false := by decide +kernel
-- QueuesAndRegisters: a declaration block of a die that serves no storage yet; sessions that wait for L2 of such a die or are refused; a
-- count that EVCLR makes wait; a packet that names a session.
def early (n decl : Nat) : State := { launching n with
  mem := writeLE (goodPacket n) 0x10058 8 decl
  sessions := []
  dies := [{ stage := 2 }, { stage := 1 }, { stage := 2 }, { stage := 2 }] }
def pinFails (x : Except Bool State) (refused : Bool) : Bool := match x with | .ok _ => false | .error b => b == refused
theorem test_packets_that_wait :
    let p (s : State) := Packet.ofWords (s.memWords 0x10000 32)
    let d (s : State) := Decl.ofWords (s.declWords (p s)) (p s).ver
    let u (s : State) := s.setHost 3 fun h => { h with head := 1 }
    let far := early 65536 (2 ^ 38)
    let big := early (2 ^ 30) 0x20000
    (u far).packetRefused (far.memWords 0x10000 32) = none ∧ far.declServed (p far) = false ∧ far.servedRun 0x10000 256 = true
    ∧ (u big).packetRefused (big.memWords 0x10000 32) = none ∧ big.declServed (p big) = true ∧ pinFails ((u big).pinAll (d big).regions) false = true
    ∧ (let s := launching 131072; s.declServed (p s) = true ∧ pinFails ((u s).pinAll (d s).regions) true = true) := by decide +kernel
theorem test_count_waits : run.countWaits 0 31 = false ∧ (withCore { evClear := [(31, 0)] }).countWaits 0 31 = true
    ∧ run.templateServed [0, 0x20000] = true ∧ ({} : Packet).names 7 = false ∧ ({ sess := [0, 7] } : Packet).names 7 = true := by decide +kernel
-- FromRecordToTask: no record that awaits storage; a task whose region has no session, or whose block fails its checks or has no place.
def unformed : Task := { task with decl := { regions := [{ len := 65536, sess := true, sid := 7 }] } }
theorem test_binding_fails : run.lookAgain = none
    ∧ (((entering .binding 5 4).setMe fun l => { l with regions := List.replicate 16 {} }).formRegions 0 0 0 unformed.decl.regions).isNone = true
    ∧ (let s := with0 { slot with stage := .binding, task := some unformed }
       answers (exec .taskBind s) (fun t => t.me.stage == .free && t.records == s.records) = true)
    ∧ (match (with0 { slot with blocks := [⟨0, 0, some 0x05, none⟩] }).entryQuad 0 { block := some 0 } with | .error c => c == 0x06 | .ok _ => false) = true
    ∧ (match (with0 { slot with blocks := [⟨0, 0, none, none⟩] }).entryQuad 0 { block := some 0 } with | .error c => c == 0x05 | .ok _ => false) = true := by
  decide +kernel
-- SavingAndRestoring: the same at a restore, and no update on its way at the limit.
def savedUnformed : State := { savedHere with
  dies := [{ stage := 2, queues := [[{ task := unformed, saved := some slot, left := 0 }], [], [], []] }, { stage := 2 }, { stage := 2 }, { stage := 2 }] }
theorem test_restoring_fails : (savedUnformed.formRegions 0 0 0 unformed.decl.regions).isNone = true
    ∧ answers (exec .taskRestore savedUnformed) (fun t => t.slots.all fun x => x.2.stage == .free) = true
    ∧ (match savedHere.restoredQuad 0 (inRun 1 io) {} with | .error c => c == 0x06 | .ok _ => false) = true
    ∧ ((gatedAt 20000).updates.all fun u => u.ctx != (gatedAt 20000).cur) = true := by decide +kernel
-- RetirementAndArrival: a token that is held for a saved task, and one that was forwarded to the task that runs, or to another.
theorem test_token_is_held :
    let r : Remote := ⟨4096, 0, 0, 60, false, ⟨9, 0, false, false⟩, some 4, none⟩
    (arriving true).heldFor r = some 5 ∧ (arriving false).heldFor r = none ∧ (aged.age == 5) = true
    ∧ (arriving true).heldFor { r with fwd := some 5 } = some 5 ∧ (with0 aged).heldFor { r with fwd := some 5 } = none
    ∧ (with0 aged).heldFor { r with fwd := some 6 } = none
    ∧ answers (exec (.remoteTokenArrival 0) (arriving true)) (fun t => t.held.length == 1 && t.remotes == []) = true := by decide +kernel
-- ... and one whose event EVCLR set in this ac.
theorem test_arrival_waits_for_the_clear : stays (.remoteTokenArrival 0) ((arriving false).setCore fun c => { c with evClear := [(4, 0)] }) = true
    ∧ (cmd []).reported = false := by decide +kernel
-- PowerAndService: the move of a graph, a field that a scope is written to, and both kinds of edge.
theorem test_graph_move : answers (move graphHost (.graph (graph 0))) (fun t => t.graphs.length == 1
      && (t.slotAt 0).quad.st == .empty && [256, 257].all (fun c => (t.slotAt c).quad.st == .loaded)
      && readLE t.mem 0x400 4 / 2 ^ 27 % 8 == 1) = true
    ∧ (graphHost.graphLoad 0 [] { graph 0 with fields := [⟨.word, 0x400, 0⟩] }).code = some 0x05 := by decide +kernel
def edgePorts : List PortEntry := [⟨false, 0, 0, 0, 0, 0⟩, ⟨true, 0, 0, 0, 63, 0⟩]
def edgeSlot (out : List (Tok × Bool)) : Slot := { slot with quad := { inRun 0x48 edgePorts with outPorts := [(0, out)] } }
/-- A graph whose blocks run, with an edge between two quadrants or from one to itself, and a token at its start. -/
def edging (dst : Nat) : State :=
  { run with
    slots := [(256, edgeSlot [(tok 9, false)]), (257, edgeSlot [])]
    graphs := [⟨graph 0, none, [], [⟨0, dst, 256, 256 + dst, 0x2000000000000000, if dst = 0 then 0x2000000000000000 else 0x4002101000000000⟩], []⟩] }
theorem test_edges : ∀ dst ∈ [0, 1], (edging dst).runsBlock 256 ⟨0, 2048, 48, 0⟩ = true ∧ (edging dst).runsBlock (256 + dst) ⟨0, 2048, 48, 0⟩ = true
    ∧ ((edging dst).slotAt 256).quad.outHeads 0 = [(tok 9, false)]
    ∧ (if dst = 0 then ((edging dst).slotAt 256).quad.portRoom 0 else (edging dst).remoteRoom 257 0) = true
    ∧ answers (move (edging dst) (.edge 0 0)) (fun t => (t.slotAt 256).quad.outPort 0 == []
        && (if dst = 0 then ((t.slotAt 256).quad.port 0).incoming.map (·.tok) == [tok 9] else t.remotes.map (·.dst) == [257])) = true
    ∧ ((edging dst).slotAt 256).quad.edgePassed 0 = false
    ∧ ({ ((edging dst).slotAt 256).quad with edges := [(0, { given := 1 })] } : Quad).edgePassed 0 = true := by
  decide +kernel
theorem test_training_failure : ({} : Die).fail = false ∧ powered.powered = true ∧ powered.dies.length = 4 ∧ (powered.die 1).trained = false
    ∧ answers (exec (.hbmTrainingComplete 0) { powered with dies := powered.dies.set 0 { verified := true, stage := 1, trained := true } })
      (fun t => (t.die 0).stage == 2) = true
    ∧ run.groupIndex < 32 ∧ powered.bridge = true := by decide +kernel
-- LaneOperators: an operator of every clause executes; pending lanes of CMPX; two coordinates.
def firing1 (a b : Nat) : Firing := ⟨63, 0, none, 3, true, [(0, ⟨a, 3, true, false⟩), (1, ⟨b, 3, true, false⟩)], [], [], [0]⟩
theorem test_operators_execute : ∀ op ∈ [0x01, 0x18, 0x20, 0x22, 0x28, 0x2C, 0x2B, 0x30, 0x34, 0x3E, 0x4C, 0x38, 0x3B, 0x39, 0x3C, 0x3D, 0x3F, 0x40, 0x48, 0x4D],
    (holding op [] []).executes (firing1 5 1) 0 = true ∧ 0 < (holding op [] []).ops.length
    ∧ ((holding op [] []).op 0).pend.length < (CfgWord.inf ((holding op [] []).word 0)).lanes := by decide +kernel
theorem test_coordinates : Quad.pickCoord true false [tok 3] [tok 3] = some (1, 1)
    ∧ Quad.coordResult true true {} 3 3 1 1 = (some 0, 1, 1) ∧ Quad.pickCoord false false [tok (2 ^ 63 + 2)] [tok 9] = some (0, 1)
    ∧ Quad.pickCoord true true [tok 1, tok 2, tok 7] [tok 5] = some (2, 0)
    ∧ (∀ t ∈ ([tok 1, tok 2, tok 7] : List Tok).take 2, t.mkr = false ∧ t.tag = 0 ∧ t.pay < 5) := by decide +kernel
-- The tests of LaneOperators on fixed values: an INT32 sum that overflows with and without SAT; the lane of R197's VCMP.
theorem test_int32_overflow : elementwise (plain 0x01) 0x0A000A00 0x7FFFFFFF 2 0 % 2 ^ 32 = 0x80000000
    ∧ elementwise (plain 0x06) 0x0A000A00 0xFFFFFFFF 1 0 % 2 ^ 32 = 1 ∧ ctlOp { plain 0x50 with mode := 1 } (2 ^ 63 - 1) 1 0 = 2 ^ 63 - 1 := by decide +kernel
/-- R208: two slots of one group, of which an IADD gives an OMERGE its in2 within the firing. -/
def choosing (sel : Nat) (a b : List Tok) : Quad :=
  let s0 : BSlot := { plain 0x50 with port := 0, nc := 1, sla := 1, opa := 2, pl := true, imm := sel }
  let s1 : BSlot := { plain 0x3A with port := 0, dly := 1 }
  let blk : Block := ⟨0, 7, true, [s0, s1], [0x0A0A0A, 0x0A0A0A], [⟨true, 3, 1, 0, 63, 0⟩], { pes := [0, 1] }⟩
  { Quad.load blk 0 with
    st := .run
    bufs := [(0, [tok 0]), (1, [tok 0]), (4, a), (5, b)] }
theorem test_omerge_takes_the_selected : (choosing 1 [tok 7] [tok 8]).members 0 = [0, 1]
    ∧ (choosing 1 [tok 7] [tok 8]).groupPicks [0, 1] = some [(0, 0, 1), (0, 1, 1)]
    ∧ (choosing 1 [tok 7] [tok 8]).mergeEarly 0 [(0, 0, 1), (0, 1, 1)] = false
    ∧ (choosing 1 [tok 7] [tok 8]).lateToks 0 0 [(0, 0, 1), (0, 1, 1)] = some [(5, tok 8)]
    ∧ (choosing 0 [tok 7] [tok 8]).lateToks 0 0 [(0, 0, 1), (0, 1, 1)] = some [(4, tok 7)]
    ∧ (choosing 1 [tok 7] []).firingPicks 0 0 = none := by decide +kernel
/-- FIPS 180-4's example: SHA-384 of "abc". -/
theorem test_sha384 : sha384Num [0x61, 0x62, 0x63]
    = 0xCB00753F45A35E8BB5A03D699AC65007272C32AB0EDED1631A8B605A43FF5BED8086072BA1E7CC2358BAECA134C825A7 := by decide +kernel
-- EncodeChannels: a frame of 16 by 16 samples that is read, and a coded frame of two bytes that is written.
def frameCmd : Cmd := lane 0x81 0 128
def framing (c : Cmd) : State :=
  (encoding c { engine := some 0, params := (opening 0).me.block128 0 }).setMe fun l => { l with
    regions := ⟨true, true, true, false, 0, [⟨true, false, 0, 0x10000, 65536⟩]⟩ :: List.replicate 15 {}
    store := writeLE (writeLE (writeLE (writeLE (writeLE [] 152 8 256) 160 8 512) 168 8 (16 + 8 * 2 ^ 32)) 176 8 0x8000) 184 8 4096 }
def bytesOf (r : Run) : Option Nat := match r with | .ok bs => some bs.length | .halt _ => none
theorem test_frame_is_read :
    let s := framing frameCmd
    let h : Channel := ⟨some frameCmd, some 0, (opening 0).me.block128 0, []⟩
    let c : Cmd := { frameCmd with
      waited := true
      st := .running
      started := true }
    s.me.channels[0]? = some h ∧ s.me.blockBad frameCmd.aux1 = none ∧ s.me.tileUnread = false
    ∧ descriptorOk (s.me.block128 frameCmd.aux1) h.params = true ∧ (s.me.frameRegions (s.me.block128 frameCmd.aux1)).isNone = true
    ∧ frameCmd.notice = none ∧ frameCmd.waitGranule = none ∧ frameCmd.fin = false
    ∧ bytesOf (((s.setCore (·.takeWaits s.stc frameCmd.waitMask)).setLane s.cur 2 (some c)).laneBytes s.cur 2 c 0
      (frameBytes (s.me.block128 frameCmd.aux1) h.params)) = some 384 := by decide +kernel
def coded : Cmd := { frameCmd with
  st := .running
  started := true
  fin := true
  ready := [7, 8] }
theorem test_frame_is_written :
    let s := framing coded
    let r := writeFrame s.cur 2 0 0x8000 coded.outn 2 s coded
    s.me.lane 2 = some coded ∧ wordAt (s.me.block128 coded.aux1) 6 = 0x8000 ∧ r.2.2 = true ∧ r.2.1.late = false
    ∧ coded.ready.length ≤ wordAt (s.me.block128 coded.aux1) 7 % 2 ^ 32 ∧ r.1.core.sts.length < 32 ∧ r.1.cur = s.cur
    ∧ r.1.core.countedNow (r.1.acStart r.1.cur) r.2.1.signalMask = false := by decide +kernel
-- LoopsBarriersTapsAndTokens: places for the tokens of STOKs.
theorem test_send_room :
    let k := moving 0x10 noneEp 0x4002001140000000
    (streaming k).sendRoom 0 k (epCtx k.ep1) (epRemotePort k.ep1) = true
    ∧ (streaming (stok xiEp)).sendRoom 0 (stok xiEp) 0 60 = true
    ∧ (controlPort (stok 0x2000000000000005)).sendRoom 0 (stok 0x2000000000000005) 0 5 = true := by decide +kernel
-- TileStoreAccess: a load in a task whose journal of tile store cannot be read.
def unreadable : Slot := { slot with
  task := some { task with pkt := { ts := 4, jnl := 1 } }
  core := { slot.core with
    jnl := true
    bank := some ⟨64, false, 0, 0⟩ }
  journalTile := [0]
  badWords := [3072] }
/-- The same with a template at 64 for M, and an index of a descriptor and of a packet. -/
def unread : State := with0 { unreadable with core := { core2 64 0 with
    jnl := true
    user := slot.core.user } }
-- StreamWordsQueueCommands, EngineWordsQueueTheirCommands, EnqueuePackets: the task restarts at the words that read tile store.
theorem test_unread_words : unread.IssuesX .m (.saff 1 1 2 false) ∧ unread.IssuesX .a (.encf 1 1 2 false) ∧ unread.IssuesX .y (.tspwn false 1 false) :=
  ⟨issuesX_of (by decide +kernel), issuesX_of (by decide +kernel), issuesX_of (by decide +kernel)⟩
theorem test_unread_clauses : unread.me.tileUnread = true ∧ unread.core.sup = false ∧ unread.core.jnl = true ∧ run.me.tileUnread = false
    ∧ answers (exec (.saff 1 1 2 false) unread) (fun t => t.me.task == none && t.draws == unread.draws + 1) = true := by
  decide +kernel
theorem test_unread_journal : unreadable.tileUnread = true ∧ answers (exec (.tileStoreBankGrant false) (with0 unreadable)) (fun t =>
    t.core.bank == none && t.wounds.any fun w => w.age == t.me.age) = true := by decide +kernel

end Sys2Proof.Tests
end

section
/-! Proofs of the statements on encodings (spec/01 R15 to R35): what an operand reads back as, what the words of an instruction unpack
to, and that decoding them gives the instruction. -/

namespace Sys2Proof.Laws.Encoding

open Sys2Proof

/-- Every instruction that stands in memory has fields that fit their places, by the law of its constructor; an event has no words. -/
theorem statement_holds (i : Instr) : Statement i := by
  cases i with
  | pfx => apply pfx | add => apply add | sub => apply sub | mul => apply mul | mulh => apply mulh | mulhu => apply mulhu
  | div => apply div | divu => apply divu | rem => apply rem | remu => apply remu | and => apply and | or => apply or
  | xor => apply xor | andn => apply andn | shl => apply shl | shr => apply shr | sar => apply sar | min => apply min
  | max => apply max | minu => apply minu | maxu => apply maxu | addi => apply addi | muli => apply muli | andi => apply andi
  | ori => apply ori | xori => apply xori | shli => apply shli | shri => apply shri | sari => apply sari | li => apply li
  | clz => apply clz | ctz => apply ctz | popc => apply popc | ext => apply ext | ins => apply ins | sel => apply sel
  | madi => apply madi | cmp => apply cmp | cmpi => apply cmpi | fcmp => apply fcmp | plog => apply plog | fadd => apply fadd
  | fsub => apply fsub | fmul => apply fmul | ffma => apply ffma | fdiv => apply fdiv | fsqrt => apply fsqrt
  | fmin => apply fmin | fmax => apply fmax | fcvtRint => apply fcvtRint | fcvtRound32 => apply fcvtRound32
  | fcvtToint => apply fcvtToint | fcvtTouint => apply fcvtTouint | fcvtFromint => apply fcvtFromint
  | fcvtFromuint => apply fcvtFromuint | fcvtTofp32 => apply fcvtTofp32 | fcvtFromfp32 => apply fcvtFromfp32
  | fcvtTofp16 => apply fcvtTofp16 | fcvtFromfp16 => apply fcvtFromfp16 | fcvtTobf16 => apply fcvtTobf16
  | fcvtFrombf16 => apply fcvtFrombf16 | fcvtToe4m3 => apply fcvtToe4m3 | fcvtFrome4m3 => apply fcvtFrome4m3
  | fcvtToe5m2 => apply fcvtToe5m2 | fcvtFrome5m2 => apply fcvtFrome5m2 | fcvtTotap8 => apply fcvtTotap8
  | fcvtFromtap8 => apply fcvtFromtap8 | fcvtTotap6 => apply fcvtTotap6 | fcvtFromtap6 => apply fcvtFromtap6
  | fmvi => apply fmvi | fmvfToS => apply fmvfToS | fmvfToF => apply fmvfToF | br => apply br | brp => apply brp
  | dbrp => apply dbrp | call => apply call | ret => apply ret | nop => apply nop | spld => apply spld | spst => apply spst
  | ldt => apply ldt | stt => apply stt | popf => apply popf | pushf => apply pushf | sysr => apply sysr | sysw => apply sysw
  | syswSlipwin => apply syswSlipwin | syswTrappcS => apply syswTrappcS | syswTstatus => apply syswTstatus | trap => apply trap
  | tret => apply tret | saff => apply saff | saffw => apply saffw | sind => apply sind | sindw => apply sindw
  | srec => apply srec | sfill => apply sfill | smc => apply smc | sgrow => apply sgrow | sred => apply sred
  | satm => apply satm | scpy => apply scpy | sbar => apply sbar | swinDecl => apply swinDecl | swinTake => apply swinTake
  | swinGive => apply swinGive | stap => apply stap | sfilt => apply sfilt | smeta => apply smeta | stok => apply stok
  | sclose => apply sclose | sqryCommand => apply sqryCommand | sqryWindrow => apply sqryWindrow | sdesc => apply sdesc
  | acfg => apply acfg | arun => apply arun | adrn => apply adrn | aqui => apply aqui | amrk => apply amrk | aprt => apply aprt
  | chbd => apply chbd | chord => apply chord | chrun => apply chrun | chsv => apply chsv | chld => apply chld
  | enco => apply enco | encf => apply encf | encc => apply encc | evsig => apply evsig | evwait => apply evwait
  | evclr => apply evclr | bari => apply bari | bara => apply bara | barw => apply barw | barq => apply barq
  | fence => apply fence | acq => apply acq | rel => apply rel | tenq => apply tenq | tend => apply tend | tyld => apply tyld
  | tspwn => apply tspwn | tpollTask => apply tpollTask | tpollDie => apply tpollDie | lkprb => apply lkprb
  | stamp => apply stamp | dln => apply dln | diag => apply diag
  | _ => rintro _ ⟨⟩

/-- R16, R21: the two words hold every field, and unpacking them gives the fields back. -/
theorem unpack_pack {f : Fields} (hf : Bounded f) (himm : f.ls ≠ 1 → f.imm = 0) : unpack (pack f).1 (pack f).2 = f := by
  obtain ⟨hls, htag, hop, hlat, hd, ha, hb, hg, hi⟩ := hf
  obtain ⟨ls, tag, op, lat, d, a, b, g, imm⟩ := f
  dsimp only at *
  have hw : (pack ⟨ls, tag, op, lat, d, a, b, g, imm⟩).1 =
    ls + tag * 4 + op * 32 + lat * 8192 + g * 65536 + b * 131072 + a * 4194304 + d * 134217728 := rfl
  have h4 : (pack ⟨ls, tag, op, lat, d, a, b, g, imm⟩).1 % 4 = ls := by omega
  have hx : (if ls = 1 then imm % 4294967296 else 0) = imm := by
    split
    · omega
    · next h => exact (himm h).symm
  rw [unpack, h4, Fields.mk.injEq]
  exact ⟨rfl, by omega, by omega, by omega, by omega, by omega, by omega, by omega, hx⟩

/-- R24: where fields have no second word, none is stored, and it unpacks as it would from the packed one. -/
theorem decode_of_fields {i : Instr} {f : Fields} (hf : encodeFields i = some f) :
    decode (pack f).1 ((if f.ls = 1 then some (pack f).2 else none).getD 0) = decodeFields f := by
  obtain ⟨hb, -, himm⟩ := statement_holds i f hf
  have hx : (if f.ls = 1 then some (pack f).2 else none).getD 0 = (pack f).2 := by
    by_cases h : f.ls = 1
    · rw [if_pos h]; rfl
    · rw [if_neg h]; exact (himm h).symm
  rw [decode, hx, unpack_pack hb himm]

/-! ### Checks that an encoded field passes -/

section
variable (k : Except Reject Instr)
@[simp] theorem short_ls_zero (tag op lat d a b g imm : Nat) : short ⟨0, tag, op, lat, d, a, b, g, imm⟩ k = k := rfl
@[simp] theorem long_ls_one (tag op lat d a b g imm : Nat) : long ⟨1, tag, op, lat, d, a, b, g, imm⟩ k = k := rfl
@[simp] theorem unused_zero : unused 0 k = k := rfl
@[simp] theorem noLat_zero : noLat 0 k = k := rfl
@[simp] theorem below_val {n : Nat} (r : Fin n) : below n r.val k = k := if_pos r.isLt
@[simp] theorem below_toNat (b : Bool) : below 2 b.toNat k = k := if_pos b.toNat_lt
end

/-! ### Operands read back -/

@[simp] theorem reg5_val (r : Fin 32) : reg5 r.val = r := Fin.ofNat_val_eq_self r
@[simp] theorem reg4_val (r : Fin 16) : reg4 r.val = r := Fin.ofNat_val_eq_self r
@[simp] theorem reg3_val (r : Fin 8) : reg3 r.val = r := Fin.ofNat_val_eq_self r
@[simp] theorem reg2_val (r : Fin 4) : reg2 r.val = r := Fin.ofNat_val_eq_self r
@[simp] theorem bit_toNat (g : Bool) : bit g.toNat = g := by cases g <;> rfl

/-- An operand reads back from a field that holds it in its low bits. -/
theorem ofNat_eq_of_mod {n v : Nat} [NeZero n] {r : Fin n} (h : v % n = r.val) : Fin.ofNat n v = r := Fin.ext h
theorem bit_eq_of_mod {v : Nat} {b : Bool} (h : v % 2 = b.toNat) : bit v = b := by
  rw [bit, h]; cases b <;> rfl

/-- R65: a condition stands above the predicate of its field. -/
theorem reg2_condition (c : Fin 4) (p : PReg) : reg2 ((c.val * 8 + p.val) / 8) = c := ofNat_eq_of_mod (by omega)
theorem reg3_predicate (c : Fin 4) (p : PReg) : reg3 (c.val * 8 + p.val) = p := ofNat_eq_of_mod (by omega)

/-- R67: an operand of PLOG has its inversion in the top bit and leaves bit 3 unused. -/
theorem bit_inversion (i : Bool) (x : PReg) : bit ((i.toNat * 16 + x.val) / 16) = i :=
  bit_eq_of_mod (by have := i.toNat_lt; omega)
theorem reg3_inverted (i : Bool) (x : PReg) : reg3 (i.toNat * 16 + x.val) = x := ofNat_eq_of_mod (by omega)
theorem inverted_unused (i : Bool) (x : PReg) : (i.toNat * 16 + x.val) / 8 % 2 = 0 := by omega

/-- R60: SH stands in B and G. -/
theorem ofNat_shift (sh : Fin 64) : Fin.ofNat 64 (sh.val / 2 * 2 + sh.val % 2) = sh := ofNat_eq_of_mod (by omega)

/-- R82: CLS and the entry of spill memory stand in A and B. -/
theorem bit_spillClass (cls : Bool) (slot : Fin 512) : bit ((cls.toNat * 16 + slot.val / 32) / 16) = cls :=
  bit_eq_of_mod (by have := cls.toNat_lt; omega)
theorem ofNat_spillEntry (cls : Bool) (slot : Fin 512) :
    Fin.ofNat 512 ((cls.toNat * 16 + slot.val / 32) * 32 + slot.val % 32) = slot := ofNat_eq_of_mod (by omega)

/-- R89: the number of a system register stands in A and B. -/
theorem ofNat_sysNumber (sys : Fin 1024) : Fin.ofNat 1024 (sys.val / 32 * 32 + sys.val % 32) = sys := ofNat_eq_of_mod (by omega)

/-- R75: the offset of a branch stands in D, A and the top of B; its N and its predicate stand below it. -/
theorem ofNat_branchOffset (off : Fin 4096) (n : Bool) (p : PReg) :
    Fin.ofNat 4096 (off.val / 128 * 128 + off.val / 4 % 32 * 4 + (off.val % 4 * 8 + n.toNat * 4 + p.val / 2) / 8) = off :=
  ofNat_eq_of_mod (by have := n.toNat_lt; omega)
theorem bit_branchSense (off : Fin 4096) (n : Bool) (p : PReg) :
    bit ((off.val % 4 * 8 + n.toNat * 4 + p.val / 2) / 4) = n := bit_eq_of_mod (by have := n.toNat_lt; omega)
theorem reg3_branchPredicate (off : Fin 4096) (n : Bool) (p : PReg) :
    reg3 ((off.val % 4 * 8 + n.toNat * 4 + p.val / 2) % 4 * 2 + p.val % 2) = p := ofNat_eq_of_mod (by omega)

/-- R78: the offset of DBRP stands in A, B and G. -/
theorem ofNat_countedOffset (off : Fin 2048) : Fin.ofNat 2048 (off.val / 64 * 64 + off.val / 2 % 32 * 2 + off.val % 2) = off :=
  ofNat_eq_of_mod (by omega)

/-- R179: the second word of SWIN decl holds CNT and SZ, and nothing else. -/
theorem swinDecl_imm (cnt : Fin 256) (sz : Fin 2048) :
    let v := cnt.val * 65536 + sz.val
    v / 2 ^ 30 = 0 ∧ v / 2 ^ 24 % 64 = 0 ∧ v / 2 ^ 11 % 32 = 0 ∧ Fin.ofNat 256 (v / 65536) = cnt ∧ Fin.ofNat 2048 v = sz :=
  ⟨by omega, by omega, by omega, ofNat_eq_of_mod (by omega), ofNat_eq_of_mod (by omega)⟩

/-- R179: that of SWIN take and give holds their mode and CNT. -/
theorem swinMove_imm (mode : Nat) (cnt : Fin 256) :
    let v := mode * 2 ^ 30 + cnt.val * 65536
    v / 2 ^ 30 = mode ∧ v / 2 ^ 24 % 64 = 0 ∧ v / 2 ^ 11 % 32 = 0 ∧ v % 2048 = 0 ∧ Fin.ofNat 256 (v / 65536) = cnt :=
  ⟨by omega, by omega, by omega, by omega, ofNat_eq_of_mod (by omega)⟩

/-! ### Fields decode to the instruction that they encode -/

/-- Decoding comes to an arm of one word (by `rfl`, where the opcode is a numeral), and the checks of the arm pass. -/
theorem decodeFields_of_short {f : Fields} {k : Except Reject Instr} {i : Instr} (hf : decodeFields f = short f k) (hls : f.ls = 0)
    (hk : k = .ok i) : decodeFields f = .ok i := by rw [hf, short, if_pos hls, hk]

/-- The same for an arm of two words. -/
theorem decodeFields_of_long {f : Fields} {k : Except Reject Instr} {i : Instr} (hf : decodeFields f = long f k) (hls : f.ls = 1)
    (hk : k = .ok i) : decodeFields f = .ok i := by rw [hf, long, if_pos hls, hk]

/-- R25: a prefix holds FTZ, SAT and RM in the five low bits of OP. -/
theorem decodeFields_pfx (ftz sat : Bool) (rm tag : Fin 8) :
    decodeFields ⟨2, tag.val, ftz.toNat * 16 + sat.toNat * 8 + rm.val, 0, 0, 0, 0, 0, 0⟩ = .ok (.pfx ftz sat rm tag) := by
  have hf := ftz.toNat_lt
  have hs := sat.toNat_lt
  have hop : ftz.toNat * 16 + sat.toNat * 8 + rm.val < 32 := by omega
  have hftz : bit ((ftz.toNat * 16 + sat.toNat * 8 + rm.val) / 16) = ftz := bit_eq_of_mod (by omega)
  have hsat : bit ((ftz.toNat * 16 + sat.toNat * 8 + rm.val) / 8) = sat := bit_eq_of_mod (by omega)
  have hrm : reg3 (ftz.toNat * 16 + sat.toNat * 8 + rm.val) = rm := ofNat_eq_of_mod (by omega)
  simp only [decodeFields, decodePfx, below, if_pos hop, unused_zero, hftz, hsat, hrm, reg3_val]

/-- R90: a SYSW decodes as such when its number is not that of a register with an opcode row of its own. -/
theorem decodeFields_sysw (d : SReg) (sys : Fin 1024) (g : Bool) (h1 : sys.val ≠ 1) (h7 : sys.val ≠ 7) (h15 : sys.val ≠ 15) :
    decodeFields ⟨0, 0, 0x51, 0, d.val, sys.val / 32, sys.val % 32, g.toNat, 0⟩ = .ok (.sysw d sys g) := by
  have hk : sys.val / 32 * 32 + sys.val % 32 = sys.val := by omega
  have hs : Fin.ofNat 1024 sys.val = sys := Fin.ofNat_val_eq_self sys
  simp only [decodeFields, decodeS, hk, hs, short_ls_zero, noLat_zero, reg5_val, bit_toNat]

/-- The numbers that a well-formed SYSW names are none of those of its three other rows (R90). -/
theorem sysw_number {d : SReg} {sys : Fin 1024} {g : Bool} (hw : (Instr.sysw d sys g).wf = true) :
    sys.val ≠ 1 ∧ sys.val ≠ 7 ∧ sys.val ≠ 15 := by
  simp [Instr.wf, Instr.fieldsOk] at hw
  omega

/-- The tables of decodeFields and encodeFields agree, row by row. -/
theorem decodeFields_encodeFields {i : Instr} {f : Fields} (hw : i.wf = true) (hf : encodeFields i = some f) :
    decodeFields f = .ok i := by
  cases i with
  | pfx => cases hf; exact decodeFields_pfx ..
  | sysw =>
    obtain ⟨h1, h7, h15⟩ := sysw_number hw
    cases hf; exact decodeFields_sysw _ _ _ h1 h7 h15
  | swinDecl d a cnt sz g =>
    obtain ⟨hmode, h24, h11, hcnt, hsz⟩ := swinDecl_imm cnt sz
    cases hf
    simp only [decodeFields, decodeM, hmode, h24, h11, hcnt, hsz, long_ls_one, unused_zero, noLat_zero, below_val, reg4_val,
      reg5_val, bit_toNat]
  | swinTake d cnt g =>
    obtain ⟨hmode, h24, h11, h0, hcnt⟩ := swinMove_imm 1 cnt
    cases hf
    simp only [decodeFields, decodeM, hmode, h24, h11, h0, hcnt, long_ls_one, unused_zero, noLat_zero, below_val, reg4_val, bit_toNat]
  | swinGive d cnt g =>
    obtain ⟨hmode, h24, h11, h0, hcnt⟩ := swinMove_imm 2 cnt
    cases hf
    simp only [decodeFields, decodeM, hmode, h24, h11, h0, hcnt, long_ls_one, unused_zero, noLat_zero, below_val, reg4_val, bit_toNat]
  | shli | shri | sari =>
    cases hf; exact decodeFields_of_short rfl rfl (by simp only [short_ls_zero, reg5_val, reg3_val, ofNat_shift])
  | cmp | fcmp => cases hf; exact decodeFields_of_short rfl rfl (by simp [reg2_condition, reg3_predicate])
  | cmpi => cases hf; exact decodeFields_of_long rfl rfl (by simp [reg2_condition, reg3_predicate])
  | plog =>
    cases hf; exact decodeFields_of_short rfl rfl (by
      simp [reg2_condition, reg3_predicate, bit_inversion, reg3_inverted, inverted_unused])
  | br | brp =>
    cases hf; exact decodeFields_of_short rfl rfl (by
      simp only [short_ls_zero, noLat_zero, ofNat_branchOffset, bit_branchSense, reg3_branchPredicate])
  | dbrp => cases hf; exact decodeFields_of_short rfl rfl (by simp only [short_ls_zero, reg5_val, reg3_val, ofNat_countedOffset])
  | spld | spst =>
    cases hf; exact decodeFields_of_short rfl rfl (by
      simp only [short_ls_zero, noLat_zero, reg5_val, reg3_val, bit_toNat, bit_spillClass, ofNat_spillEntry])
  | sysr => cases hf; exact decodeFields_of_short rfl rfl (by simp only [short_ls_zero, reg5_val, reg3_val, bit_toNat, ofNat_sysNumber])
  | addi | muli | andi | ori | xori | li | ext | ins | madi | fmvi | call | sfill | stok | acfg | chord | bari | dln =>
    cases hf; exact decodeFields_of_long rfl rfl (by simp)
  | _ => cases hf <;> exact decodeFields_of_short rfl rfl (by simp)

/-- Settles O4: the words hold the fields of the instruction, and its fields decode to it. -/
theorem decodeOfEncode : Obligations.DecodeOfEncode := by
  intro i w x hw he
  unfold encode at he
  split at he
  · next f hf =>
    cases he
    exact (decode_of_fields hf).trans (decodeFields_encodeFields hw hf)
  · cases he

/-- Settles O1: each word is decoded as it stands. -/
theorem wordsOfTheSpecDecode : Obligations.WordsOfTheSpecDecode := by
  unfold Obligations.WordsOfTheSpecDecode
  decide

end Sys2Proof.Laws.Encoding
end

section
/-! Proofs on guarded words (spec/01 R22): every word is issued by the shared operation of its head, which goes past it when its guard is
false. -/

namespace Sys2Proof.Machine

/-! ### Every word issues through the shared operation of its head -/

section
variable (s : State) (i : Instr)

theorem State.issueResult_eq_issueS (cls : Nat) (val : State → Word) : ∃ hold body, s.issueResult i cls val = s.issueS i hold body :=
  ⟨_, _, rfl⟩
theorem State.binary_eq_issueS (a b : SReg) (lat : Fin 8) (f : Mods → Word → Word → Word) :
    ∃ hold body, s.binary i a b lat f = s.issueS i hold body := s.issueResult_eq_issueS i _ _
theorem State.unary_eq_issueS (a : SReg) (lat : Fin 8) (f : Mods → Word → Word) :
    ∃ hold body, s.unary i a lat f = s.issueS i hold body := s.issueResult_eq_issueS i _ _
theorem State.fbinary_eq_issueS (a b : FReg) (lat : Fin 8) (f : Mods → Word → Word → Word) :
    ∃ hold body, s.fbinary i a b lat f = s.issueS i hold body := s.issueResult_eq_issueS i _ _
theorem State.funary_eq_issueS (a : FReg) (lat : Fin 8) (f : Mods → Word → Word) :
    ∃ hold body, s.funary i a lat f = s.issueS i hold body := s.issueResult_eq_issueS i _ _
theorem State.divide_eq_issueS (a b : SReg) (lat : Fin 8) (f : Word → Word → Word) :
    ∃ hold body, s.divide i a b lat f = s.issueS i hold body := ⟨_, _, rfl⟩
theorem State.supWrite_eq_issueS (k : Nat) (f : State → State) : ∃ hold body, s.supWrite i k f = s.issueS i hold body := ⟨_, _, rfl⟩

theorem State.queueStream_eq_issueX (d : HReg) (a : SReg) (edit : Core → Vector Word 16 → Vector Word 16) :
    ∃ body, s.queueStream i d a edit = s.issueX .m i body := ⟨_, rfl⟩
theorem State.queueEngine_eq_issueX (b : SReg) (kind : Nat) (check : State → Option (Nat × Word))
    (fields : State → List (Nat × Word)) : ∃ body, s.queueEngine i b kind check fields = s.issueX .a i body := ⟨_, rfl⟩
theorem State.answer_eq_issueX (w : State → Word) : ∃ body, s.answer i w = s.issueX .y i body := ⟨_, rfl⟩
end

/-- R53: an S instruction is issued by State.issueS, but for CALL and RET, which record their outcome, and a prefix. -/
theorem exec_eq_issueS {i : Instr} (hs : i.head? = some .s) (hcall : ∀ d a imm g lat, i ≠ .call d a imm g lat)
    (hret : ∀ a g, i ≠ .ret a g) (hpfx : ∀ ftz sat rm tag, i ≠ .pfx ftz sat rm tag) (s : State) :
    ∃ hold body, exec i s = s.issueS i hold body := by
  cases i with
  | call d a imm g lat => exact absurd rfl (hcall d a imm g lat)
  | ret a g => exact absurd rfl (hret a g)
  | pfx ftz sat rm tag => exact absurd rfl (hpfx ftz sat rm tag)
  | add | sub | mul | mulh | mulhu | and | or | xor | andn | shl | shr | sar | min | max | minu | maxu | madi | cmp =>
    dsimp only [exec]; exact State.binary_eq_issueS ..
  | addi | muli | andi | ori | xori | shli | shri | sari | clz | ctz | popc | ext | cmpi | fcvtFromint | fcvtFromuint
    | fcvtFromfp32 | fcvtFromfp16 | fcvtFrombf16 | fcvtFrome4m3 | fcvtFrome5m2 | fcvtFromtap8 | fcvtFromtap6 | fmvfToF =>
    dsimp only [exec]; exact State.unary_eq_issueS ..
  | fadd | fsub | fmul | fdiv | fmin | fmax | fcmp => dsimp only [exec]; exact State.fbinary_eq_issueS ..
  | fsqrt | fcvtRint | fcvtRound32 | fcvtToint | fcvtTouint | fcvtTofp32 | fcvtTofp16 | fcvtTobf16 | fcvtToe4m3 | fcvtToe5m2
    | fcvtTotap8 | fcvtTotap6 | fmvfToS => dsimp only [exec]; exact State.funary_eq_issueS ..
  | li | ins | sel | plog | ffma | fmvi | spld => dsimp only [exec]; exact State.issueResult_eq_issueS ..
  | div | divu | rem | remu => dsimp only [exec]; exact State.divide_eq_issueS ..
  | sysw | syswTrappcS => dsimp only [exec]; exact State.supWrite_eq_issueS ..
  | br | brp | dbrp | nop | spst | ldt | stt | popf | pushf | sysr | syswSlipwin | syswTstatus | trap | tret =>
    dsimp only [exec]; exact ⟨_, _, rfl⟩
  | _ => cases hs

/-- R102: a word of a trailing head is issued by State.issueX, but for TEND and TYLD, at which S stands too, DIAG and a prefix. -/
theorem exec_eq_issueX {i : Instr} {h : Head} (hi : i.head? = some h) (hne : h ≠ .s) (hdiag : ∀ g, i ≠ .diag g)
    (htend : ∀ a g, i ≠ .tend a g) (htyld : ∀ g, i ≠ .tyld g) (hpfx : ∀ ftz sat rm tag, i ≠ .pfx ftz sat rm tag) (s : State) :
    ∃ body, exec i s = s.issueX h i body := by
  cases i with
  | diag g => exact absurd rfl (hdiag g)
  | tend a g => exact absurd rfl (htend a g)
  | tyld g => exact absurd rfl (htyld g)
  | pfx ftz sat rm tag => exact absurd rfl (hpfx ftz sat rm tag)
  | saff | saffw | sind | sindw | srec | sfill | smc | sgrow | sred | satm | scpy | sbar | stap | sfilt | smeta | stok | sdesc =>
    cases hi; dsimp only [exec]; exact State.queueStream_eq_issueX ..
  | swinDecl | swinTake | swinGive =>
    cases hi; dsimp only [exec, execSwinDecl, execSwinTake, execSwinGive]; exact ⟨_, rfl⟩
  | sclose | sqryCommand | sqryWindrow | chbd => cases hi; dsimp only [exec]; exact ⟨_, rfl⟩
  | acfg | arun | adrn | aqui | amrk | aprt | chord | chrun | chsv | chld | enco | encf | encc =>
    cases hi; dsimp only [exec]; exact State.queueEngine_eq_issueX ..
  | tpollTask | tpollDie => cases hi; dsimp only [exec]; exact State.answer_eq_issueX ..
  | evsig | evwait | evclr | bari | bara | barw | barq | fence | acq | rel | tenq | tspwn | lkprb | stamp | dln =>
    cases hi; dsimp only [exec]; exact ⟨_, rfl⟩
  | _ => cases hi <;> exact absurd rfl hne

/-- A prefix has no guard (R26). -/
theorem ne_pfx_of_guard {i : Instr} (hg : i.guard = true) (ftz sat : Bool) (rm tag : Fin 8) : i ≠ .pfx ftz sat rm tag := by
  rintro rfl
  cases hg

/-- Settles O28: each head's shared operation goes past a word whose guard is false. -/
theorem guardedOff : Obligations.GuardedOff := by
  refine ⟨?_, ?_⟩
  · intro s i hs hg hcall hret hskip
    obtain ⟨hold, body, h⟩ := exec_eq_issueS hs hcall hret (ne_pfx_of_guard hg) s
    rw [h, State.issueS_skips hold body hskip]
  · intro s i h hi hne hg hdiag htend htyld hskip
    obtain ⟨body, hx⟩ := exec_eq_issueX hi hne hdiag htend htyld (ne_pfx_of_guard hg) s
    rw [hx, State.issueX_skips body hskip]

end Sys2Proof.Machine
end

section
/-! Proofs of the statements on prefixes and DIAG (spec/01 R25 to R29, R35). -/

namespace Sys2Proof.Machine

/-- R25: the head that a prefix of a tag goes with. -/
def prefixHead (tag : Fin 8) : Head := if tag = 0 then .s else if tag = 1 then .m else .a

/-- The word at an arena offset, or zero where none can be fetched. -/
def State.fetchedWord (s : State) (off : Nat) : Nat := match s.fetch s.cur off with | .word w => w | _ => 0

theorem State.fetchedWord_eq {s : State} {off w : Nat} (h : s.fetch s.cur off = .word w) : s.fetchedWord off = w := by
  simp only [State.fetchedWord, h]

/-- R29: a target accepts the modifiers that a prefix sets. -/
def Admits (rm : Fin 8) (sat ftz r u f : Bool) : Prop := (rm ≠ 0 → r = true) ∧ (sat = true → u = true) ∧ (ftz = true → f = true)

theorem admits_iff {rm : Fin 8} {sat ftz r u f : Bool} :
    Admits rm sat ftz r u f ↔ ((rm != 0 && !r) || (sat && !u) || (ftz && !f)) = false := by
  simp [Admits, and_assoc]

/-! ### What a prefix does with what its scan finds -/

section
variable {s : State} {tag : Fin 8} {dist : Nat} {i : Instr} {r u f : Bool} {h : Head} (ftz sat : Bool) (rm : Fin 8)
  (hh : h = prefixHead tag)
include hh

/-- R29: a modifier that the target refuses is an illegal encoding of the prefix. -/
theorem exec_pfx_refused (hscan : s.scan tag.val ((s.arena s.cur).2 / 4) (s.core.path.pc h + 4) 1 = .target dist i)
    (hacc : accepts i = some (r, u, f)) (hmods : ¬ Admits rm sat ftz r u f) : exec (.pfx ftz sat rm tag) s =
      .next (s.illegal h (s.fetchedWord (s.core.path.pc h)) 0) := by
  rw [admits_iff, Bool.not_eq_false] at hmods
  subst hh
  show execPfx ftz sat rm tag s = _
  unfold execPfx
  dsimp only
  unfold prefixHead at hscan
  rw [hscan]
  simp only [hacc, hmods, if_true]
  rfl

/-- R28: where the target accepts the modifiers, S goes by as the slip window lets it, and a trailing head moves to a target that S has
passed. -/
theorem exec_pfx_accepted (hscan : s.scan tag.val ((s.arena s.cur).2 / 4) (s.core.path.pc h + 4) 1 = .target dist i)
    (hacc : accepts i = some (r, u, f)) (hmods : Admits rm sat ftz r u f) : exec (.pfx ftz sat rm tag) s =
      if h = .s then
        if s.core.slipOk 1 = true then .next (s.setCore (·.passPrefix rm.val sat ftz dist)) else .next s
      else if s.core.path.lag h ≤ dist then .next s
      else .next (s.setCore (·.armAt h rm.val sat ftz dist)) := by
  rw [admits_iff] at hmods
  subst hh
  show execPfx ftz sat rm tag s = _
  unfold execPfx
  dsimp only
  unfold prefixHead at hscan
  rw [hscan]
  simp only [hacc, hmods, Bool.false_eq_true, if_false]
  rfl

/-- R27: a scan that ends without a target is an orphan. -/
theorem exec_pfx_orphan {w off : Nat}
    (hscan : s.scan tag.val ((s.arena s.cur).2 / 4) (s.core.path.pc h + 4) 1 = .orphan w off) :
    exec (.pfx ftz sat rm tag) s = .next (s.syncTrap h 0x02 (BitVec.ofNat 64 (w % 2 ^ 32 + off * 2 ^ 32))) := by
  subst hh
  show execPfx ftz sat rm tag s = _
  unfold execPfx
  dsimp only
  unfold prefixHead at hscan
  rw [hscan]
  rfl
end

/-! ### What a prefix leaves in the core -/

theorem Core.path_armAt (c : Core) (h : Head) (rm : Nat) (sat ftz : Bool) (dist : Nat) : (c.armAt h rm sat ftz dist).path =
    (c.path.setPc h (c.path.pc h + 4 * dist)).setLag h (c.path.lag h - dist) := c.path_setPath _

theorem Core.arm_armAt (c : Core) (h : Head) (rm : Nat) (sat ftz : Bool) (dist : Nat) :
    (c.armAt h rm sat ftz dist).arm = some ⟨h, rm, sat, ftz, c.path.pc h, dist⟩ := rfl

theorem Path.pc_setLag (p : Path) (h k : Head) (v : Nat) : (p.setLag h v).pc k = p.pc k := by cases h <;> cases k <;> rfl
theorem Path.pc_setPc_same (p : Path) (h : Head) (v : Nat) : (p.setPc h v).pc h = v := by cases h <;> rfl
/-- A trailing head moves without S. -/
theorem Path.pcS_setPc (p : Path) {h : Head} (v : Nat) (hne : h ≠ .s) : (p.setPc h v).pcS = p.pcS := by
  cases h with
  | s => exact absurd rfl hne
  | _ => rfl

/-- R28: S has stepped past the prefix and keeps the modifiers for the target; nothing has issued. -/
theorem State.passPrefix_core {s : State} {rm : Nat} {sat ftz : Bool} {dist : Nat} :
    let t := s.setCore (·.passPrefix rm sat ftz dist)
    t.core.path.pfx = some ⟨rm, sat, ftz, s.core.path.pcS, s.core.path.pcS + 4 * dist⟩ ∧ t.core.path.pcS = s.core.path.pcS + 4
      ∧ t.core.arm = s.core.arm ∧ t.core.flights = s.core.flights ∧ t.core.cycle = s.core.cycle := by
  simp [Core.passPrefix, Path.passS]

/-- R28: a trailing head stands at the target with the modifiers, and S where it stood. -/
theorem State.armAt_core {s : State} {h : Head} {rm : Nat} {sat ftz : Bool} {dist : Nat} (hne : h ≠ .s) :
    let t := s.setCore (·.armAt h rm sat ftz dist)
    t.core.arm = some ⟨h, rm, sat, ftz, s.core.path.pc h, dist⟩ ∧ t.core.path.pc h = s.core.path.pc h + 4 * dist
      ∧ t.core.path.pcS = s.core.path.pcS := by
  have hs (p : Path) : p.pcS = p.pc .s := rfl
  simp only [State.setCore_eq, State.core_eq, State.setSlot_cur, State.slotAt_setSlot_same, Slot.setCore_core, Core.arm_armAt,
    Core.path_armAt, Path.pc_setLag, Path.pc_setPc_same, hs, true_and]
  exact Path.pcS_setPc _ _ hne

/-- R35: what DIAG comes to when nothing holds it back. -/
theorem exec_diag {s : State} {g : Bool} (hi : s.IssuesX .y (.diag g)) : exec (.diag g) s =
    if s.core.diagen = true then .next (s.finishX .y 1) else .next (s.illegal .y (s.fetchedWord (s.core.path.pc .y)) 0) := by
  have hlag : ¬ s.core.path.lag .y < s.core.path.left .y 1 := by
    obtain ⟨hstall, -⟩ := hi
    simp only [State.stalledX, Bool.or_eq_false_iff, decide_eq_false_iff_not] at hstall
    obtain ⟨⟨⟨hlag, -⟩, -⟩, -⟩ := hstall
    exact hlag
  show execDiag g s = _
  unfold execDiag
  rw [if_neg hlag, State.issueX_issues _ hi]
  cases s.core.diagen <;> rfl

/-- Settles O27, by what a prefix does with each outcome of its scan. -/
theorem prefixAndDiag : Obligations.PrefixAndDiag := by
  refine ⟨?_, ?_, ?_, ?_, ?_⟩
  · intro s ftz sat rm tag dist i r u f h pc hscan hacc
    have hh : h = prefixHead tag := rfl
    clear_value h
    have hgo : Admits rm sat ftz r u f → _ := exec_pfx_accepted ftz sat rm hh hscan hacc
    have hpc : h = .s → pc = s.core.path.pcS := fun hs => congrArg s.core.path.pc hs
    refine ⟨?_, ?_, ?_, ?_, ?_⟩
    · intro hmods hs hslip
      rw [hgo hmods, if_pos hs, if_pos hslip, hpc hs]
      exact ⟨_, rfl, State.passPrefix_core⟩
    · intro hmods hs hslip
      rw [hgo hmods, if_pos hs, if_neg (Bool.eq_false_iff.mp hslip)]
    · intro hmods hs hlag
      rw [hgo hmods, if_neg hs, if_neg (Nat.not_le.mpr hlag)]
      exact ⟨_, rfl, State.armAt_core hs⟩
    · intro hmods hs hlag
      rw [hgo hmods, if_neg hs, if_pos hlag]
    · intro hmods
      exact ⟨_, exec_pfx_refused ftz sat rm hh hscan hacc hmods, fun _ hw => State.fetchedWord_eq hw⟩
  · intro s ftz sat rm tag w off h hscan
    exact exec_pfx_orphan ftz sat rm rfl hscan
  · intro c q hq
    simp only [Core.mods, hq]
  · intro s q hq
    rw [State.core_eq] at hq
    simp only [State.nextS, hq]
  · intro s g hi
    refine ⟨fun hd => ?_, fun hd => ⟨s.fetchedWord (s.core.path.pc .y), ?_⟩⟩
    · rw [exec_diag hi, if_pos hd]
    · rw [exec_diag hi, if_neg (Bool.eq_false_iff.mp hd)]

end Sys2Proof.Machine
end

section
/-! Proofs of the statements on the word a head meets: an illegal word traps (spec/01 R18, R26, R31), and a decoded instruction runs (R17,
R24, R28). -/

namespace Sys2Proof.Machine

/-! ### What a head meets where nothing holds it -/

/-- R31: a word that is an illegal encoding at the head that executes it: of LS 11 or TAG 1xx, or a prefix that R26 refuses. -/
def illegalAnywhere (w : Nat) : Prop := w % 4 = 3 ∨ 4 ≤ wordTag w ∨ (w % 4 = 2 ∧ prefixBad w = true)

/-- R16, R24: x is the second word at the address behind one, or zero where the word there has none. -/
structure State.Second (s : State) (off w x : Nat) : Prop where
  long : w % 4 = 1 → s.fetch s.cur off = .word x
  short : w % 4 ≠ 1 → x = 0

/-- A head reads the second word of one that it is to execute, and of one that belongs to no head. -/
theorem State.Second.fetched {s : State} {pc w x : Nat} {h : Head} (hx : s.Second (pc + 4) w x)
    (hown : w % 4 = 1 → wordTag w = headCode h ∨ 4 ≤ wordTag w) :
    (if w % 4 = 1 ∧ ((wordTag w == headCode h) = true ∨ 4 ≤ wordTag w) then s.fetch s.cur (pc + 4) else .word 0) = .word x := by
  by_cases h1 : w % 4 = 1
  · rw [if_pos ⟨h1, by simpa using hown h1⟩, hx.long h1]
  · rw [if_neg fun hc => h1 hc.1, hx.short h1]

section
variable {s : State} {h : Head} {pc w x : Nat} (hx : s.Second (pc + 4) w x)
include hx

/-- R18, R26, R31: a word that no head executes traps. -/
theorem State.meet_illegal (hbad : illegalAnywhere w) : s.meet h pc w = .moved (s.illegal h w x) := by
  have hlong : w % 4 = 1 → wordTag w = headCode h ∨ 4 ≤ wordTag w := by
    intro h1
    obtain h3 | h4 | ⟨h2, -⟩ := hbad
    · omega
    · exact Or.inr h4
    · omega
  unfold State.meet
  dsimp only
  rw [hx.fetched hlong]
  exact if_pos hbad

/-- R31: so does a word of the head's own that does not decode, or fails a check of its fields. -/
theorem State.meet_undecoded (hown : wordTag w = headCode h) (hbad : ∀ i, decode w x = .ok i → i.wf = false) :
    s.meet h pc w = .moved (s.illegal h w x) := by
  by_cases hill : illegalAnywhere w
  · exact s.meet_illegal hx hill
  · unfold State.meet
    dsimp only
    rw [hx.fetched fun _ => Or.inl hown]
    refine (if_neg hill).trans ((if_neg (by simp [hown])).trans ?_)
    cases hd : decode w x with
    | error => rfl
    | ok i => exact if_neg (Bool.eq_false_iff.mp (hbad i hd))

/-- R17, R18: a word of the head's own that decodes to a well-formed instruction starts its unit. -/
theorem State.meet_decoded {i : Instr} (hown : wordTag w = headCode h) (hls : w % 4 ≠ 3) (hpfx : w % 4 ≠ 2)
    (hdec : decode w x = .ok i) (hwf : i.wf = true) : s.meet h pc w = s.startUnit h i := by
  have htag : ¬ 4 ≤ wordTag w := by rw [hown]; cases h <;> decide
  have hill : ¬ illegalAnywhere w := by rintro (h3 | h4 | ⟨h2, -⟩) <;> contradiction
  unfold State.meet
  dsimp only
  rw [hx.fetched fun _ => Or.inl hown]
  refine (if_neg hill).trans ((if_neg (by simp [hown])).trans ?_)
  rw [hdec]
  exact if_pos hwf
end

/-- R28, R101, R103: a head that nothing holds meets the word at its program counter. A trailing head has that many words to go up to S,
or is Y, which has come to the TEND or TYLD at which S stands. -/
theorem State.look_eq_meet {s : State} {h : Head} {w : Nat} (hstage : s.me.stage = .running) (hbeat : s.offBeat s.cur = false)
    (hbank : h = .s → s.core.bank = none)
    (hx : h ≠ .s → s.core.path.lost h = none ∧ (s.core.path.replay.isSome = true → 1 < s.core.path.whole h)
      ∧ (s.core.path.left h (wordLen w) ≤ s.core.path.lag h ∨ (h = .y ∧ endsTask w = true ∧ s.core.path.together = true)))
    (hword : s.fetch s.cur (s.core.path.pc h) = .word w) : s.look h = s.meet h (s.core.path.pc h) w := by
  have hlost : s.core.path.lost h = none := by
    by_cases hs : h = .s
    · rw [hs]; rfl
    · exact (hx hs).1
  have hheld : ¬ (h == .s && s.core.bank.isSome) = true := by
    simp only [Bool.and_eq_true, beq_iff_eq, not_and]
    intro hs
    rw [hbank hs]
    exact Bool.false_ne_true
  have hloop : ¬ (h != .s && s.core.path.replay.isSome && decide (s.core.path.whole h ≤ 1)) = true := by
    simp only [Bool.and_eq_true, bne_iff_ne, decide_eq_true_eq, not_and, Nat.not_le, and_imp]
    intro hs
    obtain ⟨-, hreplay, -⟩ := hx hs
    exact hreplay
  have hbehind : ¬ (h != .s && decide (s.core.path.lag h < s.core.path.left h (wordLen w))
      && !(h == .y && endsTask w && s.core.path.together)) = true := by
    simp only [Bool.and_eq_true, bne_iff_ne, decide_eq_true_eq, Bool.not_eq_true', not_and, and_imp, Bool.not_eq_false, beq_iff_eq]
    intro hs hlt
    obtain ⟨-, -, hle | ⟨hy, he, ht⟩⟩ := hx hs
    · exact absurd hle (Nat.not_le.mpr hlt)
    · exact ⟨⟨hy, he⟩, ht⟩
  unfold State.look
  dsimp only
  rw [if_neg (by rw [hstage, hbeat]; decide : ¬ (s.me.stage != .running || s.offBeat s.cur) = true), if_neg hheld, hlost]
  dsimp only
  rw [if_neg hloop, hword]
  exact if_neg hbehind

/-! ### The illegal-encoding trap (R31, R114) -/

theorem Core.disarm_of_unarmed {c : Core} (harm : c.arm = none) (h : Head) : c.disarm h = c := by simp only [Core.disarm, harm]
theorem State.grantBank_of_none {s : State} {ctx : Nat} (hbank : (s.slotAt ctx).core.bank = none) : s.grantBank ctx = s := by
  simp only [State.grantBank, hbank]

/-- R114: where no access waits for its bank, entering a trap changes the core alone. -/
theorem State.trapAt_core {s : State} {ctx : Nat} (next : Nat) (cause v : Word) (hbank : (s.slotAt ctx).core.bank = none) :
    ((s.trapAt ctx next cause v).slotAt ctx).core = (s.slotAt ctx).core.enterTrap next cause v := by
  rw [State.trapAt, State.grantBank_of_none hbank, State.setCoreAt_eq, State.slotAt_setSlot_same, Slot.setCore_core]

/-- R31, R114: an illegal encoding at S in user mode enters the trap with cause 0x01 at the word's address. -/
theorem State.illegal_core {s : State} (w x : Nat) (hu : s.core.sup = false) (hbank : s.core.bank = none) (harm : s.core.arm = none) :
    (s.illegal .s w x).core = s.core.enterTrap s.core.path.pcS 0x01
      (BitVec.ofNat 64 (w % 2 ^ 32 + if w % 4 = 1 then x % 2 ^ 32 * 2 ^ 32 else 0)) := by
  have hpath : s.core.path = s.core.user := if_neg (Bool.eq_false_iff.mp hu)
  have hcore : ((s.setSlot s.cur (·.setCore (·.disarm .s))).slotAt s.cur).core = s.core := by
    rw [State.slotAt_setSlot_same, Slot.setCore_core]
    exact Core.disarm_of_unarmed harm .s
  rw [State.illegal, State.syncTrap_user _ _ _ _ hu, hpath]
  dsimp only
  rw [if_pos rfl, State.core_eq, State.trapAt_cur, State.setCore_eq, State.setSlot_cur, State.trapAt_core, State.core_eq,
    State.setSlot_cur, hcore]
  · rfl
  · rw [hcore]; exact hbank

/-- Settles O2: S meets the word, and its trap enters with the word as it is reported. -/
theorem illegalWordsTrap : Obligations.IllegalWordsTrap := by
  intro s w x hstage hu _ hbeat hbank harm hword hlong hshort hbad
  have hx : s.Second (s.core.path.pcS + 4) w x := ⟨hlong, hshort⟩
  have hmeet : s.meet .s s.core.path.pcS w = .moved (s.illegal .s w x) := by
    obtain h3 | h4 | hp | ⟨hown, -, hundec⟩ := hbad
    · exact State.meet_illegal hx (Or.inl h3)
    · exact State.meet_illegal hx (Or.inr (Or.inl h4))
    · exact State.meet_illegal hx (Or.inr (Or.inr hp))
    · exact State.meet_undecoded hx hown hundec
  have hlook : s.look .s = .moved (s.illegal .s w x) :=
    (State.look_eq_meet hstage hbeat (fun _ => hbank) (fun hne => absurd rfl hne) hword).trans hmeet
  have hval : (if w % 4 = 1 then x % 2 ^ 32 * 2 ^ 32 else 0) = x % 2 ^ 32 * 2 ^ 32 := by
    split
    · rfl
    · next h1 => rw [hshort h1, Nat.zero_mod, Nat.zero_mul]
  refine ⟨_, hlook, ?_⟩
  rw [State.illegal_core w x hu hbank harm, hval]
  exact ⟨rfl, rfl, rfl, rfl⟩

/-! ### A step of a head (R28, R113) -/

/-- R113: where none of the heads raises a synchronous trap, what happens is what would happen without them. -/
theorem State.firstTrap_of_none {s : State} {act : Head → Res} (r : Res) {hs : List Head}
    (hno : ∀ k ∈ hs, ∀ u, act k = .next u → s.trapped u = false) : s.firstTrap act r hs = r := by
  induction hs with
  | nil => rfl
  | cons k hs ih =>
    have hrest := ih fun j hj => hno j (List.mem_cons_of_mem k hj)
    unfold State.firstTrap
    split
    · next t ht => rw [if_neg (Bool.eq_false_iff.mp (hno k List.mem_cons_self t ht)), hrest]
    · exact hrest

/-- R28: a unit that leaves no prefix waiting, or that stops, is what the head does. -/
theorem headUnit_of_unit {s : State} {h : Head} {i : Instr} (hlook : s.look h = .unit i)
    (hdone : ∀ t, exec i s = .next t → t.core.arm = none) : headUnit s h = exec i s := by
  unfold headUnit
  rw [hlook]
  dsimp only
  cases he : exec i s with
  | next t =>
    have hnone : t.core.arm.isNone = true := by rw [hdone t he]; rfl
    exact if_pos hnone
  | fault => rfl
  | refused => rfl

/-- R113: a head that nothing holds does what its unit does. -/
theorem headStep_of_free {s : State} {h : Head} (hfree : s.userHold = false) : headStep s h = headUnit s h :=
  if_neg (Bool.eq_false_iff.mp hfree)

/-- The turn of a head at the front of the agenda. -/
theorem step_of_head {s0 : State} {wait ctx : Nat} {h : Head} {rest : List Turn} (hturn : s0.agenda = ⟨wait, .head ctx h⟩ :: rest) :
    let s := { ({ s0 with agenda := rest } : State).pass wait with cur := ctx }
    step s0 = s.headTurn (headStep s) h := by
  simp only [step, State.turn, hturn, move]

/-- Settles O3: the head looks at the word, starts its unit, and its turn comes to what the unit does. -/
theorem stepRunsTheDecodedInstruction : Obligations.StepRunsTheDecodedInstruction := by
  intro s0 s wait ctx h rest w x i hturn hs hstage hfree hbeat hbank hx hslip harm hword hlong hshort hls hpfx hown hdec hwf
  have hcur : s.cur = ctx := by rw [hs]
  have hlook : s.look h = .unit i := by
    subst hcur
    have hsecond : s.Second (s.core.path.pc h + 4) w x := ⟨hlong, hshort⟩
    rw [State.look_eq_meet hstage hbeat hbank hx hword, State.meet_decoded hsecond hown hls hpfx hdec hwf]
    exact if_neg fun ⟨hS, hi, hhalf⟩ => Bool.eq_false_iff.mp (hslip hS hi) hhalf
  have hstep : step s0 = s.headTurn (headStep s) h := by rw [step_of_head hturn, ← hs]
  have hact (hdone : ∀ t, exec i s = .next t → t.core.arm = none) : headStep s h = exec i s :=
    (headStep_of_free hfree).trans (headUnit_of_unit hlook hdone)
  refine ⟨hlook, ?_, ?_, ?_⟩
  · intro t ht hdone hno
    have hunit := hact fun u hu => by cases ht.symm.trans hu; exact hdone
    rw [hstep, State.headTurn, hunit, ht]
    dsimp only
    split
    · next htrap => exact State.firstTrap_of_none _ (hno htrap)
    · rfl
  · intro r hr
    have hunit := hact fun u hu => by cases hr.symm.trans hu
    rw [hstep, State.headTurn, hunit, hr]
  · intro r hr
    have hunit := hact fun u hu => by cases hr.symm.trans hu
    rw [hstep, State.headTurn, hunit, hr]

end Sys2Proof.Machine
end

section
/-! Proofs of the statement on taking a synchronous trap (spec/04 R111, R113 to R115). -/

namespace Sys2Proof.Machine

/-- R335: a restart for an unreadable journal marks the slot's core, unless its task is wounded already. -/
theorem State.unreadWound_slotAt (s : State) (ctx : Nat) : (s.unreadWound ctx).slotAt ctx =
    if (s.wounds.any fun w => w.age == (s.slotAt ctx).age) = true then s.slotAt ctx
    else (s.slotAt ctx).setCore fun c => { c with woundHeld := true } := by
  unfold State.unreadWound
  dsimp only
  split
  · rfl
  · exact s.slotAt_setSlot_same ctx (·.setCore fun c => { c with woundHeld := true })

/-! ### A change that leaves the slot as it is -/

section
variable {s : State} {ctx : Nat} {f : Slot → Slot} (hf : f (s.slotAt ctx) = s.slotAt ctx)
include hf

theorem State.fetch_setSlot_of_fixed (off : Nat) : (s.setSlot ctx f).fetch ctx off = s.fetch ctx off := by
  have harena : (s.setSlot ctx f).arena ctx = s.arena ctx := by
    simp only [State.arena, State.slotAt_setSlot_same, hf]
    rfl
  simp only [State.fetch, harena, State.setSlot_mem, State.setSlot_badWords]

theorem State.nextUnit_setSlot_of_fixed (fuel pc : Nat) : (s.setSlot ctx f).nextUnit ctx fuel pc = s.nextUnit ctx fuel pc := by
  induction fuel generalizing pc with
  | zero => rfl
  | succ fuel ih => simp only [State.nextUnit, State.fetch_setSlot_of_fixed hf, ih]

theorem State.nextS_setSlot_of_fixed : (s.setSlot ctx f).nextS ctx = s.nextS ctx := by
  simp only [State.nextS, State.slotAt_setSlot_same, hf, State.nextUnit_setSlot_of_fixed hf]

theorem State.unreadWound_setSlot_of_fixed : ((s.setSlot ctx f).unreadWound ctx).slotAt ctx = (s.unreadWound ctx).slotAt ctx := by
  simp only [State.unreadWound_slotAt, State.slotAt_setSlot_same, hf, State.setSlot_wounds]

theorem State.grantBank_setSlot_of_fixed : ((s.setSlot ctx f).grantBank ctx).slotAt ctx = (s.grantBank ctx).slotAt ctx := by
  simp only [State.grantBank, State.word, State.slotAt_setSlot_same, hf]
  split
  · rw [State.slotAt_setSlot_same, hf]
  · split
    · simp only [State.slotAt_setSlot_same, hf]
    · simp only [State.setCoreAt_eq, State.slotAt_setSlot_same]
      split
      · rw [State.unreadWound_setSlot_of_fixed hf]
      · rw [State.slotAt_setSlot_same, hf]
end

/-! ### What the grant of a bank leaves in its slot -/

/-- R109, R335: what a waiting access of S leaves in its slot when its bank is granted. -/
structure Grant where
  store : Cells
  badWords : List Nat
  flights : List Flight
  /-- Causes that it makes pending. -/
  causes : List Async
  woundHeld : Bool

/-- R109: the results in flight when the LDT that waits for its bank has read v. -/
def Core.answered (c : Core) (v : Word) : List Flight :=
  c.flights.map fun f => if f.wait then { f with val := v, wait := false } else f

/-- A slot whose waiting access, if there was one, is over. -/
def Slot.granted (l : Slot) (g : Grant) : Slot :=
  { l with
    store := g.store
    badWords := g.badWords
    core := { l.core with
      bank := none
      flights := g.flights
      pend := l.core.pend ++ g.causes
      woundHeld := g.woundHeld } }

/-- R335: where a restart may be due, its mark is all that may change in the slot. -/
theorem State.slotAt_of_unread (s : State) (ctx : Nat) (unread : Bool) : ∃ held,
    (if unread = true then s.unreadWound ctx else s).slotAt ctx = (s.slotAt ctx).setCore fun c => { c with woundHeld := held } := by
  split
  · rw [State.unreadWound_slotAt]
    split
    · exact ⟨(s.slotAt ctx).core.woundHeld, rfl⟩
    · exact ⟨true, rfl⟩
  · exact ⟨(s.slotAt ctx).core.woundHeld, rfl⟩

/-- R109, R114: the grant changes in its slot what Grant names, and nothing else. -/
theorem State.grantBank_slotAt (s : State) (ctx : Nat) : ∃ g, (s.grantBank ctx).slotAt ctx = (s.slotAt ctx).granted g := by
  generalize hl : s.slotAt ctx = l
  cases hb : l.core.bank with
  | none =>
    refine ⟨⟨l.store, l.badWords, l.core.flights, [], l.core.woundHeld⟩, ?_⟩
    rw [State.grantBank_of_none (hl ▸ hb), Slot.granted, List.append_nil, ← hb, hl]
  | some b =>
    simp only [State.grantBank, hl, hb]
    split
    · refine ⟨⟨writeLE l.store b.addr 8 b.data.toNat, l.badWords.filter (· != b.addr), l.core.flights, [], l.core.woundHeld⟩, ?_⟩
      rw [State.slotAt_setSlot_same, Slot.granted, List.append_nil, hl]
    · obtain ⟨held, hw⟩ := s.slotAt_of_unread ctx l.tileUnread
      rw [State.setCoreAt_eq, State.slotAt_setSlot_same, hw, hl]
      by_cases hbad : l.badWords.contains b.addr = true
      · refine ⟨⟨l.store, l.badWords, l.core.answered 0, [⟨0x12, 0, BitVec.ofNat 64 b.addr⟩], held⟩, ?_⟩
        simp only [hbad, if_true]
        rfl
      · refine ⟨⟨l.store, l.badWords, l.core.answered (s.word ctx b.addr), [], held⟩, ?_⟩
        rw [Slot.granted, List.append_nil]
        simp only [hbad]
        rfl

/-! ### Entering a trap -/

section
variable (c : Core) (next : Nat) (cause v : Word)

@[simp] theorem Core.enterTrap_sup : (c.enterTrap next cause v).sup = true := rfl
@[simp] theorem Core.enterTrap_trapcause : (c.enterTrap next cause v).trapcause = cause := rfl
@[simp] theorem Core.enterTrap_trapval : (c.enterTrap next cause v).trapval = v := rfl
@[simp] theorem Core.enterTrap_trappcS : (c.enterTrap next cause v).trappcS = BitVec.ofNat 32 next := rfl
@[simp] theorem Core.enterTrap_trappcM : (c.enterTrap next cause v).trappcM = BitVec.ofNat 32 (c.user.place .m) := by
  simp [Core.enterTrap]
@[simp] theorem Core.enterTrap_trappcA : (c.enterTrap next cause v).trappcA = BitVec.ofNat 32 (c.user.place .a) := by
  simp [Core.enterTrap]
@[simp] theorem Core.enterTrap_trappcY : (c.enterTrap next cause v).trappcY = BitVec.ofNat 32 (c.user.place .y) := by
  simp [Core.enterTrap]
@[simp] theorem Core.enterTrap_firm : (c.enterTrap next cause v).firm = {} := rfl
@[simp] theorem Core.enterTrap_flights : (c.enterTrap next cause v).flights = [] := rfl
@[simp] theorem Core.enterTrap_ywait : (c.enterTrap next cause v).ywait = none := rfl
@[simp] theorem Core.enterTrap_sreg : (c.enterTrap next cause v).sreg = c.landAll.sreg := rfl
@[simp] theorem Core.enterTrap_supBank : (c.enterTrap next cause v).supBank = c.landAll.supBank := rfl
@[simp] theorem Core.enterTrap_freg : (c.enterTrap next cause v).freg = c.landAll.freg := rfl
@[simp] theorem Core.enterTrap_preg : (c.enterTrap next cause v).preg = c.landAll.preg := rfl
@[simp] theorem Core.enterTrap_user : (c.enterTrap next cause v).user = c.user := c.landAll_user
@[simp] theorem Core.enterTrap_bank : (c.enterTrap next cause v).bank = c.bank := c.landAll_bank
@[simp] theorem Core.enterTrap_pend : (c.enterTrap next cause v).pend = c.pend := c.landAll_pend
@[simp] theorem Core.enterTrap_ereg : (c.enterTrap next cause v).ereg = c.ereg := c.landAll_ereg
@[simp] theorem Core.enterTrap_hreg : (c.enterTrap next cause v).hreg = c.hreg := c.landAll_hreg
@[simp] theorem Core.enterTrap_bdreg : (c.enterTrap next cause v).bdreg = c.bdreg := c.landAll_bdreg
@[simp] theorem Core.enterTrap_spill : (c.enterTrap next cause v).spill = c.spill := c.landAll_spill
@[simp] theorem Core.enterTrap_asmM : (c.enterTrap next cause v).asmM = c.asmM := c.landAll_asmM
@[simp] theorem Core.enterTrap_asmA : (c.enterTrap next cause v).asmA = c.asmA := c.landAll_asmA
@[simp] theorem Core.enterTrap_asmE : (c.enterTrap next cause v).asmE = c.asmE := c.landAll_asmE
@[simp] theorem Core.enterTrap_xi : (c.enterTrap next cause v).xi = c.xi := c.landAll_xi
@[simp] theorem Core.enterTrap_xo : (c.enterTrap next cause v).xo = c.xo := c.landAll_xo
end

theorem State.trapAt_slotAt (s : State) (ctx next : Nat) (cause v : Word) : (s.trapAt ctx next cause v).slotAt ctx =
    ((s.grantBank ctx).slotAt ctx).setCore (·.enterTrap next cause v) := by
  rw [State.trapAt, State.setCoreAt_eq, State.slotAt_setSlot_same]

/-- R113, R114: a synchronous trap in user mode, where no unit of a trailing head is issuing with its modifiers, enters behind the access
that waits for its bank. -/
theorem State.syncTrap_slotAt {s : State} (h : Head) (cause : Nat) (v : Word) (sw : Nat) (hu : s.core.sup = false)
    (harm : s.core.arm = none) : (s.syncTrap h cause v sw).slotAt s.cur = ((s.grantBank s.cur).slotAt s.cur).setCore
      (·.enterTrap (if h = .s then s.core.user.pcS else s.nextS s.cur) (causeWord sw false (headCode h) cause) v) := by
  have hfix : (s.slotAt s.cur).setCore (·.disarm h) = s.slotAt s.cur := by
    exact congrArg (fun c => { s.slotAt s.cur with core := c }) (Core.disarm_of_unarmed harm h)
  rw [State.syncTrap_user h cause v sw hu]
  dsimp only
  rw [State.trapAt_slotAt, State.setCore_eq, State.grantBank_setSlot_of_fixed (f := (·.setCore (·.disarm h))) hfix,
    State.nextS_setSlot_of_fixed (f := (·.setCore (·.disarm h))) hfix, State.core_eq, State.setSlot_cur, State.slotAt_setSlot_same, hfix]
  rfl

theorem State.syncTrap_user_cur {s : State} (h : Head) (cause : Nat) (v : Word) (sw : Nat) (hu : s.core.sup = false) :
    (s.syncTrap h cause v sw).cur = s.cur := by
  rw [State.syncTrap_user h cause v sw hu]
  simp

theorem State.syncTrap_user_mem {s : State} (h : Head) (cause : Nat) (v : Word) (sw : Nat) (hu : s.core.sup = false) :
    (s.syncTrap h cause v sw).mem = s.mem := by
  rw [State.syncTrap_user h cause v sw hu]
  simp

/-- R115: the cause word of a synchronous trap. -/
theorem causeWord_sync (sw : Nat) (h : Head) (cause : Nat) : causeWord sw false (headCode h) cause =
    BitVec.ofNat 64 (sw % 32 * 2 ^ 16 + headCode h * 2 ^ 8 + cause % 256) := by
  have hh : headCode h % 8 = headCode h := by cases h <;> rfl
  simp [causeWord, hh, bitIf]

/-- Settles O24: the slot is that of the bank's grant with the trap entered. -/
theorem takingATrap : Obligations.TakingATrap := by
  intro s h cause v sw hu harm t p
  have hmem : t.mem = s.mem := State.syncTrap_user_mem h cause v sw hu
  have hme : t.me = ((s.grantBank s.cur).slotAt s.cur).setCore
      (·.enterTrap (if h = .s then p.pcS else s.nextS s.cur) (causeWord sw false (headCode h) cause) v) := by
    rw [State.me_eq, State.syncTrap_user_cur h cause v sw hu]
    exact State.syncTrap_slotAt h cause v sw hu harm
  obtain ⟨g, hg⟩ := s.grantBank_slotAt s.cur
  have hgranted : (s.grantBank s.cur).me = s.me.granted g := by rw [State.me_eq, State.grantBank_cur, hg]; rfl
  rw [hg, ← State.me_eq, causeWord_sync] at hme
  have hp : s.me.core.user = p := rfl
  clear_value t p
  simp only [State.core, hgranted, hme, hmem, Slot.granted, Slot.setCore]
  simp [-State.me_eq, hp]

end Sys2Proof.Machine
end

section
/-! Proofs of the statement on a second trap (spec/04 R118), with what ending a task leaves (spec/16 R378, R393). -/

namespace Sys2Proof.Machine

/-! ### Steps that start and end no task -/

/-- From s to t no slot takes, leaves or stops its task, and no die changes. -/
structure State.KeepsTasks (s t : State) : Prop where
  cur : t.cur = s.cur
  dies : t.dies = s.dies
  stage : ∀ ctx, (t.slotAt ctx).stage = (s.slotAt ctx).stage
  task : ∀ ctx, (t.slotAt ctx).task = (s.slotAt ctx).task

theorem State.KeepsTasks.refl (s : State) : s.KeepsTasks s := ⟨rfl, rfl, fun _ => rfl, fun _ => rfl⟩
theorem State.KeepsTasks.trans {s t u : State} (h : s.KeepsTasks t) (k : t.KeepsTasks u) : s.KeepsTasks u :=
  ⟨k.cur.trans h.cur, k.dies.trans h.dies, fun ctx => (k.stage ctx).trans (h.stage ctx), fun ctx => (k.task ctx).trans (h.task ctx)⟩

/-- A change that touches no slot and no die. -/
theorem State.KeepsTasks.of_slots {s t : State} (hcur : t.cur = s.cur) (hdies : t.dies = s.dies) (hslots : t.slots = s.slots) :
    s.KeepsTasks t := by
  have hslot (ctx : Nat) : t.slotAt ctx = s.slotAt ctx := congrArg (aget ({} : Slot) ctx) hslots
  exact ⟨hcur, hdies, fun ctx => congrArg Slot.stage (hslot ctx), fun ctx => congrArg Slot.task (hslot ctx)⟩

theorem State.KeepsTasks.withBuffers {s t : State} (h : s.KeepsTasks t) (bs : List Update) : s.KeepsTasks { t with buffers := bs } :=
  h.trans (.of_slots rfl rfl rfl)
theorem State.KeepsTasks.withUpdates {s t : State} (h : s.KeepsTasks t) (us : List Update) : s.KeepsTasks { t with updates := us } :=
  h.trans (.of_slots rfl rfl rfl)

/-- A change of one slot that leaves its stage and its task. -/
theorem State.setSlot_keepsTasks (s : State) (ctx : Nat) {f : Slot → Slot} (hstage : (f (s.slotAt ctx)).stage = (s.slotAt ctx).stage)
    (htask : (f (s.slotAt ctx)).task = (s.slotAt ctx).task) : s.KeepsTasks (s.setSlot ctx f) := by
  refine ⟨rfl, rfl, fun k => ?_, fun k => ?_⟩
  all_goals
    by_cases hk : k = ctx
    · subst hk
      rw [State.slotAt_setSlot_same]
      assumption
    · rw [State.slotAt_setSlot_other s f hk]

theorem State.foldl_keepsTasks {β : Type} {f : State → β → State} (hf : ∀ (s : State) b, s.KeepsTasks (f s b)) (l : List β)
    (s : State) : s.KeepsTasks (l.foldl f s) := by
  induction l generalizing s with
  | nil => exact .refl s
  | cons b l ih => exact (hf s b).trans (ih (f s b))

theorem State.grantBank_keepsTasks (s : State) (ctx : Nat) : s.KeepsTasks (s.grantBank ctx) := by
  have hwound : s.KeepsTasks (s.unreadWound ctx) := by
    unfold State.unreadWound
    dsimp only
    split
    · exact .refl s
    · exact (s.setSlot_keepsTasks ctx (f := (·.setCore fun c => { c with woundHeld := true })) rfl rfl).trans (.of_slots rfl rfl rfl)
  unfold State.grantBank
  dsimp only
  split
  · exact .refl s
  · split
    · exact s.setSlot_keepsTasks ctx rfl rfl
    · split
      · exact hwound.trans (State.setSlot_keepsTasks _ ctx rfl rfl)
      · exact s.setSlot_keepsTasks ctx rfl rfl

/-- R307, R335: an update in the home order writes memory or a tile store. -/
theorem State.applySound_keepsTasks (s : State) (u : Update) : s.KeepsTasks (s.applySound u) := by
  unfold State.applySound State.applyRmw State.writeLoc
  split
  · exact .refl s
  · split
    · exact .of_slots rfl rfl rfl
    · exact s.setSlot_keepsTasks _ rfl rfl

theorem State.applyBuffers_keepsTasks (s : State) (ctx : Nat) (done : Option Nat → Bool) : s.KeepsTasks (s.applyBuffers ctx done) :=
  (State.foldl_keepsTasks State.applySound_keepsTasks _ s).withBuffers _
theorem State.settleBuffers_keepsTasks (s : State) (ctx : Nat) : s.KeepsTasks (s.settleBuffers ctx) :=
  (s.applyBuffers_keepsTasks ctx _).withBuffers _
theorem State.dropUpdates_keepsTasks (s : State) (ctx : Nat) : s.KeepsTasks (s.dropUpdates ctx) :=
  (s.settleBuffers_keepsTasks ctx).withUpdates _

theorem State.withdrawWaits_keepsTasks (s : State) (age : Word) : s.KeepsTasks (s.withdrawWaits age) :=
  .of_slots rfl rfl rfl
theorem State.releaseGranules_keepsTasks (s : State) (age : Word) : s.KeepsTasks (s.releaseGranules age) :=
  .of_slots rfl rfl rfl

/-! ### What completing a record does (R378) -/

/-- R378: a completion event is held, counted, sent on, or dropped. -/
theorem State.completionEvent_cases (s : State) (w : Nat) :
    (∃ incs held sent, s.completionEvent w = { s with increments := incs, held := held, sent := sent })
    ∨ ∃ ctx e, s.completionEvent w = s.setCoreAt ctx (·.addEvent e 1) := by
  unfold State.completionEvent State.deliverCount
  split
  · exact Or.inl ⟨_, _, _, rfl⟩
  · split
    · split
      · exact Or.inl ⟨_, _, _, rfl⟩
      · split
        · exact Or.inl ⟨_, _, _, rfl⟩
        · split
          · exact Or.inr ⟨_, _, rfl⟩
          · exact Or.inl ⟨_, _, _, rfl⟩
    · split
      · exact Or.inl ⟨_, _, _, rfl⟩
      · exact Or.inl ⟨_, _, _, rfl⟩

theorem State.completionEvent_keepsTasks (s : State) (w : Nat) : s.KeepsTasks (s.completionEvent w) := by
  obtain ⟨incs, held, sent, h⟩ | ⟨ctx, e, h⟩ := s.completionEvent_cases w <;> rw [h]
  · exact .of_slots rfl rfl rfl
  · exact s.setSlot_keepsTasks ctx rfl rfl

@[simp] theorem State.completionEvent_mem (s : State) (w : Nat) : (s.completionEvent w).mem = s.mem := by
  obtain ⟨incs, held, sent, h⟩ | ⟨ctx, e, h⟩ := s.completionEvent_cases w <;> rw [h]
  rfl

/-- The two completion events of a record. -/
theorem State.completionEvents_keepsTasks (s : State) (v w : Nat) : s.KeepsTasks ((s.completionEvent v).completionEvent w) :=
  (s.completionEvent_keepsTasks v).trans (State.completionEvent_keepsTasks _ w)

/-- R378: where the DONE word of a host's packet k lies. -/
def State.doneAddr (s : State) (q k : Nat) : Nat := (s.hostQueue q).ring + 256 * (k % 2 ^ (s.hostQueue q).m) + 0xF0
/-- R378: DONE is written, with the stamp behind it. -/
def State.writeDone (s : State) (q k word0 : Nat) : State :=
  { s with mem := writeLE (writeLE s.mem (s.doneAddr q k) 8 word0) (s.doneAddr q k + 8) 8 s.stc }

/-- R378: behind the completion events come the progress of the host's queue and its interrupt. -/
theorem State.completeRecord_some (s : State) (pkt : Packet) (q k word0 : Nat) : ∃ queues sent,
    s.completeRecord pkt (some (q, k)) word0 =
      { ((s.writeDone q k word0).completionEvent pkt.comp0).completionEvent pkt.comp1 with hostQueues := queues, sent := sent } := by
  unfold State.completeRecord
  dsimp only
  split <;> exact ⟨_, _, rfl⟩

theorem State.completeRecord_keepsTasks (s : State) (pkt : Packet) (host : Option (Nat × Nat)) (word0 : Nat) :
    s.KeepsTasks (s.completeRecord pkt host word0) := by
  cases host with
  | none => exact s.completionEvents_keepsTasks _ _
  | some qk =>
    obtain ⟨q, k⟩ := qk
    obtain ⟨queues, sent, h⟩ := s.completeRecord_some pkt q k word0
    obtain ⟨hcur, hdies, hstage, htask⟩ := (s.writeDone q k word0).completionEvents_keepsTasks pkt.comp0 pkt.comp1
    rw [h]
    exact ⟨hcur, hdies, hstage, htask⟩

/-- R378: DONE and the stamp are what completing a record writes to memory. -/
theorem State.completeRecord_mem (s : State) (pkt : Packet) (q k word0 : Nat) : (s.completeRecord pkt (some (q, k)) word0).mem =
    writeLE (writeLE s.mem (s.doneAddr q k) 8 word0) (s.doneAddr q k + 8) 8 s.stc := by
  obtain ⟨queues, sent, h⟩ := s.completeRecord_some pkt q k word0
  rw [h]
  simp [State.writeDone]

/-! ### How a task leaves its slot (R378) -/

/-- R378: a record that counts one more of its tasks as ended. -/
def Record.count (r : Record) (t : Task) (status : Nat) : Record :=
  { r with
    ended := r.ended + 1
    bad := if status = 0 then r.bad else r.bad + 1
    status := if status = 0 then r.status else
      match r.status with
      | none => some (t.ord, status)
      | some (o, x) => if t.ord < o then some (t.ord, status) else some (o, x) }
/-- R378: the low word of DONE: the status that the record keeps, and how many of its tasks failed. -/
def Record.doneWord (r : Record) : Nat := ((r.status.map (·.2)).getD 0) % 65536 + min r.bad (2 ^ 32 - 1) * 65536
/-- R347, R376: the state without a record that completes, and its filter entries. -/
def State.retireRecord (s : State) (epoch : Nat) (r : Record) : State :=
  { s with
    records := adel epoch s.records
    routers := s.routers.filter fun e => !r.filters.contains e.fid }

section
variable {s : State} {t : Task} {status : Nat} {r : Record} (hr : (s.records.find? fun e => e.1 == t.epoch) = some (t.epoch, r))
include hr

theorem State.taskEnded_open (hopen : r.ended + 1 < r.pkt.tasks) :
    s.taskEnded t status = { s with records := aset t.epoch (r.count t status) s.records } := by
  unfold State.taskEnded
  rw [hr]
  exact if_pos hopen

theorem State.taskEnded_last (hlast : r.pkt.tasks ≤ r.ended + 1) : s.taskEnded t status =
    (s.retireRecord t.epoch r).completeRecord r.pkt r.host (r.count t status).doneWord := by
  unfold State.taskEnded
  rw [hr]
  exact if_neg (Nat.not_lt.mpr hlast)
end

theorem State.retireRecord_keepsTasks (s : State) (epoch : Nat) (r : Record) : s.KeepsTasks (s.retireRecord epoch r) :=
  .of_slots rfl rfl rfl

theorem State.taskEnded_keepsTasks (s : State) (t : Task) (status : Nat) : s.KeepsTasks (s.taskEnded t status) := by
  unfold State.taskEnded
  split
  · exact .refl s
  · next e r _ =>
    dsimp only
    split
    · exact .of_slots rfl rfl rfl
    · exact (s.retireRecord_keepsTasks t.epoch r).trans (State.completeRecord_keepsTasks _ _ _ _)

/-- From s to t nothing changes of the package's memory, dies, records and host queues. -/
structure State.KeepsPackage (s t : State) : Prop where
  cur : t.cur = s.cur
  dies : t.dies = s.dies
  mem : t.mem = s.mem
  stc : t.stc = s.stc
  records : t.records = s.records
  hostQueues : t.hostQueues = s.hostQueues

theorem State.KeepsPackage.trans {s t u : State} (h : s.KeepsPackage t) (k : t.KeepsPackage u) : s.KeepsPackage u :=
  ⟨k.cur.trans h.cur, k.dies.trans h.dies, k.mem.trans h.mem, k.stc.trans h.stc, k.records.trans h.records,
    k.hostQueues.trans h.hostQueues⟩

section
variable (s : State)

theorem State.freeEncodes_keepsPackage (age : Word) : s.KeepsPackage (s.freeEncodes age) := ⟨rfl, rfl, rfl, rfl, rfl, rfl⟩
theorem State.withdrawNotices_keepsPackage (age : Word) : s.KeepsPackage (s.withdrawNotices age) := ⟨rfl, rfl, rfl, rfl, rfl, rfl⟩
theorem State.withdrawWaits_keepsPackage (age : Word) : s.KeepsPackage (s.withdrawWaits age) := ⟨rfl, rfl, rfl, rfl, rfl, rfl⟩
theorem State.orphan_keepsPackage (ctx : Nat) : s.KeepsPackage (s.orphan ctx) := ⟨rfl, rfl, rfl, rfl, rfl, rfl⟩
theorem State.setSlot_keepsPackage (ctx : Nat) (f : Slot → Slot) : s.KeepsPackage (s.setSlot ctx f) := ⟨rfl, rfl, rfl, rfl, rfl, rfl⟩
end

/-- R378, R391: the messages and requests of a task that ends are withdrawn. -/
def State.withdrawTask (s : State) (ctx : Nat) (age : Word) : State :=
  (((s.freeEncodes age).withdrawNotices age).withdrawWaits age).orphan ctx
/-- What is held for a task that has ended is dropped. -/
def State.forgetTask (s : State) (age : Word) : State :=
  { s with
    wounds := s.wounds.filter fun w => w.age != age
    held := s.held.filter fun (a, _) => a != age
    patches := s.patches.filter fun p => p.age != age }
/-- R378: a task has left its slot, and its record does not know of it yet. -/
def State.vacated (s : State) (ctx : Nat) (age : Word) : State :=
  ((s.withdrawTask ctx age).setSlot ctx fun l => l.vacate ((s.withdrawTask ctx age).acOf ctx)).forgetTask age

theorem State.endTask_eq {s : State} {ctx : Nat} {t : Task} (status : Nat) (ht : (s.slotAt ctx).task = some t) :
    s.endTask ctx status = (s.vacated ctx t.age).taskEnded t status := by
  unfold State.endTask
  rw [ht]
  rfl

theorem State.withdrawTask_keepsPackage (s : State) (ctx : Nat) (age : Word) : s.KeepsPackage (s.withdrawTask ctx age) :=
  (((s.freeEncodes_keepsPackage age).trans (State.withdrawNotices_keepsPackage _ age)).trans
    (State.withdrawWaits_keepsPackage _ age)).trans (State.orphan_keepsPackage _ ctx)
theorem State.forgetTask_keepsPackage (s : State) (age : Word) : s.KeepsPackage (s.forgetTask age) := ⟨rfl, rfl, rfl, rfl, rfl, rfl⟩
theorem State.vacated_keepsPackage (s : State) (ctx : Nat) (age : Word) : s.KeepsPackage (s.vacated ctx age) :=
  ((s.withdrawTask_keepsPackage ctx age).trans (State.setSlot_keepsPackage _ ctx _)).trans (State.forgetTask_keepsPackage _ age)

/-- A task that has left its slot leaves it free. -/
theorem State.vacated_free (s : State) (ctx : Nat) (age : Word) :
    ((s.vacated ctx age).slotAt ctx).stage = .free ∧ ((s.vacated ctx age).slotAt ctx).task = none := by
  have hslot : (s.vacated ctx age).slotAt ctx = ((s.withdrawTask ctx age).slotAt ctx).vacate ((s.withdrawTask ctx age).acOf ctx) :=
    State.slotAt_setSlot_same (s.withdrawTask ctx age) ctx fun l => l.vacate ((s.withdrawTask ctx age).acOf ctx)
  rw [hslot]
  exact ⟨rfl, rfl⟩

/-- R378: where the slot has a task, its ending leaves the slot free, and the dies as they were. -/
theorem State.endTask_frees {s : State} {ctx : Nat} {t : Task} (status : Nat) (ht : (s.slotAt ctx).task = some t) :
    (s.endTask ctx status).cur = s.cur ∧ (s.endTask ctx status).dies = s.dies
      ∧ ((s.endTask ctx status).slotAt ctx).stage = .free ∧ ((s.endTask ctx status).slotAt ctx).task = none := by
  have hkeep := s.vacated_keepsPackage ctx t.age
  obtain ⟨hstage, htask⟩ := s.vacated_free ctx t.age
  have hended := (s.vacated ctx t.age).taskEnded_keepsTasks t status
  rw [State.endTask_eq status ht]
  exact ⟨hended.cur.trans hkeep.cur, hended.dies.trans hkeep.dies, (hended.stage ctx).trans hstage, (hended.task ctx).trans htask⟩

/-- R118: a task that fails leaves its slot free, and the dies as they were. -/
theorem State.failTask_frees {s : State} {ctx : Nat} {t : Task} (code : Nat) (ht : (s.slotAt ctx).task = some t) :
    (s.failTask ctx code).cur = s.cur ∧ (s.failTask ctx code).dies = s.dies
      ∧ ((s.failTask ctx code).slotAt ctx).stage = .free ∧ ((s.failTask ctx code).slotAt ctx).task = none := by
  have htask : ((s.grantBank ctx).slotAt ctx).task = some t := ((s.grantBank_keepsTasks ctx).task ctx).trans ht
  have hkeep : s.KeepsTasks ((((s.grantBank ctx).dropUpdates ctx).withdrawWaits t.age).releaseGranules t.age) :=
    (((s.grantBank_keepsTasks ctx).trans (State.dropUpdates_keepsTasks _ ctx)).trans (State.withdrawWaits_keepsTasks _ t.age)).trans
      (State.releaseGranules_keepsTasks _ t.age)
  obtain ⟨hcur, hdies, hstage, hfree⟩ := State.endTask_frees (code * 256) ((hkeep.task ctx).trans ht)
  unfold State.failTask
  simp only [htask, State.setCoreAt_eq, State.slotAt_setSlot_same, State.setSlot_cur, State.setSlot_dies, Slot.setCore_stage,
    Slot.setCore_task]
  exact ⟨hcur.trans hkeep.cur, hdies.trans hkeep.dies, hstage, hfree⟩

/-! ### The alert of a second trap (R118) -/

/-- R343: every slot lies on one of the four dies. -/
theorem dieOf_nodeOf_lt {ctx : Nat} (h : ctx < 4096) : dieOf (nodeOf ctx) < 4 := by
  unfold dieOf nodeOf
  omega

theorem State.alert_eq_setDie (s : State) (ctx cause : Nat) :
    s.alert ctx cause = s.setDie (dieOf (nodeOf ctx)) fun d => { d with alerts := d.alerts ++ [(ctx, cause)] } := rfl

/-- Settles O25: the alert stands at the slot's die, and the task fails. -/
theorem doubleTrap : Obligations.DoubleTrap := by
  intro s h cause v sw k hu htask hdies hcur t
  have ht : t = (s.alert s.cur cause).failTask s.cur 0x02 := State.syncTrap_sup h cause v sw hu
  have halert : ((s.alert s.cur cause).slotAt s.cur).task = some k := htask
  obtain ⟨hc, hd, hstage, hnone⟩ := State.failTask_frees 0x02 halert
  rw [← ht] at hc hd hstage hnone
  have hme : t.me = t.slotAt s.cur := by rw [State.me_eq, hc]; rfl
  have hlt : dieOf (nodeOf s.cur) < s.dies.length := hdies ▸ dieOf_nodeOf_lt hcur
  have hdie : t.die (dieOf (nodeOf s.cur)) = (s.alert s.cur cause).die (dieOf (nodeOf s.cur)) := by rw [State.die, hd]; rfl
  rw [hme, hdie, State.alert_eq_setDie, State.die_setDie s _ _ hlt]
  exact ⟨hstage, hnone, rfl⟩

end Sys2Proof.Machine
end

section
/-! Proofs of the statement on TEND, TYLD and a pending cause (spec/04 R113, R114, spec/08 R247 to R249, spec/16 R378, spec/17 R404). -/

namespace Sys2Proof.Machine

/-! ### Where an ending word issues (R247) -/

/-- R106, R247: nothing holds an ending word at Y: the heads are together, its operand has landed, and neither Y nor S waits. -/
structure State.EndsAt (s : State) (i : Instr) : Prop where
  mayEnd : s.core.path.mayEnd = true
  landed : i.trailReads.any s.core.unlanded = false
  ywait : s.core.ywait = none
  bank : s.core.bank = none

theorem State.issueEnd_skips {s : State} {i : Instr} (h : s.EndsAt i) (body : State → State) (hg : i.guard = true)
    (hp : s.core.getP 1 = false) : s.issueEnd i body = .next (s.setCore fun c => { c.setPath (·.passEnd) with arm := none }) := by
  unfold State.issueEnd
  rw [h.mayEnd, h.landed, h.ywait, h.bank, hg, hp]
  rfl

theorem State.issueEnd_issues {s : State} {i : Instr} (h : s.EndsAt i) (body : State → State)
    (hg : i.guard = true → s.core.getP 1 = true) : s.issueEnd i body = .next (body s) := by
  have hguard : (i.guard && !s.core.getP 1) = false := by
    cases hi : i.guard
    · rfl
    · rw [hg hi]
      rfl
  unfold State.issueEnd
  rw [h.mayEnd, h.landed, h.ywait, h.bank, hguard]
  rfl

/-- R248: the code that TEND ends its task with. -/
def State.endCode (s : State) (a : SReg) : Nat := if a = 0 then 0 else (s.core.getS a).toNat % 256

theorem State.endCode_lt (s : State) (a : SReg) : s.endCode a < 256 := by
  unfold State.endCode
  split
  · decide
  · exact Nat.mod_lt _ (by decide)

theorem exec_tend (s : State) (a : SReg) (g : Bool) :
    exec (.tend a g) s = s.issueEnd (.tend a g) fun s => s.endStep s.cur (s.endCode a) := rfl
theorem exec_tyld (s : State) (g : Bool) : exec (.tyld g) s = s.issueEnd (.tyld g) fun s => s.yield s.cur := rfl

/-! ### The step with which TEND goes on (R248, R404) -/

theorem State.applyRounds_of_none {s : State} (hbuf : s.buffers = []) (ctx : Nat) (done : Option Nat → Bool) :
    s.applyRounds ctx done = s := by
  simp only [State.applyRounds, State.applyBuffers, hbuf, List.filter_nil, List.foldl_nil]
  rw [← hbuf]

/-- Without delayed acts nothing happens before the commands are discarded. -/
theorem State.delayedActs_discard {s : State} {ctx : Nat} (hdelayed : (s.slotAt ctx).eng.delayed = []) :
    (s.delayedActs ctx).setSlot ctx (·.discard) = s.setSlot ctx (·.discard) := by
  rw [State.delayedActs, hdelayed, List.foldl_nil, State.setEng, State.setSlot_setSlot]
  rfl

/-- R248, R308: nothing that a TEND waits for is left, and no round or delayed act is still to be applied. -/
structure State.AllOver (s : State) (ctx : Nat) : Prop where
  commit : (s.slotAt ctx).core.commit = false
  commands : s.commandsOver ctx = true
  bank : (s.slotAt ctx).core.bank = none
  updates : (s.updates.all fun u => u.ctx != ctx) = true
  wounded : s.woundedBefore ctx = false
  buffers : s.buffers = []
  delayed : (s.slotAt ctx).eng.delayed = []

/-- R248, R404: the commands are discarded; then a task without sets ends, and one with sets enters the commit. -/
theorem State.endStep_of_over {s : State} {ctx : Nat} (h : s.AllOver ctx) (code : Nat) (hjournal : (s.slotAt ctx).core.jnl = true →
    (s.slotAt ctx).journalBad = false) : s.endStep ctx code =
      if (s.slotAt ctx).core.jnl = true then (s.setSlot ctx (·.discard)).setCommit ctx
      else (s.setSlot ctx (·.discard)).finishTask ctx code := by
  have hupdates : (s.updates.any fun u => u.ctx == ctx) = false := by
    simpa [List.any_eq_false] using h.updates
  unfold State.endStep
  dsimp only
  rw [if_neg (by rw [h.commit]; decide), h.commands, h.bank, hupdates, h.wounded, State.applyRounds_of_none h.buffers,
    State.delayedActs_discard h.delayed]
  cases hj : (s.slotAt ctx).core.jnl with
  | false => rfl
  | true =>
    rw [hjournal hj]
    rfl

/-- R366, R405: a task that was wounded before the ac waits. -/
theorem State.endStep_of_wounded {s : State} {ctx : Nat} (hc : (s.slotAt ctx).core.commit = false) (hw : s.woundedBefore ctx = true)
    (code : Nat) : s.endStep ctx code = s := by
  unfold State.endStep
  dsimp only
  rw [if_neg (by rw [hc]; decide), hw, Bool.or_true]
  rfl

theorem State.finishTask_of_plain {s : State} {ctx : Nat} (hjnl : (s.slotAt ctx).core.jnl = false)
    (hdeferred : (s.slotAt ctx).deferred = []) (hmissed : (s.slotAt ctx).missed = false) (code : Nat) :
    s.finishTask ctx code = s.endTask ctx code := by
  simp only [State.finishTask, hjnl, hdeferred, hmissed, Bool.false_eq_true, if_false, List.foldl_nil, Nat.add_zero]

/-! ### What the end of a task tells its record (R378) -/

section
variable {s : State} {ctx : Nat} {t : Task} {status : Nat} {r : Record} (ht : (s.slotAt ctx).task = some t)
  (hr : (s.records.find? fun e => e.1 == t.epoch) = some (t.epoch, r))
include ht hr

/-- A record that has tasks to come counts this one, and nothing is written. -/
theorem State.endTask_open (hopen : r.ended + 1 < r.pkt.tasks) :
    (s.endTask ctx status).mem = s.mem ∧ (s.endTask ctx status).records = aset t.epoch (r.count t status) s.records := by
  have hkeep := s.vacated_keepsPackage ctx t.age
  rw [← hkeep.records] at hr
  rw [State.endTask_eq status ht, State.taskEnded_open hr hopen]
  exact ⟨hkeep.mem, by rw [hkeep.records]⟩

/-- The last task of a host's record writes DONE and the stamp. -/
theorem State.endTask_last {q k : Nat} (hlast : r.pkt.tasks ≤ r.ended + 1) (hhost : r.host = some (q, k)) :
    (s.endTask ctx status).mem =
      writeLE (writeLE s.mem (s.doneAddr q k) 8 (r.count t status).doneWord) (s.doneAddr q k + 8) 8 s.stc := by
  have hkeep := s.vacated_keepsPackage ctx t.age
  rw [← hkeep.records] at hr
  have hqueue : (s.vacated ctx t.age).hostQueue q = s.hostQueue q := by rw [State.hostQueue, hkeep.hostQueues]; rfl
  have hdone : ((s.vacated ctx t.age).retireRecord t.epoch r).doneAddr q k = s.doneAddr q k := by
    show ((s.vacated ctx t.age).hostQueue q).ring + 256 * (k % 2 ^ ((s.vacated ctx t.age).hostQueue q).m) + 0xF0 = _
    rw [hqueue]
    rfl
  rw [State.endTask_eq status ht, State.taskEnded_last hr hlast, hhost, State.completeRecord_mem, hdone]
  show writeLE (writeLE (s.vacated ctx t.age).mem _ 8 _) _ 8 (s.vacated ctx t.age).stc = _
  rw [hkeep.mem, hkeep.stc]
end

theorem Record.count_bad (r : Record) (t : Task) (status : Nat) : (r.count t status).bad = r.bad + if status = 0 then 0 else 1 := by
  unfold Record.count
  dsimp only
  split <;> rfl

/-- R378: DONE of a record none of whose other tasks failed. -/
theorem Record.doneWord_count {r : Record} (t : Task) {code : Nat} (hcode : code < 256) (hstatus : r.status = none) (hbad : r.bad = 0) :
    (r.count t code).doneWord = if code = 0 then 0 else code + 2 ^ 16 := by
  unfold Record.doneWord Record.count
  by_cases h0 : code = 0
  · simp [h0, hstatus, hbad]
  · have hmod : code % 65536 = code := Nat.mod_eq_of_lt (by omega)
    simp [h0, hstatus, hbad, hmod]

/-- A number reads as it stood where a store ends before it or begins behind it. -/
theorem readLE_writeLE_other (m : Cells) (a n v b k : Nat) (h : b + k ≤ a ∨ a + n ≤ b) :
    readLE (writeLE m a n v) b k = readLE m b k := by
  induction k generalizing b with
  | zero => rfl
  | succ k ih => simp only [readLE, getByte_writeLE_other m a n v b (by omega), ih (b + 1) (by omega)]

/-! ### TEND -/

/-- R248: a task without sets whose commands are over ends with the code. -/
theorem exec_tend_plain {s : State} {a : SReg} {g : Bool} (hat : s.EndsAt (.tend a g)) (hg : g = true → s.core.getP 1 = true)
    (hover : s.AllOver s.cur) (hjnl : s.me.core.jnl = false) (hdeferred : s.me.deferred = []) (hmissed : s.me.missed = false) :
    exec (.tend a g) s = .next ((s.setSlot s.cur (·.discard)).endTask s.cur (s.endCode a)) := by
  rw [exec_tend, State.issueEnd_issues hat _ hg, State.endStep_of_over hover _ fun hj => absurd (hj.symm.trans hjnl) (by decide),
    if_neg (by rw [← State.me_eq, hjnl]; decide), State.finishTask_of_plain]
  all_goals rw [State.slotAt_setSlot_same]; assumption

/-- R404: a task with sets enters the commit. -/
theorem exec_tend_sets {s : State} {a : SReg} {g : Bool} (hat : s.EndsAt (.tend a g)) (hg : g = true → s.core.getP 1 = true)
    (hover : s.AllOver s.cur) (hjnl : s.me.core.jnl = true) (hjournal : s.me.journalBad = false) :
    exec (.tend a g) s = .next ((s.setSlot s.cur (·.discard)).setCommit s.cur) := by
  rw [exec_tend, State.issueEnd_issues hat _ hg, State.endStep_of_over hover _ fun _ => hjournal,
    if_pos (show (s.slotAt s.cur).core.jnl = true from hjnl)]

theorem State.setCommit_slotAt (s : State) (ctx : Nat) : (s.setCommit ctx).slotAt ctx =
    (s.slotAt ctx).setCore fun c => { c with commit := true, woundHeld := false } :=
  State.slotAt_setSlot_same s ctx (·.setCore fun c => { c with commit := true, woundHeld := false })

/-! ### TYLD (R249) -/

/-- R439: a core whose heads have stopped. -/
def Core.stopped (c : Core) : Core :=
  { c.landAll with
    restamp := c.landAll.restamp || (match c.landAll.ywait with | some (.stamp _ _) => true | _ => false)
    ywait := none }
/-- R249: a slot whose heads, stopped, stand with every trap PC at the address next, and whose sources are gated. -/
def Slot.yields (l : Slot) (now next : Nat) : Slot :=
  { l.gate now with
    yielded := true
    chain := l.chain.abandonWithheld
    core := (l.core.setPath fun _ => Path.allAt next).trapsAt next }

theorem State.stopHeads_of_none {s : State} {ctx : Nat} (hbank : (s.slotAt ctx).core.bank = none) :
    s.stopHeads ctx = s.setSlot ctx (·.setCore Core.stopped) := by
  rw [State.stopHeads, State.grantBank_of_none hbank]
  rfl

theorem State.yield_user {s : State} {ctx : Nat} (hu : (s.slotAt ctx).core.sup = false) (hbank : (s.slotAt ctx).core.bank = none) :
    s.yield ctx = s.setSlot ctx fun l => (l.setCore Core.stopped).yields (s.acOf ctx) ((s.slotAt ctx).core.path.pcY + 4) := by
  unfold State.yield
  dsimp only
  rw [if_neg (by rw [hu]; decide), State.stopHeads_of_none hbank, State.setSlot_setSlot]
  rfl

theorem State.yield_sup {s : State} {ctx : Nat} (hu : (s.slotAt ctx).core.sup = true) : s.yield ctx =
    s.setSlot ctx fun l => { l with
      yielded := true
      gateHeld := true
      preq := none
      core := l.core.setPath fun _ => Path.allAt ((s.slotAt ctx).core.path.pcY + 4) } := by
  unfold State.yield
  dsimp only
  rw [if_pos hu]

theorem Path.pc_allAt (at' : Nat) (h : Head) : (Path.allAt at').pc h = at' := by cases h <;> rfl

/-! ### TRAP_ENTRY (R113) -/

theorem exec_trapEntry_takes {s : State} {p : Async} {rest : List Async} (hpend : s.core.pend = p :: rest) (hu : s.core.sup = false)
    (hrun : s.me.stage = .running) (hc : s.core.commit = false) : exec .trapEntry s =
      .next ((s.setCore fun c => { c with pend := rest }).trapAt s.cur (s.nextS s.cur) (causeWord 0 true p.head p.cause) p.val) := by
  show execTrapEntry s = _
  unfold execTrapEntry
  rw [hpend, hu, hrun, hc]
  rfl

/-- R113, R114: the oldest pending cause has been taken, behind the access that waited for its bank. -/
theorem State.trapEntry_slotAt (s : State) (rest : List Async) (next : Nat) (cause v : Word) : ∃ g,
    ((s.setCore fun c => { c with pend := rest }).trapAt s.cur next cause v).me =
      ((s.me.setCore fun c => { c with pend := rest }).granted g).setCore (·.enterTrap next cause v) := by
  obtain ⟨g, hg⟩ := (s.setCore fun c => { c with pend := rest }).grantBank_slotAt s.cur
  refine ⟨g, ?_⟩
  rw [State.me_eq, State.trapAt_cur, State.setCore_eq, State.setSlot_cur, State.trapAt_slotAt, ← State.setCore_eq, hg, State.setCore_eq,
    State.slotAt_setSlot_same, State.me_eq]

/-! ### The statement -/

/-- R22: a TEND or TYLD whose guard is false is passed by all heads that stand at it. -/
theorem exec_end_skips {s : State} {a : SReg} (hat : s.EndsAt (.tend a true)) (hat' : s.EndsAt (.tyld true)) (hp : s.core.getP 1 = false) :
    exec (.tend a true) s = exec (.tyld true) s
      ∧ ∃ t, exec (.tend a true) s = .next t ∧ t.me.stage = s.me.stage ∧ t.core.path = s.core.path.passEnd ∧ t.mem = s.mem := by
  have hskip := State.issueEnd_skips hat (fun s => s.endStep s.cur (s.endCode a)) rfl hp
  refine ⟨?_, _, hskip, ?_, ?_, rfl⟩
  · rw [exec_tend, exec_tyld, hskip, State.issueEnd_skips hat' _ rfl hp]
  · simp
  · simp only [State.setCore_eq, State.core_eq, State.setSlot_cur, State.slotAt_setSlot_same, Slot.setCore_core]
    exact Core.path_setPath _ _

/-- R248, R378: TEND of a task without sets frees the slot and counts the task. -/
theorem exec_tend_ends {s : State} {a : SReg} {g : Bool} {x : Task} (hx : s.me.task = some x) (hat : s.EndsAt (.tend a g))
    (hg : g = true → s.core.getP 1 = true) (hover : s.AllOver s.cur) (hjnl : s.me.core.jnl = false) (hdeferred : s.me.deferred = [])
    (hmissed : s.me.missed = false) :
    ∃ t, exec (.tend a g) s = .next t ∧ t.me.stage = .free ∧ t.me.task = none
      ∧ (∀ r, (s.records.find? fun e => e.1 == x.epoch) = some (x.epoch, r) → r.ended + 1 < r.pkt.tasks →
          t.mem = s.mem ∧ (aget r x.epoch t.records).ended = r.ended + 1
          ∧ (aget r x.epoch t.records).bad = r.bad + (if s.endCode a = 0 then 0 else 1))
      ∧ (∀ r q k, (s.records.find? fun e => e.1 == x.epoch) = some (x.epoch, r) → r.pkt.tasks ≤ r.ended + 1 →
          r.host = some (q, k) → r.status = none → r.bad = 0 →
          readLE t.mem (s.doneAddr q k) 8 = (if s.endCode a = 0 then 0 else s.endCode a + 2 ^ 16)
          ∧ readLE t.mem (s.doneAddr q k + 8) 8 = s.stc % 2 ^ 64) := by
  have htask : ((s.setSlot s.cur (·.discard)).slotAt s.cur).task = some x := by
    rw [State.slotAt_setSlot_same]
    exact hx
  obtain ⟨hcur, -, hstage, hnone⟩ := State.endTask_frees (s.endCode a) htask
  refine ⟨_, exec_tend_plain hat hg hover hjnl hdeferred hmissed, ?_, ?_, ?_, ?_⟩
  · rw [State.me_eq, hcur]
    exact hstage
  · rw [State.me_eq, hcur]
    exact hnone
  · intro r hr hopen
    obtain ⟨hmem, hrecords⟩ := State.endTask_open (status := s.endCode a) htask hr hopen
    rw [hmem, hrecords, aget_aset_same, Record.count_bad]
    exact ⟨rfl, rfl, rfl⟩
  · intro r q k hr hlast hhost hstatus hbad
    have hmem : ((s.setSlot s.cur (·.discard)).endTask s.cur (s.endCode a)).mem =
        writeLE (writeLE s.mem (s.doneAddr q k) 8 (r.count x (s.endCode a)).doneWord) (s.doneAddr q k + 8) 8 s.stc :=
      State.endTask_last htask hr hlast hhost
    have hlt := s.endCode_lt a
    have hword : (if s.endCode a = 0 then 0 else s.endCode a + 2 ^ 16) % 2 ^ (8 * 8) =
        if s.endCode a = 0 then 0 else s.endCode a + 2 ^ 16 := by
      split <;> omega
    rw [hmem, Record.doneWord_count x hlt hstatus hbad]
    refine ⟨?_, readLE_writeLE _ _ _ _⟩
    rw [readLE_writeLE_other _ _ _ _ _ _ (Or.inl (Nat.le_refl _))]
    exact (readLE_writeLE _ _ _ _).trans hword

/-- R404: TEND of a task with sets enters the commit. -/
theorem exec_tend_commits {s : State} {a : SReg} {g : Bool} (hat : s.EndsAt (.tend a g)) (hg : g = true → s.core.getP 1 = true)
    (hover : s.AllOver s.cur) (hjnl : s.me.core.jnl = true) (hjournal : s.me.journalBad = false) :
    ∃ t, exec (.tend a g) s = .next t ∧ t.core.commit = true ∧ t.me.stage = s.me.stage ∧ t.mem = s.mem := by
  have hme : ((s.setSlot s.cur (·.discard)).setCommit s.cur).me =
      s.me.discard.setCore fun c => { c with commit := true, woundHeld := false } :=
    (State.setCommit_slotAt _ _).trans (by rw [State.slotAt_setSlot_same, State.me_eq])
  refine ⟨_, exec_tend_sets hat hg hover hjnl hjournal, ?_, ?_, rfl⟩
  · rw [State.core, hme]
    rfl
  · rw [hme]
    rfl

/-- R249, R439: in user mode TYLD stops the heads behind it and gates the slot. -/
theorem exec_tyld_user {s : State} {g : Bool} (hat : s.EndsAt (.tyld g)) (hg : g = true → s.core.getP 1 = true)
    (hu : s.core.sup = false) :
    ∃ t, exec (.tyld g) s = .next t ∧ t.me.stage = .gating ∧ t.me.yielded = true
      ∧ (∀ h, t.core.path.pc h = s.core.path.pcY + 4) ∧ t.core.sreg = s.core.landAll.sreg ∧ t.mem = s.mem
      ∧ (∀ f ∈ t.core.flights, f.landed = true)
      ∧ t.core.trappcS = BitVec.ofNat 32 (s.core.path.pcY + 4) ∧ t.core.trappcM = t.core.trappcS
      ∧ t.core.trappcA = t.core.trappcS ∧ t.core.trappcY = t.core.trappcS := by
  have hexec : exec (.tyld g) s =
      .next (s.setSlot s.cur fun l => (l.setCore Core.stopped).yields (s.acOf s.cur) (s.core.path.pcY + 4)) := by
    rw [exec_tyld, State.issueEnd_issues hat _ hg, State.yield_user hu hat.bank]
    rfl
  have hpath (c : Core) (n : Nat) : ((c.setPath fun _ => Path.allAt n).trapsAt n).path = Path.allAt n := c.path_setPath _
  refine ⟨_, hexec, ?_⟩
  simp only [State.core, State.me_eq, State.setSlot_cur, State.slotAt_setSlot_same, Slot.yields, Slot.setCore_core, hpath, Path.pc_allAt]
  simp [Core.trapsAt, Core.stopped, Slot.gate]

/-- R120, R249: in supervisor mode the gating of the slot is held until TRET. -/
theorem exec_tyld_sup {s : State} {g : Bool} (hat : s.EndsAt (.tyld g)) (hg : g = true → s.core.getP 1 = true) (hu : s.core.sup = true) :
    ∃ t, exec (.tyld g) s = .next t ∧ t.me.stage = s.me.stage ∧ t.me.gateHeld = true ∧ t.me.yielded = true
      ∧ (∀ h, t.core.path.pc h = s.core.path.pcY + 4) ∧ t.mem = s.mem := by
  refine ⟨_, (exec_tyld s g).trans ((State.issueEnd_issues hat _ hg).trans (congrArg _ (State.yield_sup hu))), ?_⟩
  simp only [State.core, State.me_eq, State.setSlot_cur, State.slotAt_setSlot_same, Core.path_setPath, Path.pc_allAt, State.setSlot_mem,
    implies_true, and_self]

/-- R405: TEND of a task that was wounded before the ac waits. -/
theorem exec_tend_waits {s : State} {a : SReg} {g : Bool} (hat : s.EndsAt (.tend a g)) (hg : g = true → s.core.getP 1 = true)
    (hc : s.core.commit = false) (hw : s.woundedBefore s.cur = true) : exec (.tend a g) s = .next s := by
  rw [exec_tend, State.issueEnd_issues hat _ hg, State.endStep_of_wounded hc hw]

/-- R113, R114: TRAP_ENTRY takes the oldest pending cause. -/
theorem exec_trapEntry_enters {s : State} {p : Async} {rest : List Async} (hpend : s.core.pend = p :: rest) (hu : s.core.sup = false)
    (hrun : s.me.stage = .running) (hc : s.core.commit = false) :
    ∃ t, exec .trapEntry s = .next t ∧ t.core.pend = rest ++ t.core.pend.drop rest.length
      ∧ t.core.sup = true ∧ t.core.trappcS = BitVec.ofNat 32 (s.nextS s.cur)
      ∧ t.core.trappcM = BitVec.ofNat 32 (s.core.path.place .m) ∧ t.core.trappcA = BitVec.ofNat 32 (s.core.path.place .a)
      ∧ t.core.trappcY = BitVec.ofNat 32 (s.core.path.place .y)
      ∧ t.core.trapcause = causeWord 0 true p.head p.cause ∧ t.core.trapval = p.val ∧ t.core.path.pcS = 0
      ∧ (∀ f ∈ t.core.flights, f.landed = true) ∧ t.core.ywait = none := by
  obtain ⟨g, hme⟩ := s.trapEntry_slotAt rest (s.nextS s.cur) (causeWord 0 true p.head p.cause) p.val
  have hpath : s.core.path = s.core.user := if_neg (Bool.eq_false_iff.mp hu)
  refine ⟨_, exec_trapEntry_takes hpend hu hrun hc, ?_⟩
  rw [hpath, State.core, hme]
  simp [Slot.granted, Core.path]

/-- Settles O59, case by case. -/
theorem endingATask : Obligations.EndingATask := by
  refine ⟨?_, fun s p rest => exec_trapEntry_enters⟩
  intro s a g hmay hland hy hbank
  have hat : s.EndsAt (.tend a g) := ⟨hmay, hland _ (Or.inl rfl), hy, hbank⟩
  have hat' : s.EndsAt (.tyld g) := ⟨hmay, hland _ (Or.inr rfl), hy, hbank⟩
  refine ⟨?_, fun hg => ⟨?_, ?_, exec_tyld_user hat' hg, exec_tyld_sup hat' hg, exec_tend_waits hat hg⟩⟩
  · rintro rfl hp
    exact exec_end_skips hat hat' hp
  · intro x hx hc hjnl hcommands hupdates hbuffers hdelayed hdeferred hmissed hwounded code
    exact exec_tend_ends hx hat hg ⟨hc, hcommands, hbank, hupdates, hwounded, hbuffers, hdelayed⟩ hjnl hdeferred hmissed
  · intro hc hjnl hcommands hupdates hbuffers hdelayed hjournal hwounded
    exact exec_tend_commits hat hg ⟨hc, hcommands, hbank, hupdates, hwounded, hbuffers, hdelayed⟩ hjnl hjournal

end Sys2Proof.Machine
end

section
/-! Proofs of the statement on input ports and operand buffers (spec/10 R266, R269, R271, R276). What follows a move of a region, the record of
a marker's passing, a cut (R278) and the arrivals of taps (R174), leaves its ports, buffers and links as the move made them. -/

namespace Sys2Proof.Machine

@[simp] theorem orStay_some (s t : State) : orStay s (some t) = .next t := rfl
@[simp] theorem orStay_none (s : State) : orStay s none = .next s := rfl

/-! ### Quadrants with the same tokens in their places -/

/-- Two quadrants hold the same tokens in their ports, their operand buffers and on their links. -/
structure Quad.SamePlaces (q r : Quad) : Prop where
  inPorts : r.inPorts = q.inPorts
  outPorts : r.outPorts = q.outPorts
  bufs : r.bufs = q.bufs
  links : r.links = q.links

namespace Quad.SamePlaces

variable {q r u : Quad}

theorem refl (q : Quad) : q.SamePlaces q := ⟨rfl, rfl, rfl, rfl⟩
theorem trans (h : q.SamePlaces r) (k : r.SamePlaces u) : q.SamePlaces u :=
  ⟨k.inPorts.trans h.inPorts, k.outPorts.trans h.outPorts, k.bufs.trans h.bufs, k.links.trans h.links⟩
theorem port (h : q.SamePlaces r) (p : Nat) : r.port p = q.port p := congrArg (aget ({} : InPort) p) h.inPorts
theorem outPort (h : q.SamePlaces r) (p : Nat) : r.outPort p = q.outPort p := congrArg (aget [] p) h.outPorts
theorem buf (h : q.SamePlaces r) (key : Nat) : r.buf key = q.buf key := congrArg (aget [] key) h.bufs

end Quad.SamePlaces

theorem Quad.tryCut_samePlaces (q : Quad) (now : Nat) : q.SamePlaces (q.tryCut now) := by
  unfold Quad.tryCut
  split
  · exact ⟨rfl, rfl, rfl, rfl⟩
  · exact .refl q

theorem Quad.resume_samePlaces (q : Quad) (p : Nat) (src : Nat × Nat) : q.SamePlaces (q.resume p src) := ⟨rfl, rfl, rfl, rfl⟩
theorem Quad.noteCame_samePlaces (q : Quad) (p : Nat) (t : Tok) (src : Nat × Nat) : q.SamePlaces (q.noteCame p t src) :=
  ⟨rfl, rfl, rfl, rfl⟩
theorem Quad.noteInside_samePlaces (q : Quad) (r p : Nat) (src : Nat × Nat) : q.SamePlaces (q.noteInside r p src) := by
  unfold Quad.noteInside
  split
  · exact .refl q
  · exact ⟨rfl, rfl, rfl, rfl⟩

theorem Slot.cutTo_samePlaces (l : Slot) (ctx : Nat) (q : Quad) (now : Nat) : q.SamePlaces (l.cutTo ctx q now).quad := by
  have hquad : (l.cutTo ctx q now).quad = q.tryCut now := by
    unfold Slot.cutTo
    dsimp only
    split <;> rfl
  exact hquad ▸ q.tryCut_samePlaces now

theorem Slot.cutCheck_samePlaces (l : Slot) (ctx now : Nat) : l.quad.SamePlaces (l.cutCheck ctx now).quad :=
  l.cutTo_samePlaces ctx l.quad now

/-- R276, R278: recording a marker that has entered moves no token. -/
theorem Slot.entered_samePlaces (l : Slot) (ctx p now : Nat) (t : Tok) (pr : Nat) :
    l.quad.SamePlaces (l.entered ctx p now t pr).quad := by
  unfold Slot.entered
  split
  · have hmark : l.quad.SamePlaces (l.markIn ctx p pr).quad := ⟨rfl, rfl, rfl, rfl⟩
    refine (hmark.trans ?_).trans (Slot.cutCheck_samePlaces _ ctx now)
    exact ⟨rfl, rfl, rfl, rfl⟩
  · exact .refl l.quad

/-! ### Steps that leave every quadrant -/

/-- From s to t the current slot and the quadrant of every slot stay as they are. -/
structure State.KeepsQuads (s t : State) : Prop where
  cur : t.cur = s.cur
  quad : ∀ ctx, (t.slotAt ctx).quad = (s.slotAt ctx).quad

theorem State.KeepsQuads.refl (s : State) : s.KeepsQuads s := ⟨rfl, fun _ => rfl⟩
theorem State.KeepsQuads.trans {s t u : State} (h : s.KeepsQuads t) (k : t.KeepsQuads u) : s.KeepsQuads u :=
  ⟨k.cur.trans h.cur, fun ctx => (k.quad ctx).trans (h.quad ctx)⟩

theorem State.KeepsQuads.samePlaces {s t : State} {q : Quad} {ctx : Nat} (h : s.KeepsQuads t) (hq : q.SamePlaces (s.slotAt ctx).quad) :
    q.SamePlaces (t.slotAt ctx).quad := (h.quad ctx).symm ▸ hq

/-- A change of one slot that leaves its quadrant. -/
theorem State.setSlot_keepsQuads (s : State) (ctx : Nat) {f : Slot → Slot} (hquad : (f (s.slotAt ctx)).quad = (s.slotAt ctx).quad) :
    s.KeepsQuads (s.setSlot ctx f) := by
  refine ⟨rfl, fun k => ?_⟩
  by_cases hk : k = ctx
  · subst hk
    rw [State.slotAt_setSlot_same, hquad]
  · rw [State.slotAt_setSlot_other s f hk]

theorem State.arriveOrDefer_keepsQuads (s : State) (ctx : Nat) (ref : Word) (weight : Nat) :
    s.KeepsQuads (s.arriveOrDefer ctx ref weight) := by
  unfold State.arriveOrDefer State.sendArrival
  split
  · split
    · exact .refl s
    · exact s.setSlot_keepsQuads ctx rfl
  · split
    · exact .refl s
    · exact ⟨rfl, fun _ => rfl⟩

theorem State.tapArrives_keepsQuads (s : State) (ctx : Nat) (r : Word) : s.KeepsQuads (s.tapArrives ctx r) := by
  unfold State.tapArrives
  split
  · exact s.arriveOrDefer_keepsQuads ctx r 1
  · exact .refl s

theorem State.tapsArrive_keepsQuads (s : State) (ctx seq : Nat) : s.KeepsQuads (s.tapsArrive ctx seq) :=
  State.KeepsQuads.trans
    (List.foldlRecOn _ _ (.refl s) fun u h x _ => h.trans (u.tapArrives_keepsQuads ctx x.2.2))
    (State.setSlot_keepsQuads _ ctx rfl)

/-- R174: a last-element marker that has entered its port moves no other token. -/
theorem State.lastEntered_keepsQuads (s : State) (src : Nat × Nat) : s.KeepsQuads (s.lastEntered src) := by
  unfold State.lastEntered
  split
  · split
    · exact .refl s
    · exact s.tapsArrive_keepsQuads src.1 src.2
  · exact .refl s

/-! ### What the moves make of the places -/

/-- R276: the token that is due enters behind the others. -/
theorem Quad.portEntry_enters {q : Quad} {now p : Nat} {x : Coming} {rest : List Coming} (hin : (q.port p).incoming = x :: rest)
    (hdue : x.due ≤ now) (hroom : (q.port p).q.length < 8) (hlive : q.frozen = false) :
    q.portEntry now p = some { q with
      inPorts := aset p (Quad.enterPort { q.port p with incoming := rest } x.tok) q.inPorts
      busyAc := now } := by
  simp only [Quad.portEntry, hin, hlive]
  exact if_neg (by simp [hdue, hroom])

/-- R266: the bare marker at the head goes. -/
theorem Quad.bareDiscard_removes {q : Quad} {p : Nat} {tok : Tok} {rest : List Tok} (hq : (q.port p).q = tok :: rest)
    (hbare : tok.isBare = true) (hlive : q.frozen = false) :
    q.bareDiscard p = some { q with inPorts := aset p { q.port p with q := rest, taken := [] } q.inPorts } := by
  simp [Quad.bareDiscard, hq, hbare, hlive]

/-- R271: result k may leave its link: it is due, nothing is due before it at its place, and the region is not frozen. -/
structure Quad.MayEnter (q : Quad) (now k : Nat) (x : Transit) : Prop where
  link : q.links[k]? = some x
  due : x.due ≤ now
  first : q.overtaken k x = false
  live : q.frozen = false

section
variable {q : Quad} {now k : Nat} {x : Transit} (h : q.MayEnter now k x) (bound : Nat → Bool)
include h

theorem Quad.bufferEntry_enters_buf {key : Nat} (hdst : x.dst = .buf key) (hroom : (q.buf key).length < q.capacity (.buf key)) :
    ∃ r, q.bufferEntry now k bound = some r ∧ r.buf key = q.buf key ++ [x.tok] ∧ r.links = ldel k q.links := by
  have hentry : q.bufferEntry now k bound = some { q with
      links := ldel k q.links, busyAc := now, bufs := amod [] key (· ++ [x.tok]) q.bufs } := by
    simp [Quad.bufferEntry, h.link, h.due, h.first, h.live, hdst, hroom]
  exact ⟨_, hentry, aget_amod_same ([] : List Tok) key (· ++ [x.tok]) q.bufs, rfl⟩

theorem Quad.bufferEntry_enters_out {p : Nat} (hdst : x.dst = .out p) (hroom : (q.outPort p).length < 8) :
    ∃ r, q.bufferEntry now k bound = some r ∧ r.outPort p = q.outPort p ++ [(x.tok, x.rep)] ∧ r.links = ldel k q.links := by
  have hout := aget_amod_same ([] : List (Tok × Bool)) p (· ++ [(x.tok, x.rep)]) q.outPorts
  have hcap : ¬ q.capacity (.out p) ≤ (q.outPort p).length := Nat.not_le.mpr hroom
  simp only [Quad.bufferEntry, h.link, hdst, h.first, h.live, Nat.not_lt.mpr h.due, hcap, decide_false, Bool.or_self, Bool.false_eq_true,
    if_false]
  split
  · exact ⟨_, rfl, hout, rfl⟩
  · exact ⟨_, rfl, hout, rfl⟩

end

/-! ### Nothing moves in a frozen region (R339) -/

theorem Quad.portEntry_frozen {q : Quad} (h : q.frozen = true) (now p : Nat) : q.portEntry now p = none := by
  unfold Quad.portEntry
  dsimp only
  split
  · rfl
  · exact if_pos (.inr (.inr h))

theorem Quad.bareDiscard_frozen {q : Quad} (h : q.frozen = true) (p : Nat) : q.bareDiscard p = none := by
  unfold Quad.bareDiscard
  dsimp only
  split
  · exact if_neg (by simp [h])
  · rfl

theorem Quad.bufferEntry_frozen {q : Quad} (h : q.frozen = true) (now k : Nat) (bound : Nat → Bool) :
    q.bufferEntry now k bound = none := by
  unfold Quad.bufferEntry
  split
  · rfl
  · exact if_pos (by simp [h])

/-! ### What the events leave in the slot -/

/-- R278: a move that the quadrant makes stands in the current slot, whether or not it completes a cut. -/
theorem State.quadMove_moves {s : State} {f : Quad → Option Quad} {r : Quad} (h : f s.me.quad = some r) :
    ∃ t, s.quadMove f = .next t ∧ r.SamePlaces t.me.quad := by
  refine ⟨s.setMe (·.cutTo s.cur r (s.acOf s.cur)), by simp only [State.quadMove, h, Option.map_some, orStay_some], ?_⟩
  simpa using Slot.cutTo_samePlaces (s.slotAt s.cur) s.cur r _

theorem State.quadMove_stays {s : State} {f : Quad → Option Quad} (h : f s.me.quad = none) : s.quadMove f = .next s := by
  simp only [State.quadMove, h, Option.map_none, orStay_none]

/-- R276, R285: noting the token that has entered leaves the ports as its entry made them. -/
theorem State.tokenIn_samePlaces (s : State) (ctx p : Nat) (q : Quad) (t : Tok) (pr : Nat) (src : Nat × Nat) (other : Bool) :
    q.SamePlaces ((s.tokenIn ctx p q t pr src other).slotAt ctx).quad := by
  have hinside : q.SamePlaces (if t.isValue then q.noteInside pr p src else q) := by
    split
    · exact q.noteInside_samePlaces pr p src
    · exact .refl q
  have hcame (r : Quad) : r.SamePlaces (if other then r.noteCame p { t with tag := pr } src else r) := by
    split
    · exact r.noteCame_samePlaces p _ src
    · exact .refl r
  unfold State.tokenIn
  rw [State.slotAt_setSlot_same]
  exact (((hinside.trans (hcame _)).trans (Quad.resume_samePlaces _ p src)).trans (Slot.cutTo_samePlaces _ ctx _ _)).trans
    (Slot.entered_samePlaces _ ctx p _ t pr)

theorem State.portEnter_enters {s : State} {ctx p : Nat} {x : Coming} {rest : List Coming} {r : Quad}
    (hin : ((s.quadNow ctx).port p).incoming = x :: rest) (hentry : (s.quadNow ctx).portEntry (s.acOf ctx) p = some r) :
    ∃ t, s.portEnter ctx p = some t ∧ t.cur = s.cur ∧ r.SamePlaces (t.slotAt ctx).quad := by
  have hplaces := s.tokenIn_samePlaces ctx p r x.tok ((s.quadNow ctx).port p).pr x.src (x.again || x.src.1 != ctx)
  have hlast (u : State) := u.lastEntered_keepsQuads x.src
  rw [State.quadNow] at hin hentry hplaces
  simp only [State.portEnter, hin, hentry]
  refine ⟨_, rfl, ?_⟩
  split
  · exact ⟨(hlast _).cur, (hlast _).samePlaces hplaces⟩
  · exact ⟨rfl, hplaces⟩

theorem State.portEnter_frozen {s : State} {ctx : Nat} (h : (s.quadNow ctx).frozen = true) (p : Nat) : s.portEnter ctx p = none := by
  have hnone := Quad.portEntry_frozen h (s.acOf ctx) p
  rw [State.quadNow] at hnone
  simp only [State.portEnter, hnone]
  split
  · contradiction
  · rfl

/-! ### The events (R266, R271, R276) -/

theorem exec_portTokenEntry_enters {s : State} {p : Nat} {x : Coming} {rest : List Coming}
    (hin : ((s.quadNow s.cur).port p).incoming = x :: rest) (hdue : x.due ≤ s.acOf s.cur)
    (hroom : ((s.quadNow s.cur).port p).q.length < 8) (hlive : (s.quadNow s.cur).frozen = false) :
    ∃ t, exec (.portTokenEntry p) s = .next t
      ∧ t.me.quad.port p = Quad.enterPort { (s.quadNow s.cur).port p with incoming := rest } x.tok := by
  obtain ⟨t, hstep, hcur, hplaces⟩ := State.portEnter_enters hin (Quad.portEntry_enters hin hdue hroom hlive)
  refine ⟨t, congrArg (orStay s) hstep, ?_⟩
  rw [State.me_eq, hcur, hplaces.port p]
  exact aget_aset_same _ _ _ _

theorem exec_bareMarkerDiscard_removes {s : State} {p : Nat} {tok : Tok} {rest : List Tok}
    (hq : ((s.quadNow s.cur).port p).q = tok :: rest) (hbare : tok.isBare = true) (hlive : (s.quadNow s.cur).frozen = false) :
    ∃ t, exec (.bareMarkerDiscard p) s = .next t
      ∧ t.me.quad.port p = { (s.quadNow s.cur).port p with q := rest, taken := [] } := by
  obtain ⟨t, hstep, hplaces⟩ := State.quadMove_moves (s := s) (f := fun q => (q.settle (s.acOf s.cur)).bareDiscard p)
    (Quad.bareDiscard_removes hq hbare hlive)
  exact ⟨t, hstep, (hplaces.port p).trans (aget_aset_same _ _ _ _)⟩

/-- R271: the result leaves its link for the place that takes it. -/
theorem exec_tokenBufferEntry_moves {s : State} {k : Nat} {r : Quad}
    (hentry : (s.quadNow s.cur).bufferEntry (s.acOf s.cur) k (s.takesFrom s.cur) = some r) :
    ∃ t, exec (.tokenBufferEntry k) s = .next t ∧ r.SamePlaces t.me.quad :=
  State.quadMove_moves (f := fun q => (q.settle (s.acOf s.cur)).bufferEntry (s.acOf s.cur) k (s.takesFrom s.cur)) hentry

theorem exec_portTokenEntry_frozen {s : State} (h : (s.quadNow s.cur).frozen = true) (p : Nat) :
    exec (.portTokenEntry p) s = .next s :=
  congrArg (orStay s) (State.portEnter_frozen h p)

theorem exec_bareMarkerDiscard_frozen {s : State} (h : (s.quadNow s.cur).frozen = true) (p : Nat) :
    exec (.bareMarkerDiscard p) s = .next s :=
  State.quadMove_stays (f := fun q => (q.settle (s.acOf s.cur)).bareDiscard p) (Quad.bareDiscard_frozen h p)

theorem exec_tokenBufferEntry_frozen {s : State} (h : (s.quadNow s.cur).frozen = true) (k : Nat) :
    exec (.tokenBufferEntry k) s = .next s :=
  State.quadMove_stays (f := fun q => (q.settle (s.acOf s.cur)).bufferEntry (s.acOf s.cur) k (s.takesFrom s.cur))
    (Quad.bufferEntry_frozen h _ k _)

/-- Settles O48, event by event. -/
theorem swardPortsAndBuffers : Obligations.SwardPortsAndBuffers := by
  intro s q
  refine ⟨?_, ?_, ?_, fun hfrozen p => ⟨exec_portTokenEntry_frozen hfrozen p, exec_bareMarkerDiscard_frozen hfrozen p,
    exec_tokenBufferEntry_frozen hfrozen p⟩⟩
  · intro p due tok src k again rest hin hdue hroom hlive
    obtain ⟨t, hstep, hport⟩ := exec_portTokenEntry_enters hin hdue hroom hlive
    exact ⟨t, hstep, by rw [hport]; rfl, by rw [hport]; rfl, by rw [hport]; rfl⟩
  · intro p tok rest hq hbare hlive
    obtain ⟨t, hstep, hport⟩ := exec_bareMarkerDiscard_removes hq hbare hlive
    exact ⟨t, hstep, by rw [hport], by rw [hport]⟩
  · intro k x hlink hdue hfirst hlive
    have hmay : q.MayEnter (s.acOf s.cur) k x := ⟨hlink, hdue, hfirst, hlive⟩
    constructor
    · intro key hdst hroom
      obtain ⟨r, hentry, hbuf, hlinks⟩ := Quad.bufferEntry_enters_buf hmay (s.takesFrom s.cur) hdst hroom
      obtain ⟨t, hstep, hplaces⟩ := exec_tokenBufferEntry_moves hentry
      exact ⟨t, hstep, (hplaces.buf key).trans hbuf, hplaces.links.trans hlinks⟩
    · intro p hdst hroom
      obtain ⟨r, hentry, hout, hlinks⟩ := Quad.bufferEntry_enters_out hmay (s.takesFrom s.cur) hdst hroom
      obtain ⟨t, hstep, hplaces⟩ := exec_tokenBufferEntry_moves hentry
      exact ⟨t, hstep, (hplaces.outPort p).trans hout, hplaces.links.trans hlinks⟩

end Sys2Proof.Machine
end

section
/-! Proofs of the statement on power and service, the package (R358, R361, R462, R463, R467, R469 to R473): the stages of the dies, the images
that they run, the reports that are sent, ageing, heat and the pod. -/

namespace Sys2Proof.Machine

/-! ### Stages (R467) -/

@[simp] theorem State.setDie_dies_length (s : State) (d : Nat) (f : Die → Die) : (s.setDie d f).dies.length = s.dies.length :=
  lmod_length d f s.dies

theorem exec_powerGood {s : State} (h : s.powered = false) : exec .powerGood s = .next { s with powered := true } := by
  show execPowerGood s = _
  simp [execPowerGood, h]

/-- R467: a die whose firmware has verified and whose stacks have trained enters the stage in which it serves; D0 once no task is bound. -/
theorem State.raise_raises {s : State} {d : Nat} (hverified : (s.die d).verified = true) (htrained : (s.die d).trained = true)
    (hstage : (s.die d).stage < 2) (hempty : d = 0 → s.d0Empty = true) :
    s.raise d = s.setDie d fun x => { x with stage := s.fullStage } := by
  have hfree : (d == 0 && !s.d0Empty) = false := by
    by_cases hd : d = 0
    · simp [hempty hd]
    · simp [hd]
  simp [State.raise, hverified, htrained, hfree, Nat.not_le.mpr hstage]

theorem State.raise_waits {s : State} (hbound : s.d0Empty = false) : s.raise 0 = s := by
  simp [State.raise, hbound]

section
variable {s : State} (hpower : s.powered = true) (hdies : s.dies.length = 4)
include hpower hdies

section
variable (hverified : (s.die 0).verified = false) (hfail : (s.die 0).fail = false)
include hverified hfail

/-- R467: the image that D0 boots from is installed, and D0 enters stage 1. -/
theorem exec_firmwareVerify_accepts (hkind : imageKind (Config.bootImage 0) = 1) (haccept : imageAccepted (Config.bootImage 0) = true) :
    ∃ t, exec (.firmwareVerify 0) s = .next t ∧ (t.die 0).stage = 1 ∧ (t.die 0).verified = true
      ∧ (t.die 0).images = ((s.die 0).install (Config.bootImage 0)).images := by
  have hlt : 0 < s.dies.length := hdies ▸ by decide
  have hstep : exec (.firmwareVerify 0) s = .next ((s.setDie 0 fun d => { d.install (Config.bootImage 0) with verified := true }).setDie 0
      fun d => { d with stage := 1 }) := by
    show execFirmwareVerify 0 s = _
    simp [execFirmwareVerify, hpower, hverified, hfail, hkind, haccept]
  refine ⟨_, hstep, ?_⟩
  rw [State.die_setDie _ _ _ (by simpa using hlt), State.die_setDie _ _ _ hlt]
  exact ⟨rfl, rfl, rfl⟩

theorem exec_firmwareVerify_refuses (hrefuse : imageAccepted (Config.bootImage 0) = false) :
    ∃ t, exec (.firmwareVerify 0) s = .next t ∧ (t.die 0).stage = (s.die 0).stage ∧ (t.die 0).fail = true
      ∧ (t.die 0).verified = false := by
  have hstep : exec (.firmwareVerify 0) s = .next (s.setDie 0 fun d => { d with fail := true }) := by
    show execFirmwareVerify 0 s = _
    simp [execFirmwareVerify, hpower, hverified, hfail, hrefuse]
  refine ⟨_, hstep, ?_⟩
  rw [State.die_setDie _ _ _ (hdies ▸ by decide)]
  exact ⟨rfl, rfl, hverified⟩

end

section
variable {d : Nat} (hd : d < 4) (hfail : (s.die d).fail = false) (htrained : (s.die d).trained = false)
include hd hfail htrained

/-- R467: the stacks of a die whose firmware has verified have trained for the first time. -/
theorem exec_hbmTrainingComplete_raises (hverified : (s.die d).verified = true) (hstage : (s.die d).stage < 2)
    (hempty : d = 0 → s.d0Empty = true) : ∃ t, exec (.hbmTrainingComplete d) s = .next t ∧ (t.die d).trained = true
      ∧ (t.die d).stage = s.fullStage ∧ ∀ e, e ≠ d → t.die e = s.die e := by
  have hlt : d < s.dies.length := hdies ▸ hd
  have hstep : exec (.hbmTrainingComplete d) s = .next ((s.setDie d fun d => { d with trained := true }).raise d) := by
    show execHbmTrainingComplete d s = _
    have hnum : ¬ 8 ≤ d := by omega
    simp [execHbmTrainingComplete, hpower, hnum, Nat.mod_eq_of_lt hd, hfail, htrained, Nat.not_le.mpr hd]
  have hdie := s.die_setDie d (fun d => { d with trained := true }) hlt
  have hraise := State.raise_raises (s := s.setDie d fun d => { d with trained := true }) (d := d) (by rw [hdie]; exact hverified)
    (by rw [hdie]) (by rw [hdie]; exact hstage) hempty
  refine ⟨_, hstep, ?_⟩
  rw [hraise, State.die_setDie _ _ _ (by simpa using hlt), hdie]
  refine ⟨rfl, rfl, fun e he => ?_⟩
  rw [State.die_setDie_other _ _ he, State.die_setDie_other _ _ he]

/-- R474: the training of a die has ended in failure. -/
theorem exec_hbmTrainingComplete_fails : ∃ t, exec (.hbmTrainingComplete (d + 4)) s = .next t ∧ (t.die d).fail = true
    ∧ (t.die d).stage = (s.die d).stage ∧ ∀ e, e ≠ d → t.die e = s.die e := by
  have hstep : exec (.hbmTrainingComplete (d + 4)) s = .next (s.setDie d fun d => { d with fail := true }) := by
    show execHbmTrainingComplete (d + 4) s = _
    have hnum : ¬ 8 ≤ d + 4 := by omega
    simp [execHbmTrainingComplete, hpower, hnum, Nat.mod_eq_of_lt hd, hfail, htrained]
  refine ⟨_, hstep, ?_⟩
  rw [State.die_setDie _ _ _ (hdies ▸ hd)]
  exact ⟨rfl, rfl, fun e he => State.die_setDie_other _ _ he⟩

end

/-- R467: D0, whose stacks have trained before, is raised once its slots are empty, and waits till then. -/
theorem exec_hbmTrainingComplete_again (hverified : (s.die 0).verified = true) (hstage : (s.die 0).stage < 2)
    (hfail : (s.die 0).fail = false) (htrained : (s.die 0).trained = true) :
    (s.d0Empty = true → ∃ t, exec (.hbmTrainingComplete 0) s = .next t ∧ (t.die 0).stage = s.fullStage ∧ ∀ e, e ≠ 0 → t.die e = s.die e)
      ∧ (s.d0Empty = false → exec (.hbmTrainingComplete 0) s = .next s) := by
  have hstep : exec (.hbmTrainingComplete 0) s = .next (s.raise 0) := by
    show execHbmTrainingComplete 0 s = _
    simp [execHbmTrainingComplete, hpower, hfail, htrained]
  refine ⟨fun hempty => ⟨_, hstep, ?_⟩, fun hbound => by rw [hstep, State.raise_waits hbound]⟩
  rw [State.raise_raises hverified htrained hstage fun _ => hempty]
  exact ⟨by rw [State.die_setDie _ _ _ (hdies ▸ by decide)], fun e he => State.die_setDie_other _ _ he⟩

end

/-- A die that stands, after a change of every die. -/
theorem State.die_map {s t : State} {f : Die → Die} (hdies : t.dies = s.dies.map f) {d : Nat} (hd : (s.die d).stage ≠ 0) :
    t.die d = f (s.die d) := by
  unfold State.die at hd ⊢
  rw [hdies, List.getElem?_map]
  cases hx : s.dies[d]? with
  | none => simp [hx] at hd
  | some x => rfl

/-- R467: the pod descriptor has been read, and the dies of stage 2 enter stage 3. -/
theorem exec_linkTrainingComplete_links {s : State} (hlinked : s.linked = false) (hstage : 2 ≤ (s.die 0).stage) :
    ∃ t, exec .linkTrainingComplete s = .next t ∧ t.linked = true ∧ t.pkgId = Config.podId % 1024
      ∧ ∀ d : Nat, (s.die d).stage = 2 → (t.die d).stage = 3 := by
  have hstep : exec .linkTrainingComplete s = .next { s with
      linked := true
      pkgId := Config.podId % 1024
      dies := s.dies.map fun d : Die => if d.stage = 2 then { d with stage := 3 } else d } := by
    show execLinkTrainingComplete s = _
    simp [execLinkTrainingComplete, hlinked, Nat.not_lt.mpr hstage]
  refine ⟨_, hstep, rfl, rfl, fun d hd => ?_⟩
  rw [State.die_map rfl (by rw [hd]; decide), if_pos hd]

/-! ### Images (R470) -/

/-- R470: the image of an update is installed at the current slot's die, or refused whole. -/
theorem exec_firmwareUpdate_verifies {s : State} (hstage : (s.die (dieOf (nodeOf s.cur))).stage ≠ 0)
    (hhead : backedRun s.update 64 = true) (hrun : backedRun s.update (0x80 + s.memWord (s.update + 0x10) + 3309) = true) :
    let b := readBytes s.mem s.update (0x80 + s.memWord (s.update + 0x10) + 3309)
    (imageAccepted b = true → exec .firmwareUpdate s = .next (s.setDie (dieOf (nodeOf s.cur)) (·.install b)))
      ∧ (imageAccepted b = false → exec .firmwareUpdate s = .next s) := by
  intro b
  have hstep : exec .firmwareUpdate s
      = orStay s (if imageAccepted b then some (s.setDie (dieOf (nodeOf s.cur)) (·.install b)) else none) := by
    show execFirmwareUpdate s = _
    simp [execFirmwareUpdate, hstage, hhead, hrun, b]
  exact ⟨fun haccept => by rw [hstep, if_pos haccept, orStay_some],
    fun hrefuse => by rw [hstep, if_neg (Bool.eq_false_iff.mp hrefuse), orStay_none]⟩

/-- R470: everything that the checks of an image ask for. -/
theorem imageAccepted_iff (b : List Byte) : imageAccepted b = true ↔
    imageForm b = true ∧ Config.fusedMinSvn (imageKind b) ≤ imageSvn b
      ∧ (sha384Num (Config.publicKey b 0) = Config.fusedKeyDigest 0
        ∧ Crypto.ed25519Ok (Config.publicKey b 0) (b.take (0x40 + imageLen b)) ((b.drop (0x40 + imageLen b)).take 64) = true)
      ∧ sha384Num (Config.publicKey b 1) = Config.fusedKeyDigest 1
        ∧ Crypto.mlDsa65Ok (Config.publicKey b 1) (b.take (0x40 + imageLen b)) (b.drop (0x80 + imageLen b)) = true := by
  simp [imageAccepted, numbered, signatureOk, and_assoc]

theorem imageForm_kind {b : List Byte} (h : imageForm b = true) : imageKind b = 1 ∨ imageKind b = 2 := by
  simp only [imageForm, Bool.and_eq_true, Bool.or_eq_true, beq_iff_eq] at h
  obtain ⟨⟨⟨⟨⟨hkind, -⟩, -⟩, -⟩, -⟩, -⟩ := h
  exact hkind

/-! ### Reports (R469, R471) -/

theorem exec_attestationRequest_sends {s : State} (nonce : Nat) (hstage : (s.die 0).stage ≠ 0) :
    exec (.attestationRequest nonce) s = .next { s with sent := s.sent ++ [.attest (s.attestation nonce)
      [Config.reportSignature 0 (reportBytes (s.attestation nonce)), Config.reportSignature 1 (reportBytes (s.attestation nonce))]] } := by
  show execAttestationRequest nonce s = _
  simp [execAttestationRequest, hstage]

theorem State.mem_attestation_image {s : State} (nonce : Nat) {d : Die} (hd : d ∈ s.dies) {x : Nat × Nat × Nat} (hx : x ∈ d.images) :
    x.1 ∈ s.attestation nonce ∧ x.2.1 ∈ s.attestation nonce ∧ x.2.2 ∈ s.attestation nonce := by
  have hmem (v : Nat) (hv : v ∈ [x.1, x.2.1, x.2.2]) : v ∈ s.attestation nonce :=
    List.mem_append_left _ (List.mem_flatMap.mpr ⟨d, hd, List.mem_cons_of_mem _ (List.mem_flatMap.mpr ⟨x, hx, hv⟩)⟩)
  exact ⟨hmem _ (by simp), hmem _ (by simp), hmem _ (by simp)⟩

/-- R469: the status word stands behind the queues in the package's part of the window. -/
theorem State.windowRead_statusWord {s : State} (hbridge : s.bridge = true) (hindex : s.groupIndex < 32) :
    s.windowRead (2 ^ 21 * s.groupIndex + 0x1F0000) = some s.statusWord := by
  have hbytes : ¬ windowBytes ≤ 2 ^ 21 * s.groupIndex + 0x1F0000 := by simp only [windowBytes]; omega
  have hpkg : windowPkg (2 ^ 21 * s.groupIndex + 0x1F0000) = s.groupIndex := by simp only [windowPkg]; omega
  have hplace : (2 ^ 21 * s.groupIndex + 0x1F0000) % 2 ^ 21 = 0x1F0000 := by omega
  unfold State.windowRead
  rw [if_neg (by simpa [hbridge] using hbytes), if_neg (not_not_intro hpkg), if_pos hplace]

/-- R469: LNK and UP are the low bits of the status word. -/
theorem State.statusWord_low (s : State) :
    s.statusWord % 4 = bitIf s.linked 1 + bitIf (decide (1 ≤ (s.die 0).stage)) 0 := by
  have hlinked : bitIf s.linked 1 ≤ 2 := by unfold bitIf; split <;> decide
  have hup : bitIf (decide (1 ≤ (s.die 0).stage)) 0 ≤ 1 := by unfold bitIf; split <;> decide
  unfold State.statusWord
  omega

/-! ### Ageing (R462, R463, R472) -/

/-- R472: a sample marks at most one part, and retires none. -/
theorem exec_ageingSample_marks {s : State} (hstage : (s.die 0).stage ≠ 0) :
    ∃ t, exec .ageingSample s = .next t ∧ t.retired = s.retired ∧ (t.marked = s.marked ∨ ∃ p, t.marked = s.marked ++ [p]) := by
  show ∃ t, execAgeingSample s = .next t ∧ _
  simp only [execAgeingSample, hstage, if_false]
  split
  · exact ⟨_, rfl, rfl, .inl rfl⟩
  · exact ⟨_, rfl, rfl, .inl rfl⟩
  · exact ⟨_, rfl, rfl, .inl rfl⟩
  · refine ⟨_, rfl, ?_⟩
    split
    · exact ⟨rfl, .inl rfl⟩
    · exact ⟨rfl, .inr ⟨_, rfl⟩⟩

@[simp] theorem State.checkCanon_retired (s : State) (d : Nat) : (s.checkCanon d).retired = s.retired := by
  unfold State.checkCanon
  split <;> rfl

/-- A worn tile joins the parts that are retired: none leaves them. -/
theorem State.mem_retireTile {s : State} {p : Part} (n : Nat) (hp : p ∈ s.retired) : p ∈ (s.retireTile n).retired := by
  unfold State.retireTile
  split
  · exact hp
  · split
    · rw [State.checkCanon_retired]
      exact List.mem_cons_of_mem _ hp
    · split
      · exact hp
      · exact hp

/-- R463: a PE that is marked is retired once no task is bound in its slot. -/
theorem exec_retirement_pe {s : State} {k n p : Nat} (hmark : s.marked[k]? = some (.pe n p))
    (hfree : (s.slotAt (4 * n + p / 64)).stage = .free) : ∃ t, exec (.retirement k) s = .next t ∧ .pe n p ∈ t.retired := by
  have hpart : s.partFree (.pe n p) = true := by simp [State.partFree, State.slotEmpty, hfree]
  show ∃ t, execRetirement k s = .next t ∧ _
  simp only [execRetirement, hmark, hpart, Bool.not_true, Bool.false_eq_true, if_false]
  refine ⟨_, rfl, ?_⟩
  dsimp only [Option.getD]
  split
  · exact State.mem_retireTile _ List.mem_cons_self
  · exact List.mem_cons_self

/-! ### Heat (R473) and the pod (R361) -/

theorem exec_softTemperatureLimit_toggles {s : State} {d : Nat} (hd : d < 4) :
    exec (.softTemperatureLimit d) s = .next (s.setDie d fun d => { d with hot := !d.hot }) := by
  show execSoftTemperatureLimit d s = _
  simp [execSoftTemperatureLimit, Nat.not_le.mpr hd]

/-- R473: only what was sent outside, and the model's own order of moves, outlast the loss of power. -/
theorem exec_hardTemperatureLimit (s : State) : exec .hardTemperatureLimit s = .next { State.reset with
    agenda := s.agenda
    moves := s.moves
    draws := s.draws
    sent := s.sent } := rfl

/-- R467: at reset every die is in stage 0. -/
theorem State.reset_die_stage (d : Nat) : (State.reset.die d).stage = 0 := by
  have hdie : State.reset.die d = {} := by
    unfold State.die
    cases hd : State.reset.dies[d]? with
    | none => rfl
    | some x =>
      have hmem : x ∈ List.replicate 4 ({} : Die) := List.mem_of_getElem? hd
      rw [List.eq_of_mem_replicate hmem]
      rfl
  rw [hdie]

/-- R361: a package that has left the pod is unreachable, as those before it. -/
theorem exec_packageLeavesPod_unreachable (s : State) (pkg : Nat) :
    ∃ t, exec (.packageLeavesPod pkg) s = .next t ∧ pkg ∈ t.unreachable ∧ ∀ p ∈ s.unreachable, p ∈ t.unreachable := by
  show ∃ t, execPackageLeavesPod pkg s = .next t ∧ _
  unfold execPackageLeavesPod
  split
  · next h => exact ⟨s, rfl, List.contains_iff_mem.mp h, fun p hp => hp⟩
  · exact ⟨_, rfl, List.mem_cons_self, fun p hp => List.mem_cons_of_mem _ hp⟩

theorem State.reaches_of_unreachable {s : State} {pkg : Nat} (h : pkg ∈ s.unreachable) : s.reaches pkg = false := by
  simp [State.reaches, h]

end Sys2Proof.Machine
end

section
/-! Proofs of the statement on power and service, the package loader (R302, R462, R464): where the blocks of a graph are placed, the streams that
its edges are bound to, the scopes of its levels, and what loading it leaves in the slots and in memory. -/

namespace Sys2Proof.Machine

/-! ### Endpoints (R151) -/

theorem portEndpoint_toNat (cpl : Bool) {p : Nat} (hp : p < 256) : (portEndpoint cpl p).toNat = 2 * 2 ^ 60 + bitIf cpl 8 + p := by
  have hcpl : bitIf cpl 8 ≤ 256 := by cases cpl <;> decide
  rw [portEndpoint, BitVec.toNat_ofNat]
  omega

theorem epType_portEndpoint (cpl : Bool) {p : Nat} (hp : p < 256) : epType (portEndpoint cpl p).toNat = 2 := by
  have hcpl : bitIf cpl 8 ≤ 256 := by cases cpl <;> decide
  rw [portEndpoint_toNat cpl hp, epType]
  omega

theorem epPort_portEndpoint (cpl : Bool) {p : Nat} (hp : p < 256) : epPort (portEndpoint cpl p).toNat = p := by
  have hcpl : bitIf cpl 8 % 256 = 0 := by cases cpl <;> decide
  rw [portEndpoint_toNat cpl hp, epPort]
  omega

theorem remoteEndpoint_toNat {ctx p : Nat} (cpl : Bool) (hctx : ctx < 4096) (hp : p < 64) :
    (remoteEndpoint ctx cpl p).toNat = 4 * 2 ^ 60 + 2 ^ 49 + ctx / 4 * 2 ^ 38 + ctx % 4 * 2 ^ 36 + p * 2 ^ 30 + bitIf cpl 29 := by
  have hcpl : bitIf cpl 29 ≤ 2 ^ 29 := by cases cpl <;> decide
  rw [remoteEndpoint, BitVec.toNat_ofNat, nodeOf, planeOf]
  omega

/-- R151: the type, the slot and the port of a remote-port endpoint. -/
theorem remoteEndpoint_fields {ctx p : Nat} (cpl : Bool) (hctx : ctx < 4096) (hp : p < 64) :
    epType (remoteEndpoint ctx cpl p).toNat = 4 ∧ epCtx (remoteEndpoint ctx cpl p).toNat = ctx
      ∧ epRemotePort (remoteEndpoint ctx cpl p).toNat = p := by
  have hcpl : bitIf cpl 29 ≤ 2 ^ 29 := by cases cpl <;> decide
  rw [remoteEndpoint_toNat cpl hctx hp]
  simp only [epType, epCtx, epRemotePort, bitsOf]
  omega

/-! ### Placing (R462, R464) -/

theorem nodeAt_lt {die u v : Nat} (hu : u < 16) (hv : v < 16) : nodeAt die u v < 1024 := by
  unfold nodeAt
  split <;> split <;> omega

theorem State.canonicalTile_lt {s : State} {cx cy n : Nat} (h : s.canonicalTile cx cy = some n) : n < 1024 := by
  obtain ⟨hn, -⟩ := List.mem_filter.mp (List.mem_of_getElem? h)
  obtain ⟨v, hv, hn⟩ := List.mem_flatMap.mp hn
  obtain ⟨u, hu, rfl⟩ := List.mem_map.mp hn
  rw [List.mem_range] at hu hv
  exact nodeAt_lt hu (by omega)

/-- R462: a place is a slot of the tile that stands for its canonical tile. -/
structure GraphPlace.Stands (p : GraphPlace) (s : State) : Prop where
  slot : p.slot < 4
  tile : ∃ n, s.canonicalTile p.cx p.cy = some n ∧ p.ctx = 4 * n + p.slot

theorem GraphPlace.Stands.ctx_lt {p : GraphPlace} {s : State} (h : p.Stands s) : p.ctx < 4096 := by
  obtain ⟨n, htile, hctx⟩ := h.tile
  have := State.canonicalTile_lt htile
  have := h.slot
  omega

theorem State.placeOn_stands {s : State} {b : Block} {j : Nat} {p : GraphPlace} (h : s.placeOn b j = some p) : p.Stands s := by
  unfold State.placeOn at h
  dsimp only at h
  split at h
  · contradiction
  · next n htile =>
    obtain ⟨_, _, rfl⟩ := Option.map_eq_some_iff.mp h
    exact ⟨Nat.mod_lt _ (by decide), n, htile, rfl⟩

theorem not_mem_ctxs {done : List GraphPlace} {p : GraphPlace} (h : (!done.any fun d => d.ctx == p.ctx) = true) :
    p.ctx ∉ done.map (·.ctx) := by
  simpa using h

/-- R464: the place that the next block of a graph gets: one that the block can hold and no block before it has; a free one unless the block had
it before. -/
theorem State.placeGraph_cons {s : State} {k : Nat} {old : List GraphPlace} {b : Block} {bs : List Block} {done ps : List GraphPlace}
    (h : s.placeGraph k old (b :: bs) done = some ps) : ∃ p, p.Stands s ∧ p.ctx ∉ done.map (·.ctx)
      ∧ (old = [] → (s.slotAt p.ctx).stage = .free) ∧ s.placeGraph k old bs (done ++ [p]) = some ps := by
  simp only [State.placeGraph, Option.orElse_eq_or] at h
  split at h
  · contradiction
  · next p hp =>
    rcases Option.or_eq_some_iff.mp hp with hagain | ⟨-, hfirst⟩
    · obtain ⟨hbind, hopen⟩ := Option.filter_eq_some_iff.mp hagain
      obtain ⟨q, hq, hplace⟩ := Option.bind_eq_some_iff.mp hbind
      rw [Bool.and_eq_true] at hopen
      refine ⟨p, State.placeOn_stands hplace, not_mem_ctxs hopen.1, ?_, h⟩
      rintro rfl
      simp at hq
    · obtain ⟨j, -, hj⟩ := List.exists_of_findSome?_eq_some hfirst
      obtain ⟨hplace, hopen⟩ := Option.filter_eq_some_iff.mp hj
      rw [Bool.and_eq_true, Bool.and_eq_true, beq_iff_eq] at hopen
      obtain ⟨⟨hnew, -⟩, hfree⟩ := hopen
      exact ⟨p, State.placeOn_stands hplace, not_mem_ctxs hnew, fun _ => hfree, h⟩

/-- The blocks of a graph stand on slots of their own, which are free unless they had them before. -/
structure State.PlacedApart (s : State) (old ps : List GraphPlace) : Prop where
  apart : (ps.map (·.ctx)).Nodup
  stands : ∀ p ∈ ps, p.Stands s
  free : old = [] → ∀ p ∈ ps, (s.slotAt p.ctx).stage = .free

theorem State.PlacedApart.nil (s : State) (old : List GraphPlace) : s.PlacedApart old [] :=
  ⟨List.nodup_nil, by simp, by simp⟩

theorem State.PlacedApart.snoc {s : State} {old ps : List GraphPlace} {p : GraphPlace} (h : s.PlacedApart old ps) (hp : p.Stands s)
    (hnew : p.ctx ∉ ps.map (·.ctx)) (hfree : old = [] → (s.slotAt p.ctx).stage = .free) : s.PlacedApart old (ps ++ [p]) where
  apart := by
    rw [List.map_append, List.map_singleton]
    refine List.nodup_append.mpr ⟨h.apart, List.nodup_cons.mpr ⟨List.not_mem_nil, List.nodup_nil⟩, fun a ha b hb hab => ?_⟩
    rw [List.mem_singleton] at hb
    exact hnew (hb ▸ hab ▸ ha)
  stands := by simpa [or_imp, forall_and] using ⟨h.stands, hp⟩
  free hold := by simpa [or_imp, forall_and] using ⟨h.free hold, hfree hold⟩

theorem State.placeGraph_apart {s : State} {k : Nat} {old ps : List GraphPlace} {bs : List Block} {done : List GraphPlace}
    (hdone : s.PlacedApart old done) (h : s.placeGraph k old bs done = some ps) :
    s.PlacedApart old ps ∧ ps.length = done.length + bs.length := by
  induction bs generalizing done with
  | nil =>
    cases h
    exact ⟨hdone, rfl⟩
  | cons b bs ih =>
    obtain ⟨p, hp, hnew, hfree, hrest⟩ := State.placeGraph_cons h
    obtain ⟨hplaced, hlen⟩ := ih (hdone.snoc hp hnew hfree) hrest
    exact ⟨hplaced, by simp only [hlen, List.length_append, List.length_cons, List.length_nil]; omega⟩

/-! ### Edges (R464) -/

/-- R459, R464: the two blocks of an edge that fits, and its ports, stand. -/
theorem GraphEdge.exists_of_fits {e : GraphEdge} {bs : List Block} (h : e.fits bs = true) :
    (∃ a, bs[e.src]? = some a) ∧ (∃ b, bs[e.dst]? = some b) ∧ e.out < 7 ∧ e.inp < 10 := by
  unfold GraphEdge.fits at h
  split at h
  · next a b ha hb =>
    simp only [Bool.and_eq_true, decide_eq_true_eq] at h
    obtain ⟨⟨⟨⟨hout, hinp⟩, -⟩, -⟩, -⟩ := h
    exact ⟨⟨a, ha⟩, ⟨b, hb⟩, hout, hinp⟩
  · contradiction

/-- R464: a stream joins the ports of an edge on the slots of two places. -/
structure GraphStream.Joins (x : GraphStream) (e : GraphEdge) (p q : GraphPlace) : Prop where
  ctx : x.ctx = p.ctx
  dctx : x.dctx = q.ctx
  source : epType x.ep0.toNat = 2 ∧ epPort x.ep0.toNat = e.out
  near : p.ctx = q.ctx → epType x.ep1.toNat = 2 ∧ epPort x.ep1.toNat = e.inp
  far : p.ctx ≠ q.ctx → epType x.ep1.toNat = 4 ∧ epCtx x.ep1.toNat = q.ctx ∧ epRemotePort x.ep1.toNat = e.inp

theorem GraphEdge.stream_joins {e : GraphEdge} {bs : List Block} {ps : List GraphPlace} {p q : GraphPlace} (hfits : e.fits bs = true)
    (hp : ps[e.src]? = some p) (hq : ps[e.dst]? = some q) (hctx : q.ctx < 4096) :
    ∃ x, e.stream bs ps = some x ∧ x.Joins e p q := by
  obtain ⟨⟨a, ha⟩, -, hout, hinp⟩ := GraphEdge.exists_of_fits hfits
  refine ⟨_, by simp only [GraphEdge.stream, ha, hp, hq]; rfl, ?_⟩
  refine ⟨rfl, rfl, ⟨epType_portEndpoint _ (by omega), epPort_portEndpoint _ (by omega)⟩, fun hnear => ?_, fun hfar => ?_⟩
  · dsimp only
    rw [if_pos hnear]
    exact ⟨epType_portEndpoint _ (by omega), epPort_portEndpoint _ (by omega)⟩
  · dsimp only
    rw [if_neg hfar]
    exact remoteEndpoint_fields _ hctx (by omega)

/-! ### Levels (R302) -/

/-- R13: two nodes that lie in one place of a scope lie in one place of the next wider scope. -/
theorem scopePlace_succ {k n m : Nat} (hk : 1 ≤ k) (h : scopePlace k n = scopePlace k m) : scopePlace (k + 1) n = scopePlace (k + 1) m := by
  match k, hk, h with
  | 1, _, h => rw [show n = m from h]
  | 2, _, h =>
    simp only [scopePlace, dieOf] at h ⊢
    omega
  | k + 3, _, _ => rfl

theorem scopePlace_mono {j k n m : Nat} (hjk : j ≤ k) (hj : 1 ≤ j) (h : scopePlace j n = scopePlace j m) :
    scopePlace k n = scopePlace k m := by
  induction hjk with
  | refl => exact h
  | step hle ih => exact scopePlace_succ (Nat.le_trans hj hle) ih

theorem narrowest_bounds (ns : List Nat) : 1 ≤ narrowest ns ∧ narrowest ns ≤ 5 := by
  unfold narrowest
  cases hk : [1, 2, 3, 4].find? _ with
  | none => exact ⟨by decide, by decide⟩
  | some k =>
    have hmem : k ∈ [1, 2, 3, 4] := List.mem_of_find?_eq_some hk
    simp only [List.mem_cons, List.not_mem_nil, or_false] at hmem
    dsimp only [Option.getD]
    omega

/-- R302: the narrowest scope contains the tiles, and so does each that is wider. -/
theorem scopePlace_eq_of_narrowest_le {ns : List Nat} {k n m : Nat} (hle : narrowest ns ≤ k) (hk : k < 5) (hn : n ∈ ns) (hm : m ∈ ns) :
    scopePlace k n = scopePlace k m := by
  have hone := (narrowest_bounds ns).1
  refine scopePlace_mono hle hone ?_
  unfold narrowest at hle ⊢
  cases hj : [1, 2, 3, 4].find? _ with
  | none => rw [hj] at hle; exact absurd hle (by simp; omega)
  | some j =>
    have hall := List.find?_some hj
    simp only [List.all_eq_true, beq_iff_eq] at hall
    exact hall n hn m hm

/-- The tiles of the blocks of a level. -/
def levelNodes (ps : List GraphPlace) (l : List Nat) : List Nat := l.filterMap fun b => (ps[b]?).map fun p => nodeOf p.ctx

theorem levelScopes_cons (ps : List GraphPlace) (below : Nat) (l : List Nat) (ls : List (List Nat)) :
    levelScopes ps below (l :: ls)
      = max below (narrowest (levelNodes ps l)) :: levelScopes ps (max below (narrowest (levelNodes ps l))) ls := rfl

theorem mem_levelNodes {ps : List GraphPlace} {l : List Nat} {b : Nat} {p : GraphPlace} (hb : b ∈ l) (hp : ps[b]? = some p) :
    nodeOf p.ctx ∈ levelNodes ps l :=
  List.mem_filterMap.mpr ⟨b, hb, by rw [hp]; rfl⟩

section
variable (ps : List GraphPlace)

theorem levelScopes_length (below : Nat) (ls : List (List Nat)) : (levelScopes ps below ls).length = ls.length := by
  induction ls generalizing below with
  | nil => rfl
  | cons l ls ih => rw [levelScopes_cons, List.length_cons, List.length_cons, ih]

theorem le_of_mem_levelScopes {below : Nat} {ls : List (List Nat)} {x : Nat} (hx : x ∈ levelScopes ps below ls) : below ≤ x := by
  induction ls generalizing below with
  | nil => contradiction
  | cons l ls ih =>
    rw [levelScopes_cons, List.mem_cons] at hx
    rcases hx with rfl | hx
    · exact Nat.le_max_left _ _
    · exact Nat.le_trans (Nat.le_max_left _ _) (ih hx)

theorem levelScopes_pairwise (below : Nat) (ls : List (List Nat)) : (levelScopes ps below ls).Pairwise (· ≤ ·) := by
  induction ls generalizing below with
  | nil => exact List.Pairwise.nil
  | cons l ls ih => exact List.pairwise_cons.mpr ⟨fun x hx => le_of_mem_levelScopes ps hx, ih _⟩

/-- R302: the scope of a level is no narrower than the level's tiles ask for, nor wider than `.pod`. -/
theorem levelScopes_getElem? {below : Nat} {ls : List (List Nat)} {k scope : Nat} {l : List Nat} (hbelow : below ≤ 5)
    (hscope : (levelScopes ps below ls)[k]? = some scope) (hl : ls[k]? = some l) :
    narrowest (levelNodes ps l) ≤ scope ∧ scope ≤ 5 := by
  induction ls generalizing below k with
  | nil => simp at hl
  | cons x ls ih =>
    rw [levelScopes_cons] at hscope
    have htop : max below (narrowest (levelNodes ps x)) ≤ 5 := Nat.max_le.mpr ⟨hbelow, (narrowest_bounds _).2⟩
    cases k with
    | zero =>
      cases hscope
      cases hl
      exact ⟨Nat.le_max_right _ _, htop⟩
    | succ k => exact ih htop hscope hl

end

/-! ### What the loader makes of a graph (R464) -/

/-- A list that is read in full gives a result for each of its members. -/
theorem length_of_mapM_eq_some {α β : Type} {f : α → Option β} {l : List α} {r : List β} (h : l.mapM f = some r) :
    r.length = l.length := by
  induction l generalizing r with
  | nil =>
    cases h
    rfl
  | cons x l ih =>
    simp only [List.mapM_cons, Option.pure_def, Option.bind_eq_bind, Option.bind_eq_some_iff, Option.some.injEq] at h
    obtain ⟨y, -, ys, hys, rfl⟩ := h
    rw [List.length_cons, List.length_cons, ih hys]

/-- R464: the graph as it is loaded, its blocks on their places. -/
def Graph.loadedOn (g : Graph) (bs : List Block) (ps : List GraphPlace) : GraphLoad where
  graph := g
  code := none
  places := ps
  streams := g.edges.filterMap (·.stream bs ps)
  scopes := levelScopes ps 1 ((List.range 5).map fun k => (g.levels[k]?).getD [])

section
variable {s : State} {k : Nat} {old : List GraphPlace} {g : Graph} {bs : List Block}

theorem State.graphLoad_unread (hread : g.blocks.mapM (·.read s) = none) : s.graphLoad k old g = g.refused 0x06 := by
  simp only [State.graphLoad, hread]

theorem State.graphLoad_beyond (hread : g.blocks.mapM (·.read s) = some bs)
    (hbeyond : (∃ b ∈ bs, b.canonical = false) ∨ (∃ e ∈ g.edges, e.fits bs = false) ∨ ∃ x ∈ g.fields, x.level = 0) :
    s.graphLoad k old g = g.refused 0x05 := by
  have hcheck : (!bs.all (·.canonical) || !g.edges.all (·.fits bs) || g.fields.any fun x => x.level == 0 || decide (5 < x.level)) = true := by
    simp only [Bool.or_eq_true, Bool.not_eq_true', List.all_eq_false, List.any_eq_true, beq_iff_eq, Bool.not_eq_true]
    rcases hbeyond with hblock | hedge | ⟨x, hx, hlevel⟩
    · exact .inl (.inl hblock)
    · exact .inl (.inr hedge)
    · exact .inr ⟨x, hx, .inl hlevel⟩
  simp only [State.graphLoad, hread, hcheck, if_true]

/-- R464: a graph that is not refused has edges that fit and a place for each block. -/
theorem State.graphLoad_loaded (hcode : (s.graphLoad k old g).code = none) : ∃ bs ps, g.blocks.mapM (·.read s) = some bs
    ∧ (∀ e ∈ g.edges, e.fits bs = true) ∧ s.placeGraph k old bs [] = some ps ∧ s.graphLoad k old g = g.loadedOn bs ps := by
  cases hread : g.blocks.mapM (·.read s) with
  | none => simp [State.graphLoad_unread hread, Graph.refused] at hcode
  | some bs =>
    simp only [State.graphLoad, hread] at hcode ⊢
    split at hcode
    · contradiction
    · next hwithin =>
      split at hcode
      · contradiction
      · next ps hps =>
        refine ⟨bs, ps, rfl, fun e he => ?_, hps, if_neg hwithin⟩
        cases hfits : e.fits bs with
        | true => rfl
        | false =>
          refine absurd ?_ hwithin
          rw [List.all_eq_false.mpr ⟨e, he, Bool.eq_false_iff.mp hfits⟩, Bool.not_false, Bool.or_true, Bool.true_or]

end

end Sys2Proof.Machine
end

section
/-! Proofs of the statement on power and service, a graph as it is loaded and as it runs (R302, R464): what the load leaves in the slots and in
memory, the SCOPE fields, and the streams of edges. -/

namespace Sys2Proof.Machine

/-! ### SCOPE fields (R302) -/

theorem readLE_lt (m : List (Nat × BitVec 8)) (a n : Nat) : readLE m a n < 2 ^ (8 * n) := by
  induction n generalizing a with
  | zero => simp [readLE]
  | succ n ih =>
    have hbyte := (getByte m a).isLt
    have hrest := ih (a + 1)
    rw [readLE, Nat.mul_succ, Nat.pow_add]
    omega

/-- R302: a FENCE, ACQ or REL word takes the scope in [29:27] and keeps its other bits. -/
theorem State.writeScope_word (s : State) {x : GraphScope} {scope : Nat} (hscope : scope < 8) (hfield : x.field = .word) :
    let v := readLE s.mem x.addr 4
    let v' := readLE (s.writeScope x scope).mem x.addr 4
    v' / 2 ^ 27 % 8 = scope ∧ v' % 2 ^ 27 = v % 2 ^ 27 ∧ v' / 2 ^ 30 = v / 2 ^ 30 := by
  have hlt := readLE_lt s.mem x.addr 4
  have hread : readLE (s.writeScope x scope).mem x.addr 4 = putBits (readLE s.mem x.addr 4) 27 3 scope % 2 ^ (8 * 4) := by
    simp only [State.writeScope, hfield, State.setField, readLE_writeLE]
  simp only [hread, putBits]
  omega

theorem State.setField_slots (s : State) (a n lo w v : Nat) : (s.setField a n lo w v).slots = s.slots := rfl

theorem State.writeScope_slots (s : State) (x : GraphScope) (scope : Nat) : (s.writeScope x scope).slots = s.slots := by
  unfold State.writeScope
  split <;> exact State.setField_slots ..

/-- The state with another list of graphs. -/
def State.withGraphs (s : State) (gs : List GraphLoad) : State := { s with graphs := gs }

/-- What a SCOPE field is written to does not look at the list of graphs. -/
theorem State.writeScope_withGraphs (s : State) (gs : List GraphLoad) (x : GraphScope) (scope : Nat) :
    (s.withGraphs gs).writeScope x scope = (s.writeScope x scope).withGraphs gs := by
  unfold State.writeScope
  split <;> rfl

theorem State.writeScopes_slots (s : State) (g : GraphLoad) : (s.writeScopes g).slots = s.slots :=
  List.foldlRecOn (motive := fun u : State => u.slots = s.slots) _ _ rfl fun u h x _ => (u.writeScope_slots x _).trans h

theorem State.writeScopes_withGraphs (s : State) (gs : List GraphLoad) (g : GraphLoad) :
    (s.withGraphs gs).writeScopes g = (s.writeScopes g).withGraphs gs :=
  List.foldl_hom (State.withGraphs · gs) fun u x => u.writeScope_withGraphs gs x _

theorem State.writeScopes_of_graph (s : State) {l : GraphLoad} {g : Graph} (h : l.graph = g) :
    s.writeScopes l = g.fields.foldl (fun u x => u.writeScope x ((l.scopes[x.level - 1]?).getD 0)) s := h ▸ rfl

@[simp] theorem State.withGraphs_mem (s : State) (gs : List GraphLoad) : (s.withGraphs gs).mem = s.mem := rfl
@[simp] theorem State.withGraphs_slotAt (s : State) (gs : List GraphLoad) (ctx : Nat) : (s.withGraphs gs).slotAt ctx = s.slotAt ctx := rfl

/-! ### Slots that hold the blocks of a graph (R464) -/

section
variable (s : State) (b : GraphBlock) (p : GraphPlace)

/-- R464: only the quadrant of the slot changes, and only while the slot is free. -/
theorem State.holdBlock_keeps : (s.holdBlock b p).mem = s.mem ∧ (s.holdBlock b p).graphs = s.graphs
    ∧ ∀ c, ((s.holdBlock b p).slotAt c).stage = (s.slotAt c).stage := by
  unfold State.holdBlock
  split
  · exact ⟨rfl, rfl, fun _ => rfl⟩
  · refine ⟨rfl, rfl, fun c => ?_⟩
    by_cases hc : c = p.ctx
    · rw [hc, State.slotAt_setSlot_same]
    · rw [State.slotAt_setSlot_other _ _ hc]

theorem State.holdBlock_loads (hfree : (s.slotAt p.ctx).stage = .free) : ((s.holdBlock b p).slotAt p.ctx).quad.st = .loaded := by
  rw [State.holdBlock, if_neg (not_not_intro hfree), State.slotAt_setSlot_same]
  rfl

theorem State.holdBlock_stays_loaded {c : Nat} (hloaded : (s.slotAt c).quad.st = .loaded) :
    ((s.holdBlock b p).slotAt c).quad.st = .loaded := by
  by_cases hfree : (s.slotAt p.ctx).stage = .free
  · by_cases hc : c = p.ctx
    · exact hc ▸ s.holdBlock_loads b p hfree
    · rw [State.holdBlock, if_neg (not_not_intro hfree), State.slotAt_setSlot_other _ _ hc, hloaded]
  · rw [State.holdBlock, if_pos hfree, hloaded]

end

/-- R464: the slots of a graph's blocks with the blocks. -/
def State.holdBlocks (s : State) (xs : List (GraphBlock × GraphPlace)) : State := xs.foldl (fun t x => t.holdBlock x.1 x.2) s

theorem State.holdBlocks_keeps (s : State) (xs : List (GraphBlock × GraphPlace)) :
    (s.holdBlocks xs).mem = s.mem ∧ (s.holdBlocks xs).graphs = s.graphs :=
  List.foldlRecOn (motive := fun u : State => u.mem = s.mem ∧ u.graphs = s.graphs) _ _ ⟨rfl, rfl⟩ fun u h x _ =>
    have ⟨hmem, hgraphs, _⟩ := u.holdBlock_keeps x.1 x.2
    ⟨hmem.trans h.1, hgraphs.trans h.2⟩

theorem State.holdBlocks_stays_loaded (s : State) (xs : List (GraphBlock × GraphPlace)) {c : Nat}
    (hloaded : (s.slotAt c).quad.st = .loaded) : ((s.holdBlocks xs).slotAt c).quad.st = .loaded :=
  List.foldlRecOn (motive := fun u : State => (u.slotAt c).quad.st = .loaded) _ _ hloaded fun u h x _ => u.holdBlock_stays_loaded x.1 x.2 h

/-- R464: every free slot that a block stands on is LOADED. -/
theorem State.holdBlocks_loads {s : State} {xs : List (GraphBlock × GraphPlace)}
    (hfree : ∀ x ∈ xs, (s.slotAt x.2.ctx).stage = .free) {x : GraphBlock × GraphPlace} (hx : x ∈ xs) :
    ((s.holdBlocks xs).slotAt x.2.ctx).quad.st = .loaded := by
  induction xs generalizing s with
  | nil => contradiction
  | cons y xs ih =>
    obtain ⟨-, -, hstage⟩ := s.holdBlock_keeps y.1 y.2
    rcases List.mem_cons.mp hx with rfl | hx
    · exact State.holdBlocks_stays_loaded _ xs (s.holdBlock_loads _ _ (hfree _ List.mem_cons_self))
    · exact ih (fun z hz => (hstage _).trans (hfree z (List.mem_cons_of_mem _ hz))) hx

/-! ### The move of a graph (R464) -/

/-- R464: a graph that is refused changes nothing but the list. -/
theorem State.loadGraph_refused {s : State} {g : Graph} (hcode : (s.graphLoad s.graphs.length [] g).code ≠ none) :
    s.loadGraph g = { s with graphs := s.graphs ++ [s.graphLoad s.graphs.length [] g] } :=
  if_pos (Option.isSome_iff_ne_none.mpr hcode)

/-- R464: a graph that is loaded has its scopes written and its blocks held. -/
theorem State.loadGraph_loaded {s : State} {g : Graph} (hcode : (s.graphLoad s.graphs.length [] g).code = none) :
    let l := s.graphLoad s.graphs.length [] g
    s.loadGraph g = ((s.writeScopes l).withGraphs (s.graphs ++ [l])).holdBlocks (l.graph.blocks.zip l.places) := by
  intro l
  have hset : (s.graphs ++ [l]).set s.graphs.length l = s.graphs ++ [l] := by simp
  rw [State.loadGraph, if_neg (by simp [hcode]), State.bindGraph, hset]
  exact congrArg (State.holdBlocks · _) (s.writeScopes_withGraphs _ l)

/-! ### The streams of edges (R279, R464) -/

/-- The token at the head leaves, and the tokens behind it stay. -/
theorem Quad.popOut_pops {q : Quad} {p : Nat} {x : Tok × Bool} {rest : List (Tok × Bool)} (h : q.outPort p = x :: rest) :
    (q.popOut p).outPort p = rest ∧ (q.popOut p).inPorts = q.inPorts := by
  simp only [Quad.popOut, h]
  split
  · exact ⟨aget_aset_same _ _ _ _, rfl⟩
  · exact ⟨aget_aset_same _ _ _ _, rfl⟩

theorem Quad.edgeTake_pops {q : Quad} {p : Nat} {x : Tok × Bool} {rest : List (Tok × Bool)} (h : q.outPort p = x :: rest) (t : Tok) :
    (q.edgeTake p t).outPort p = rest ∧ (q.edgeTake p t).inPorts = q.inPorts := by
  unfold Quad.edgeTake
  dsimp only
  split
  · exact Quad.popOut_pops h
  · exact Quad.popOut_pops h

theorem Quad.outPort_of_outHeads {q : Quad} {p : Nat} {x : Tok × Bool} {rest : List (Tok × Bool)} (h : q.outHeads p = x :: rest) :
    q.outPort p = x :: rest := by
  unfold Quad.outHeads at h
  split at h
  · contradiction
  · exact h

/-- R464: the stream of edge e has taken the head of its output port. -/
def State.edgeTaken (s : State) (e : GraphStream) (t : Tok) : State :=
  s.setSlot e.ctx fun l => ({ l with quad := l.quad.edgeTake (epPort e.ep0.toNat) t } : Slot).cutCheck e.ctx (s.acOf e.ctx)

theorem State.edgeTaken_pops {s : State} {e : GraphStream} {x : Tok × Bool} {rest : List (Tok × Bool)}
    (h : (s.slotAt e.ctx).quad.outHeads (epPort e.ep0.toNat) = x :: rest) (t : Tok) :
    ((s.edgeTaken e t).slotAt e.ctx).quad.outPort (epPort e.ep0.toNat) = rest
      ∧ ((s.edgeTaken e t).slotAt e.ctx).quad.inPorts = (s.slotAt e.ctx).quad.inPorts := by
  obtain ⟨hout, hin⟩ := Quad.edgeTake_pops (Quad.outPort_of_outHeads h) t
  have hplaces := Slot.cutCheck_samePlaces
    { s.slotAt e.ctx with quad := (s.slotAt e.ctx).quad.edgeTake (epPort e.ep0.toNat) t } e.ctx (s.acOf e.ctx)
  rw [State.edgeTaken, State.slotAt_setSlot_same]
  exact ⟨(hplaces.outPort _).trans hout, hplaces.inPorts.trans hin⟩

/-- R464: stream j of graph k runs from one block to another, no command has taken either end, and a token stands at its output port. -/
structure State.EdgeReady (s : State) (k j : Nat) (g : GraphLoad) (e : GraphStream) (tok : Tok) (rep : Bool) (rest : List (Tok × Bool)) :
    Prop where
  graph : s.graphs[k]? = some g
  stream : g.streams[j]? = some e
  source : s.runsBlock e.ctx (g.graph.block e.src) = true
  target : s.runsBlock e.dctx (g.graph.block e.dst) = true
  takes : ∀ c ∈ (s.slotAt e.ctx).eng.flying, (c.started && epType c.ep0 == 2 && epPort c.ep0 == epPort e.ep0.toNat) = false
  gives : ∀ c ∈ (s.slotAt e.dctx).eng.flying, (c.started && epType c.ep1 == 2 && epPort c.ep1 == e.inPort) = false
  head : (s.slotAt e.ctx).quad.outHeads (epPort e.ep0.toNat) = (tok, rep) :: rest

/-- R464: a place for the token at the stream's input port. -/
def State.edgeRoom (s : State) (e : GraphStream) : Bool :=
  if e.ctx = e.dctx then (s.slotAt e.ctx).quad.portRoom e.inPort else s.remoteRoom e.dctx e.inPort

section
variable {s : State} {k j : Nat} {g : GraphLoad} {e : GraphStream} {tok : Tok} {rep : Bool} {rest : List (Tok × Bool)}
  (h : s.EdgeReady k j g e tok rep rest)
include h

theorem State.EdgeReady.bound : s.edgeBound g e = true := by
  have htakes := List.any_eq_false.mpr fun c hc => Bool.eq_false_iff.mp (h.takes c hc)
  have hgives := List.any_eq_false.mpr fun c hc => Bool.eq_false_iff.mp (h.gives c hc)
  simp only [State.edgeBound, h.source, htakes, hgives, Bool.not_false, Bool.and_self]

/-- R279, R464: what the move of an edge makes of a token that it finds. -/
theorem State.EdgeReady.edgeMove : s.edgeMove k j =
    (if (s.slotAt e.ctx).quad.edgePassed (epPort e.ep0.toNat) then s.edgeTaken e tok
    else if !s.edgeRoom e then s
    else if e.ctx = e.dctx then (s.edgeTaken e tok).sendPort e.ctx e.inPort { tok with tag := 0 } (4097 + k, j) 0
    else { s.edgeTaken e tok with remotes := s.remotes ++
      [⟨4097 + k, j, e.dctx, e.inPort, epRemoteCpl e.ep1.toNat, { tok with tag := 0 }, none, none⟩] }) := by
  simp only [State.edgeMove, State.edgePasses, h.graph, h.stream, Option.bind_some, h.bound, h.target, h.head, State.edgeRoom,
    State.edgeTaken, Bool.not_true, Bool.or_self, Bool.false_eq_true, if_false]
  split
  · rfl
  · split
    · split <;> rfl
    · split <;> rfl

/-- R338: the head that was passed on before a rollback leaves its port, and is passed on no more. -/
theorem State.EdgeReady.move_passed (hpassed : (s.slotAt e.ctx).quad.edgePassed (epPort e.ep0.toNat) = true) :
    move s (.edge k j) = .next (s.edgeTaken e tok) := by
  show Host.Outcome.next (s.edgeMove k j) = _
  rw [h.edgeMove, if_pos hpassed]

section
variable (hpassed : (s.slotAt e.ctx).quad.edgePassed (epPort e.ep0.toNat) = false)
include hpassed

/-- R279: a token waits for a place at the input port. -/
theorem State.EdgeReady.move_waits (hroom : s.edgeRoom e = false) : move s (.edge k j) = .next s := by
  show Host.Outcome.next (s.edgeMove k j) = _
  rw [h.edgeMove, if_neg (Bool.eq_false_iff.mp hpassed), if_pos (by rw [hroom]; rfl)]

variable (hroom : s.edgeRoom e = true)
include hroom

theorem State.EdgeReady.move_near (hnear : e.ctx = e.dctx) :
    move s (.edge k j) = .next ((s.edgeTaken e tok).sendPort e.ctx e.inPort { tok with tag := 0 } (4097 + k, j) 0) := by
  show Host.Outcome.next (s.edgeMove k j) = _
  rw [h.edgeMove, if_neg (Bool.eq_false_iff.mp hpassed), if_neg (by simp [hroom]), if_pos hnear]

theorem State.EdgeReady.move_far (hfar : e.ctx ≠ e.dctx) : move s (.edge k j) = .next { s.edgeTaken e tok with
    remotes := s.remotes ++ [⟨4097 + k, j, e.dctx, e.inPort, epRemoteCpl e.ep1.toNat, { tok with tag := 0 }, none, none⟩] } := by
  show Host.Outcome.next (s.edgeMove k j) = _
  rw [h.edgeMove, if_neg (Bool.eq_false_iff.mp hpassed), if_neg (by simp [hroom]), if_neg hfar]

end

end

/-- R281: the token that the engine sends comes behind those on their way, and no output port changes. -/
theorem State.sendPort_sends (s : State) (ctx p : Nat) (t : Tok) (src : Nat × Nat) (n : Nat) :
    (((s.sendPort ctx p t src n).slotAt ctx).quad.port p).incoming
        = ((s.slotAt ctx).quad.port p).incoming ++ [⟨s.acOf ctx + 1, t, src, n, false⟩]
      ∧ ((s.sendPort ctx p t src n).slotAt ctx).quad.outPorts = (s.slotAt ctx).quad.outPorts := by
  have hport := aget_amod_same ({} : InPort) p (fun ip => { ip with incoming := ip.incoming ++ [⟨s.acOf ctx + 1, t, src, n, false⟩] })
    (s.slotAt ctx).quad.inPorts
  rw [State.sendPort, State.slotAt_setSlot_same]
  exact ⟨congrArg InPort.incoming hport, rfl⟩

end Sys2Proof.Machine
end

section
/-! Proofs of the statement on power and service: its clauses on graphs, put together, and the whole. -/

namespace Sys2Proof.Machine

/-! ### A graph (R302, R464) -/

/-- R464: the places of two blocks, and a stream that joins the ports of an edge between them. -/
theorem Graph.loadedOn_edge {s : State} {k : Nat} {old ps : List GraphPlace} {g : Graph} {bs : List Block} {e : GraphEdge}
    (he : e ∈ g.edges) (hfits : e.fits bs = true) (hps : s.placeGraph k old bs [] = some ps) :
    ∃ p q, ps[e.src]? = some p ∧ ps[e.dst]? = some q ∧ ∃ x ∈ (g.loadedOn bs ps).streams, x.Joins e p q := by
  obtain ⟨hplaced, hlen⟩ := State.placeGraph_apart (.nil s old) hps
  rw [List.length_nil, Nat.zero_add] at hlen
  have hplace {n : Nat} (h : ∃ b, bs[n]? = some b) : ∃ p, ps[n]? = some p := by
    obtain ⟨b, hb⟩ := h
    exact ⟨_, List.getElem?_eq_getElem (hlen ▸ (List.getElem?_eq_some_iff.mp hb).1)⟩
  obtain ⟨hsrc, hdst, -, -⟩ := GraphEdge.exists_of_fits hfits
  obtain ⟨p, hp⟩ := hplace hsrc
  obtain ⟨q, hq⟩ := hplace hdst
  obtain ⟨x, hx, hjoins⟩ := GraphEdge.stream_joins hfits hp hq (hplaced.stands q (List.mem_of_getElem? hq)).ctx_lt
  exact ⟨p, q, hp, hq, x, List.mem_filterMap.mpr ⟨e, he, hx⟩, hjoins⟩

/-- R302, R464: what the loader makes of a graph that it does not refuse. -/
theorem State.graphLoad_places {s : State} {k : Nat} {g : Graph} (hcode : (s.graphLoad k [] g).code = none) :
    ∃ bs ps, s.graphLoad k [] g = g.loadedOn bs ps ∧ ps.length = g.blocks.length ∧ s.PlacedApart [] ps
      ∧ ∀ e ∈ g.edges, ∃ p q, ps[e.src]? = some p ∧ ps[e.dst]? = some q ∧ ∃ x ∈ (g.loadedOn bs ps).streams, x.Joins e p q := by
  obtain ⟨bs, ps, hread, hfits, hps, hl⟩ := State.graphLoad_loaded hcode
  obtain ⟨hplaced, hlen⟩ := State.placeGraph_apart (.nil s []) hps
  rw [List.length_nil, Nat.zero_add, length_of_mapM_eq_some hread] at hlen
  exact ⟨bs, ps, hl, hlen, hplaced, fun e he => Graph.loadedOn_edge he (hfits e he) hps⟩

/-- R464: the move of a graph leaves it in the list; one that is refused changes no more, and one that is loaded has its slots LOADED and its
scopes written. -/
theorem move_graph_loads (s : State) (g : Graph) :
    let l := s.graphLoad s.graphs.length [] g
    ∃ t, move s (.graph g) = .next t ∧ t.graphs = s.graphs ++ [l] ∧ (l.code ≠ none → t.mem = s.mem ∧ t.slots = s.slots)
      ∧ (l.code = none → (∀ p ∈ l.places, (t.slotAt p.ctx).quad.st = .loaded)
        ∧ t.mem = (g.fields.foldl (fun u x => u.writeScope x ((l.scopes[x.level - 1]?).getD 0)) s).mem) := by
  intro l
  refine ⟨s.loadGraph g, rfl, ?_⟩
  by_cases hcode : l.code = none
  · obtain ⟨bs, ps, hl, hlen, hplaced, -⟩ := State.graphLoad_places hcode
    have hgraph : l.graph = g := congrArg GraphLoad.graph hl
    have hplaces : l.places = ps := congrArg GraphLoad.places hl
    rw [State.loadGraph_loaded hcode]
    obtain ⟨hmem, hgraphs⟩ := State.holdBlocks_keeps ((s.writeScopes l).withGraphs (s.graphs ++ [l])) (l.graph.blocks.zip l.places)
    rw [State.withGraphs_mem] at hmem
    refine ⟨hgraphs, absurd hcode, fun _ => ⟨fun p hp => ?_, hmem.trans (congrArg State.mem (s.writeScopes_of_graph hgraph))⟩⟩
    have hzip : (l.graph.blocks.zip l.places).map Prod.snd = l.places :=
      List.map_snd_zip (Nat.le_of_eq (by rw [hgraph, hplaces, hlen]))
    obtain ⟨x, hx, rfl⟩ := List.mem_map.mp (hzip ▸ hp)
    refine State.holdBlocks_loads (fun y hy => ?_) hx
    have hy : y.2 ∈ ps := hplaces ▸ (List.of_mem_zip hy).2
    rw [State.withGraphs_slotAt, State.slotAt, State.writeScopes_slots]
    exact hplaced.free rfl y.2 hy
  · rw [State.loadGraph_refused hcode]
    exact ⟨rfl, fun _ => ⟨rfl, rfl⟩, fun h => absurd h hcode⟩

/-- R302: the scope of level k contains the tiles of its blocks, which is true of `.pod` for any. -/
theorem Graph.loadedOn_scope {g : Graph} {bs : List Block} {ps : List GraphPlace} {k scope : Nat} {level : List Nat}
    (hscope : (g.loadedOn bs ps).scopes[k]? = some scope) (hlevel : g.levels[k]? = some level) :
    1 ≤ scope ∧ scope ≤ 5 ∧ (scope < 5 → ∀ a ∈ level, ∀ b ∈ level, ∀ p q, ps[a]? = some p → ps[b]? = some q →
      scopePlace scope (nodeOf p.ctx) = scopePlace scope (nodeOf q.ctx)) := by
  have hk : k < 5 := by
    have := (List.getElem?_eq_some_iff.mp hscope).1
    simpa [Graph.loadedOn, levelScopes_length] using this
  have hl : ((List.range 5).map fun k => (g.levels[k]?).getD [])[k]? = some level := by
    simp [hk, hlevel]
  obtain ⟨hnarrowest, htop⟩ := levelScopes_getElem? ps (by decide) hscope hl
  refine ⟨le_of_mem_levelScopes ps (List.mem_of_getElem? hscope), htop, fun hlt a ha b hb p q hp hq => ?_⟩
  exact scopePlace_eq_of_narrowest_le hnarrowest hlt (mem_levelNodes ha hp) (mem_levelNodes hb hq)

/-! ### The streams of edges (R279, R464) -/

section
variable {s : State} {k j : Nat} {g : GraphLoad} {e : GraphStream} {tok : Tok} {rep : Bool} {rest : List (Tok × Bool)}
  (h : s.EdgeReady k j g e tok rep rest) (hpassed : (s.slotAt e.ctx).quad.edgePassed (epPort e.ep0.toNat) = false)
include h hpassed

/-- R279: an edge to another quadrant sends its token over the fabric while there is a place for it. -/
theorem State.EdgeReady.moves_far (hfar : e.ctx ≠ e.dctx) :
    (s.remoteRoom e.dctx e.inPort = true → ∃ t, move s (.edge k j) = .next t
        ∧ (t.slotAt e.ctx).quad.outPort (epPort e.ep0.toNat) = rest
        ∧ t.remotes = s.remotes ++ [⟨4097 + k, j, e.dctx, e.inPort, epRemoteCpl e.ep1.toNat, { tok with tag := 0 }, none, none⟩])
      ∧ (s.remoteRoom e.dctx e.inPort = false → move s (.edge k j) = .next s) := by
  have hroom : s.edgeRoom e = s.remoteRoom e.dctx e.inPort := if_neg hfar
  exact ⟨fun hplace => ⟨_, h.move_far hpassed (hroom.trans hplace) hfar, (State.edgeTaken_pops h.head tok).1, rfl⟩,
    fun hfull => h.move_waits hpassed (hroom.trans hfull)⟩

/-- R279, R281: an edge within a quadrant gives its token to the input port while there is a place for it. -/
theorem State.EdgeReady.moves_near (hnear : e.ctx = e.dctx) :
    let q := (s.slotAt e.ctx).quad
    (q.portRoom e.inPort = true → ∃ t, move s (.edge k j) = .next t ∧ (t.slotAt e.ctx).quad.outPort (epPort e.ep0.toNat) = rest
        ∧ ((t.slotAt e.ctx).quad.port e.inPort).incoming
          = (q.port e.inPort).incoming ++ [⟨s.acOf e.dctx + 1, { tok with tag := 0 }, (4097 + k, j), 0, false⟩])
      ∧ (q.portRoom e.inPort = false → move s (.edge k j) = .next s) := by
  intro q
  have hroom : s.edgeRoom e = q.portRoom e.inPort := if_pos hnear
  obtain ⟨hout, hin⟩ := State.edgeTaken_pops h.head tok
  obtain ⟨hsent, hkeeps⟩ := (s.edgeTaken e tok).sendPort_sends e.ctx e.inPort { tok with tag := 0 } (4097 + k, j) 0
  refine ⟨fun hplace => ⟨_, h.move_near hpassed (hroom.trans hplace) hnear, (congrArg (aget [] _) hkeeps).trans hout, ?_⟩,
    fun hfull => h.move_waits hpassed (hroom.trans hfull)⟩
  rw [hsent, Quad.port, hin, ← hnear]
  rfl

end

/-! ### The statement -/

/-- Settles O60, event by event: the images, the graph and its streams each by what the model's functions give for them. -/
theorem powerAndService : Obligations.PowerAndService := by
  refine ⟨fun s h => exec_powerGood h, ?_, ?_, ?_, ?_, fun s => exec_linkTrainingComplete_links, ?_, ?_, ?_,
    fun s hbridge hindex => ⟨State.windowRead_statusWord hbridge hindex, s.statusWord_low⟩, fun s => exec_ageingSample_marks,
    fun s k n p => exec_retirement_pe, ?_, fun s => ⟨_, exec_hardTemperatureLimit s, rfl, rfl, rfl, rfl, rfl, State.reset_die_stage⟩,
    ?_, ?_, fun s x scope _ => s.writeScope_word, ?_⟩
  case refine_1 =>
    intro s hpower hdies hverified hfail b
    refine ⟨fun hkind haccept => ?_, exec_firmwareVerify_refuses hpower hdies hverified hfail⟩
    obtain ⟨t, hstep, hstage, hdone, himages⟩ := exec_firmwareVerify_accepts hpower hdies hverified hfail hkind haccept
    exact ⟨t, hstep, hstage, hdone, by rw [himages, Die.install, hkind]⟩
  case refine_2 =>
    intro s d hpower hd hdies hverified hstage hfail htrained hempty
    exact exec_hbmTrainingComplete_raises hpower hdies hd hfail htrained hverified hstage hempty
  case refine_3 =>
    intro s hpower hdies hverified hstage hfail htrained
    exact exec_hbmTrainingComplete_again hpower hdies hverified hstage hfail htrained
  case refine_4 =>
    intro s d hpower hd hdies hfail htrained
    exact exec_hbmTrainingComplete_fails hpower hdies hd hfail htrained
  case refine_5 =>
    intro s d n hstage hhead hrun hlt b
    obtain ⟨haccepts, hrefuses⟩ := exec_firmwareUpdate_verifies hstage hhead hrun
    refine ⟨fun haccept => ⟨_, haccepts haccept, ?_⟩, hrefuses⟩
    rw [State.die_setDie _ _ _ hlt]
    rfl
  case refine_6 =>
    intro b haccept
    obtain ⟨hform, hsvn, ⟨hkey, hsig⟩, hkey', hsig'⟩ := (imageAccepted_iff b).mp haccept
    exact ⟨hsvn, imageForm_kind hform, hkey, hkey', hsig, hsig'⟩
  case refine_7 =>
    intro s nonce hstage
    exact ⟨_, _, _, exec_attestationRequest_sends nonce hstage, rfl, by simp [State.attestation], by simp [State.attestation], rfl,
      fun d hd x hx => State.mem_attestation_image nonce hd hx⟩
  case refine_8 =>
    intro s d hd hdies
    refine ⟨_, exec_softTemperatureLimit_toggles hd, ?_, fun e he => State.die_setDie_other _ _ he⟩
    rw [State.die_setDie _ _ _ (hdies ▸ hd)]
  case refine_9 =>
    intro s pkg
    obtain ⟨t, hstep, hpkg, hkeeps⟩ := exec_packageLeavesPod_unreachable s pkg
    exact ⟨t, hstep, hpkg, hkeeps, State.reaches_of_unreachable hpkg⟩
  case refine_10 =>
    intro s g l
    refine ⟨fun hread => congrArg GraphLoad.code (State.graphLoad_unread hread),
      fun bs hread hbeyond => congrArg GraphLoad.code (State.graphLoad_beyond hread hbeyond), move_graph_loads s g, fun hcode => ?_⟩
    obtain ⟨bs, ps, hl, hlen, hplaced, hedges⟩ := State.graphLoad_places hcode
    simp only [l, hl]
    refine ⟨hlen, hplaced.apart, fun p hp => ⟨(hplaced.stands p hp).slot, (hplaced.stands p hp).tile⟩, fun e he => ?_,
      levelScopes_length ps 1 _, levelScopes_pairwise ps 1 _, fun k scope level => Graph.loadedOn_scope⟩
    obtain ⟨p, q, hp, hq, x, hx, hjoins⟩ := hedges e he
    exact ⟨p, q, hp, hq, x, hx, hjoins.ctx, hjoins.dctx, hjoins.source.1, hjoins.source.2, hjoins.near, hjoins.far⟩
  case refine_11 =>
    intro s k j g e tok rep rest hgraph hstream out hsource htarget htakes hgives hhead
    have h : s.EdgeReady k j g e tok rep rest := ⟨hgraph, hstream, hsource, htarget, htakes, hgives, hhead⟩
    exact ⟨fun hpassed => ⟨_, h.move_passed hpassed, (State.edgeTaken_pops hhead tok).1, rfl⟩,
      fun hpassed hfar => h.moves_far hpassed hfar, fun hpassed hnear => h.moves_near hpassed hnear⟩

end Sys2Proof.Machine
end
